-- ==== Sys2Proof/Word.lean ====
section
/-! DEFINITION. The words of the machine: bytes, 32-bit registers and binary32 values, 64-bit instruction words. -/

namespace Sys2Proof

/-- One byte of a memory, a message or a register (R4: byte order is little-endian everywhere). -/
abbrev Byte := BitVec 8

/-- A 32-bit register of the CSR space. -/
abbrev W32 := BitVec 32

/-- A binary32 value, held as its bits (R123, R124). -/
abbrev F32 := BitVec 32

/-- A site (physical column position), 0 to 17 (R8). -/
abbrev Site := Fin 18

/-- A logical column, 0 to 15 (R9). -/
abbrev Col := Fin 16

/-- A partition, 0 to 3 (R84). -/
abbrev Part := Fin 4

/-- A span port, 0 to 11. -/
abbrev Port := Fin 12

/-- A half of the host link: 0 is A, 1 is B (R350). -/
abbrev Half := Fin 2

/-- A mailbox, 0 to 15 (R369). -/
abbrev Mbx := Fin 16

/-- A memory layer M1 to M12, numbered 0 to 11 here (layer l of the spec is l - 1). -/
abbrev Layer := Fin 12

end Sys2Proof
end

