-- ==== Sys2Proof/Config.lean ====
section
/-! DEFINITION. What one module fixes (its fuses) and the values the spec leaves open. Every constant
without a body is free: no proof can see what it is, so a statement holds for every value of it. -/

namespace Sys2Proof

/-- A free value: what the spec leaves undefined, unspecified or unstated. The step reads it at the counter `free`
of the state and advances the counter (DESIGN CHOICE, log 5). -/
opaque Config.freeValue : Nat → Nat

/-- The fused serial number of the module (R428). -/
opaque Config.serial : BitVec 64

/-- True on the engineering sample XGQ72-16A (R1, R446). -/
opaque Config.samplePart : Bool

/-- The units that the fuses mark bad, as (kind, site, index) (R406, R407). -/
opaque Config.fusedBad : List (Nat × Nat × Nat)

/-- The two key-digest slots of the fuse array, 32 bytes each (R428). -/
opaque Config.keyDigest : Bool → List Byte

/-- The fused security version of the module as it is shipped, 0 to 64 (R428). -/
opaque Config.fusedVersion : Fin 65

/-- The revocation bits of the module as it is shipped (R428). -/
opaque Config.fusedRevoked : Bool → Bool

/-- The fused voltage table: entry k of a site (R460). -/
opaque Config.voltTable : Nat → Nat → BitVec 8

/-- The fused lowest permitted voltage code of a site (R460). -/
opaque Config.vminCode : Nat → BitVec 8

/-- The identity certificate written at manufacture (R441, R443). -/
opaque Config.certificate : List Byte

/-- SHA-256 of the boot ROM (R444). -/
opaque Config.romDigest : List Byte

/-- The 16-byte LMS identifier of identity tree i; tree 0 is the top tree, tree i + 1 lower tree i (R440). -/
opaque Config.treeId : Nat → List Byte

/-- The 32-byte LMS seed of identity tree i (R440: derived from the fused seed and i). -/
opaque Config.treeSeed : Nat → List Byte

/-- The 32-byte message randomiser of a signature by leaf q of tree i (left open by R440). -/
opaque Config.signRandom : Nat → Nat → List Byte

/-- Whether the fuse program attempt n succeeds (R430: a fuse may fail to program). -/
opaque Config.fuseOk : Nat → Bool

/-- Structure and constants of the thermal model are the implementer's choice (R465): its estimate of a sensor point,
in 0.125 C, at the window with the given free index. -/
opaque Config.thermEstimate : Nat → Nat → Int

/-- The thermal model's upper bound for a sensor point 5 ms ahead, in 0.125 C (R465). -/
opaque Config.thermBound : Nat → Nat → Int

/-- The largest core limit, in W, under which the bound of each hot spot stays within the junction limit (R465). -/
opaque Config.thermLimit : Nat → Nat → Nat

/-- The rise of a compute hot spot that the model predicted for the window, in 0.125 C (R470). -/
opaque Config.thermRise : Nat → Nat → Int

/-- The estimate of a DRAM tile formed from its neighbours and its activity, in 0.125 C (R468). -/
opaque Config.tileEstimate : Nat → Nat → Int

/-- The default energy of a step kind, used when STEP_ENERGY is 0 (R153). -/
opaque Config.defaultEnergy : Nat → Nat

/-- What R214 leaves unstated: the quotient of two infinities, or of a number and a negative zero, in the output of an ATTEND. -/
opaque Config.attendQuotient : BitVec 32 → BitVec 32 → BitVec 32

/-- The device's own mesh route table when routers have failed: the entry of a router for a destination (R307, R308). -/
opaque Config.ownRoute : List Nat → Nat → Nat → Nat

/-- What a span port sends after its last flit in a beat, which the spec does not say: port, WBC, byte of the beat (R326; PRESUMED, log 96). -/
opaque Config.lineFiller : Nat → Nat → Nat → BitVec 8

/-- A filler symbol of a span port on 3 lanes: port, WBC, number (R325; PRESUMED, log 96). -/
opaque Config.fillerSymbol : Nat → Nat → Nat → Nat

/-- The last 58 bits that a span port sent before a beat, which come from a training and an idle line that the spec does not describe: port,
WBC (R324; PRESUMED, log 96). -/
opaque Config.scramblerState : Nat → Nat → Nat

/-- The state of the PRBS-31 generator of a qualifying port at a data slot: port, WBC, slot (R337; PRESUMED, log 96). -/
opaque Config.prbsState : Nat → Nat → Nat → Nat

end Sys2Proof
end

