-- ==== Sys2Proof/Syntax.lean ====
section
/-! DEFINITION. The commands of the block: one constructor of `Instr` for each row of spec/opcode_table.json, with the
row's operands, and the records that arrive on the device's links (R49, R59, R303, R327, R330, R344, R353, R357, R434). -/

namespace Sys2Proof

/-- A condition of the 54 V stage (R507). -/
inductive StageCond where
  | vinUvWarn | vinUvFault | vinOvWarn | vinOvFault | iinOcWarn | otWarn | otFault | voutUvFault
  deriving DecidableEq, Repr

/-- The registers whose low half latches a high half (R92). -/
inductive BeatCount where
  | wbc | sbc | holdAcc
  deriving DecidableEq, Repr

/-- A beat marker (R49) as it arrives, with the header fields that R343 checks and the phase that the receiver measures,
in 1/16 core cycle. -/
structure Marker where
  srcId : Nat
  srcInc : Nat
  term : Nat
  hop : Nat
  holdActive : Bool
  holdover : Bool
  masterId : Nat
  setGen : Nat
  wbc : Nat
  holdAcc : Nat
  phase : Int
  deriving DecidableEq, Repr

/-- A hold record: request, confirmation or release (R59). -/
structure HoldRec where
  cause : Nat
  reqSeq : Nat
  reqId : Nat
  reqInc : Nat
  term : Nat
  holdWbc : Nat
  holdLen : Nat
  ledgerIndex : Nat
  issueWbc : Nat
  deriving DecidableEq, Repr

/-- A ledger entry (R65, R393). -/
structure LedgerEntry where
  index : Nat
  holdWbc : Nat
  holdLen : Nat
  sbcAtHold : Nat
  leadId : Nat
  leadInc : Nat
  leadCause : Nat
  reqCount : Nat
  releaseWbc : Nat
  term : Nat
  deriving DecidableEq, Repr

/-- What the master holds of one device in a firmware distribution (R436, R437). -/
structure FwProgress where
  id : Nat
  fwState : Nat
  round : Nat
  missing : List Nat
  detail : Nat
  deriving DecidableEq, Repr

/-- The mirror of the master's state (R71). -/
structure MirrorData where
  wbc : Nat
  holdAcc : Nat
  term : Nat
  masterId : Nat
  ledger : List LedgerEntry
  routes : List Byte
  fwSession : Nat
  fwRound : Nat
  fwProgress : List FwProgress
  deriving DecidableEq, Repr

/-- An ADMIT record (R344). -/
structure AdmitRec where
  kind : Nat
  target : Nat
  newInc : Nat
  term : Nat
  admSeq : Nat
  effectWbc : Nat
  issueWbc : Nat
  deriving DecidableEq, Repr

/-- A LINK_HELLO (R330) with its arrival time in the receiver's cycle count. -/
structure Hello where
  port : Nat
  id : Nat
  inc : Nat
  oneWayValid : Bool
  oneWay : Nat
  txTime : Nat
  echoTime : Nat
  turnaround : Nat
  arrival : Nat
  deriving DecidableEq, Repr

/-- A firmware report (R434). -/
structure FwReport where
  kind : Nat
  id : Nat
  inc : Nat
  round : Nat
  session : Nat
  page : Nat
  missingTotal : Nat
  missingBits : BitVec 128
  deriving DecidableEq, Repr

/-- A span flit (R327); `uncorr` says that it overlaps an uncorrectable codeword, `corrected` how many bits FEC corrected (R328). -/
structure Flit where
  srcId : Nat
  srcInc : Nat
  cls : Nat
  dst : Nat
  mcast : Bool
  flow : Nat
  seq : Nat
  resv : Bool
  payload : List Byte
  crc : BitVec 32
  uncorr : Bool
  corrected : Nat
  deriving DecidableEq, Repr

/-- A mesh packet (R303); `spoiled` says that the entry of a router's storage that holds it fails its parity (R283). -/
structure Packet where
  kind : Nat
  cls : Nat
  layer : Bool
  dest : Nat
  destEp : Nat
  src : Nat
  srcEp : Nat
  srcInc : Nat
  status : Nat
  tag : Nat
  addr : Nat
  len : Nat
  aux : Nat
  payload : List Byte
  payCrc : BitVec 32
  hdrCrc : BitVec 32
  spoiled : Bool := false
  deriving DecidableEq, Repr

/-- Who asks a bank or a buffer (R280, R300: step, host, control complex, scrubber). -/
inductive Requester where
  | step (col : Nat) (index : Nat)
  | host
  | control
  | scrubber
  | migration
  deriving DecidableEq, Repr

/-- A request at a DRAM bank (R244): `addr` is the column offset in the site's DRAM; a write carries its bytes and
their mask, a read its length. -/
structure BankReq where
  site : Nat
  addr : Nat
  write : Bool
  len : Nat
  data : List Byte
  mask : List Bool
  who : Requester
  deriving DecidableEq, Repr

/-- Where physics strikes a lane instruction: the check of one lane of the unit, or the parity of a register entry that it reads (R283,
R478). -/
inductive Upset where
  | lane (l : Nat)
  | entry (e : Nat)
  deriving DecidableEq, Repr

/-- What a checker answered to a vector of its self-test (R287, R288): the outcome, 0 clean, 1 correctable, 2 uncorrectable, the positions
reported, the data and the check bytes. A vector for which no answer stands was answered as it should be. -/
structure CheckerAnswer where
  site : Site
  dram : Bool
  unit : Nat
  vector : Nat
  outcome : Nat
  positions : List Nat
  data : List Byte
  check : List Byte
  deriving DecidableEq, Repr

/-- The writer of a buffer line, in the priority order of R95 and R278. -/
inductive LineWriter where
  | drain | vector | channel | dma | writeBack
  deriving DecidableEq, Repr

/-- An operand with the core cycle of the beat in which its command comes. -/
structure Timed (α : Type) where
  val : α
  cyc : Nat
  deriving DecidableEq, Repr

/-- A feeder: the warp queue of a row, the weft queue of a DPU column, or the block-scale feeder of either side (R97, R100). -/
inductive FeederSide where
  | warp | weft | warpScale | weftScale
  deriving DecidableEq, Repr

/-- The reader of a buffer line (R95): a feeder's queue, the vertical channel, the DMA engine, the scrubber. -/
inductive LineReader where
  | feeder (side : FeederSide) (queue : Nat) | channel | dma | scrubber
  deriving DecidableEq, Repr

/-- A host flit (R353): sequence, kind, acknowledgement, credits, its units, whether a codeword was uncorrectable, and the values of its
reserved fields in order, which are 0 beyond the list's end: bits [15:14] of ACK, bytes 0x09 to 0x0F and bytes 0xF0 to 0xFB (R7). -/
structure HostFlit where
  seq : Nat
  kind : Nat
  ackSeq : Nat
  ackValid : Bool
  retryReq : Bool
  credit : List Nat
  units : List Byte
  crc : BitVec 32
  uncorr : Bool
  reserved : List Byte := []
  deriving DecidableEq, Repr

/-- An entry of the bad-unit map (R407): kind, site, index, and SOURCE bits FUSE, TEST, FIELD, THIS_START. -/
structure BadUnit where
  kind : Nat
  site : Nat
  index : Nat
  fuse : Bool
  test : Bool
  field : Bool
  thisStart : Bool
  deriving DecidableEq, Repr

/-- What physics supplies at a window boundary (R447, R462, R463): readings of the 330 sensors in 0.125 C, power of each
VCORE rail and of everything else in microwatts, per site the two results of the margin monitors, and an entry of the control complex's
storage whose parity fails as it does the window's work (R283, R492). -/
structure WindowMeasure where
  readings : List Nat
  vcoreUw : List Nat
  otherUw : Nat
  monitorFail : List Bool
  monitorEasy : List Bool
  spoiled : Option Nat := none
  deriving DecidableEq, Repr

/-- The commands: those with operands in the order of the table, then those without. -/
inductive Instr where
  | pwrEnRise (msSinceFall : Nat)
  | resetNFall (pulseNs : Nat)
  | vin54Lockout (millivolts : Nat)
  | stageStatusCondition (cond : StageCond) (holds : Bool)
  | pmbusTelemetryUpdate (vin iin vout iout temp pout pin : BitVec 16)
  | pmbusInvalidCommand (code : Byte)
  | windowBoundary (m : WindowMeasure)
  | beatMarker (port : Port) (m : Marker)
  | beatLoadCtrlWrite (value : W32)
  | beatCountLoRead (which : BeatCount)
  | holdRequest (port : Port) (r : HoldRec)
  | holdConfirmation (port : Port) (r : HoldRec)
  | holdRelease (port : Port) (r : HoldRec)
  | holdPointClose (w : Nat)
  | holdPointStart (w : Nat)
  | confirmMissing (w : Nat)
  | mirror (m : MirrorData)
  | partitionStart (q : Part)
  | imageRunRepeat (q : Part)
  | imageFinish (q : Part)
  | stepDescriptorFetch (col : Col)
  | matmul (col : Col) (cyc : Nat)
  | attend (col : Col) (cyc : Nat)
  | lane (col : Col) (cyc : Nat)
  | dmaMove (col : Col) (cyc : Nat)
  | dmaGather (col : Col) (cyc : Nat)
  | dmaScatter (col : Col) (cyc : Nat)
  | spanSend (col : Col) (cyc : Nat)
  | spanRecv (col : Col) (cyc : Nat)
  | reduce (col : Col) (cyc : Nat)
  | rowop (col : Col) (cyc : Nat)
  | sketch (col : Col) (cyc : Nat)
  | wait (col : Col) (cyc : Nat)
  | hint (col : Col) (cyc : Nat)
  | append (col : Col) (cyc : Nat)
  | stepEnd (col : Col) (index : Nat) (cyc : Nat)
  | flowLastBeatExpiry (col : Col) (index : Nat) (cyc : Nat)
  | stepComplete (col : Col) (index : Nat) (cyc : Nat)
  | stepStatusRecord (parityError : Option Site)
  | faultRecord (parityError : Option Site)
  | feederLineRequest (col : Col) (side : FeederSide) (queue : Timed Nat)
  | bufferBankReadGrant (col : Col) (bank : Timed Nat) (upset : List Nat)
  | bufferLineWrite (col : Col) (writer : LineWriter) (addr : Timed Nat) (data : List Byte) (mask : List Bool)
  | bufferWriteBack (col : Col)
  | tileDrain (col : Col) (upset : List (Nat × Nat × W32)) (cyc : Nat)
  | drainRowEnterStream (col : Col) (cyc : Nat)
  | arrayCheckCompare (col : Col) (cyc : Nat)
  | replayReissue (col : Col) (spoiled : Timed (Option Nat))
  | replayEnd (col : Col) (cyc : Nat)
  | laneHalt (col : Col) (upset : Bool) (cyc : Nat)
  | laneLoop (col : Col) (upset : Bool) (cyc : Nat)
  | laneSeta (col : Col) (upset : Bool) (cyc : Nat)
  | laneAdda (col : Col) (upset : Bool) (cyc : Nat)
  | laneLd (col : Col) (upset : Option Upset) (cyc : Nat)
  | laneSt (col : Col) (upset : Option Upset) (cyc : Nat)
  | laneIn (col : Col) (upset : Bool) (cyc : Nat)
  | laneSplat (col : Col) (upset : Option Upset) (cyc : Nat)
  | laneAdd (col : Col) (upset : Option Upset) (cyc : Nat)
  | laneSub (col : Col) (upset : Option Upset) (cyc : Nat)
  | laneMul (col : Col) (upset : Option Upset) (cyc : Nat)
  | laneFma (col : Col) (upset : Option Upset) (cyc : Nat)
  | laneMax (col : Col) (upset : Option Upset) (cyc : Nat)
  | laneMin (col : Col) (upset : Option Upset) (cyc : Nat)
  | laneAbs (col : Col) (upset : Option Upset) (cyc : Nat)
  | laneNeg (col : Col) (upset : Option Upset) (cyc : Nat)
  | laneScale (col : Col) (upset : Option Upset) (cyc : Nat)
  | laneCmpgt (col : Col) (upset : Option Upset) (cyc : Nat)
  | laneSel (col : Col) (upset : Option Upset) (cyc : Nat)
  | laneExp2 (col : Col) (upset : Option Upset) (cyc : Nat)
  | laneLog2 (col : Col) (upset : Option Upset) (cyc : Nat)
  | laneRcp (col : Col) (upset : Option Upset) (cyc : Nat)
  | laneRsq (col : Col) (upset : Option Upset) (cyc : Nat)
  | laneRsum (col : Col) (upset : Option Upset) (cyc : Nat)
  | laneRmax (col : Col) (upset : Option Upset) (cyc : Nat)
  | rowAnd (site : Site) (tile : Layer) (bank : Fin 32) (cyc : Nat)
  | rowOr (site : Site) (tile : Layer) (bank : Fin 32) (cyc : Nat)
  | rowXor (site : Site) (tile : Layer) (bank : Fin 32) (cyc : Nat)
  | rowXnor (site : Site) (tile : Layer) (bank : Fin 32) (cyc : Nat)
  | rowNot (site : Site) (tile : Layer) (bank : Fin 32) (cyc : Nat)
  | rowMaj3 (site : Site) (tile : Layer) (bank : Fin 32) (cyc : Nat)
  | rowCopy (site : Site) (tile : Layer) (bank : Fin 32) (cyc : Nat)
  | rowZero (site : Site) (tile : Layer) (bank : Fin 32) (cyc : Nat)
  | rowOnes (site : Site) (tile : Layer) (bank : Fin 32) (cyc : Nat)
  | rowNand (site : Site) (tile : Layer) (bank : Fin 32) (cyc : Nat)
  | rowNor (site : Site) (tile : Layer) (bank : Fin 32) (cyc : Nat)
  | rowAndn (site : Site) (tile : Layer) (bank : Fin 32) (cyc : Nat)
  | rowOrn (site : Site) (tile : Layer) (bank : Fin 32) (cyc : Nat)
  | rowAnd3 (site : Site) (tile : Layer) (bank : Fin 32) (cyc : Nat)
  | rowOr3 (site : Site) (tile : Layer) (bank : Fin 32) (cyc : Nat)
  | rowXor3 (site : Site) (tile : Layer) (bank : Fin 32) (cyc : Nat)
  | rowMux (site : Site) (tile : Layer) (bank : Fin 32) (cyc : Nat)
  | rowFullAdd (site : Site) (tile : Layer) (bank : Fin 32) (cyc : Nat)
  | rowOpThrottleRelease (layer : Layer) (cyc : Nat)
  | bankBusTransferDone (site : Site) (tile : Layer) (cyc : Nat)
  | bankRequestArrive (r : BankReq) (upset : List Nat) (cyc : Nat)
  | bankRequestAfterRowOp (site : Site) (tile : Layer) (bank : Fin 32) (cyc : Nat)
  | bankRefresh (layer : Layer) (bank : Fin 32) (cyc : Nat)
  | granuleEncodeDone (col : Col) (granule : Nat)
  | patrolRowDue (site : Site) (tile : Layer) (bank : Fin 32)
  | patrolRowPresent (site : Site) (tile : Layer) (bank : Fin 32) (upset : List (Nat × Nat)) (cyc : Nat)
  | idleScrubRead (site : Site) (bank : Fin 64) (upset : List Nat)
  | bufferLapAlarm (site : Site)
  | preparationBegin (col : Col)
  | preparationDone (col : Col)
  | pageDescriptor (col : Col) (parityError : Option Site)
  | attendPageWindow (col : Col) (upset : List (Nat × Nat × Nat × W32)) (cyc : Nat)
  | migrationBlockCopy (faulty : Bool)
  | meshRead (router : Site) (p : Packet)
  | meshWrite (router : Site) (p : Packet)
  | meshReadData (router : Site) (p : Packet)
  | meshWriteAck (router : Site) (p : Packet)
  | meshSpanIn (router : Site) (p : Packet)
  | meshSpanOut (router : Site) (p : Packet)
  | meshError (router : Site) (p : Packet)
  | meshRequestTimeout (tag : Nat)
  | vcLineRetransfer (site : Site) (line : Nat) (tile : Nat) (second : Bool) (who : Requester)
  | fenceOrder (site : Site) (parityError : Option Site)
  | shuttleCtrlTimeout (node : Nat)
  | dataFlit (port : Port) (f : Flit)
  | spanFlitRead (col : Col) (flow : Nat)
  | mgmtFlit (port : Port) (f : Flit)
  | holdIdleFlit (port : Port) (f : Flit)
  | linkHello (port : Port) (h : Hello)
  | laneState (port : Port) (mask : Nat) (switchWbc : Nat)
  | admitRecord (port : Port) (r : AdmitRec)
  | firmwareReport (port : Port) (r : FwReport)
  | spanPortRetrain (port : Port) (value : W32)
  | spanPortUseClear (port : Port) (value : W32)
  | trainingLock (port : Port) (lanes : Nat)
  | trainingTimeout (port : Port)
  | qualificationEnd (port : Port) (passed : Nat)
  | laneFailure (port : Port) (lane : Fin 4)
  | laneSwitch (port : Port)
  | codewordLockLoss (port : Port)
  | holdIdleTimeout (port : Port)
  | spanSelfWrite (value : W32)
  | halfTrained (h : Half)
  | hostFlit (h : Half) (f : HostFlit)
  | hostFlitResend (h : Half)
  | halfNoProgress (h : Half)
  | rdShared (h : Half) (tag : Nat) (addr : Nat)
  | rdOwn (h : Half) (tag : Nat) (addr : Nat)
  | rdUc (h : Half) (tag : Nat) (addr : Nat) (len : Nat)
  | wrUc (h : Half) (tag : Nat) (addr : Nat) (data : List Byte) (mask : List Bool)
  | wbDirty (h : Half) (tag : Nat) (addr : Nat) (data : List Byte)
  | evictClean (h : Half) (tag : Nat) (addr : Nat)
  | snpRsp (h : Half) (tag : Nat) (addr : Nat) (state : Nat) (data : Option (List Byte))
  | hdata (tag : Nat) (data : List Byte)
  | hack (tag : Nat)
  | herr (tag : Nat) (status : Nat)
  | halfState (bits : BitVec 2)
  | homeTransactionResume (line : Nat)
  | snoopTimeout (line : Nat)
  | commandDone (mb : Mbx)
  | commandUnknown (mb : Mbx)
  | hlEvtConsumerWrite (value : W32)
  | hlStsConsumerWrite (q : Part) (value : W32)
  | bootInfo (mb : Mbx)
  | bootResourceMap (mb : Mbx)
  | bootDefects (mb : Mbx)
  | bootCores (mb : Mbx)
  | bootResetColumn (mb : Mbx)
  | bootResetCluster (mb : Mbx)
  | bootResetPartition (mb : Mbx)
  | bootResetFabric (mb : Mbx)
  | bootResetDevice (mb : Mbx)
  | cfgWrite (mb : Mbx)
  | cfgRead (mb : Mbx)
  | cfgSwap (mb : Mbx)
  | cfgSwapImmediate (mb : Mbx)
  | cfgSwapCancel (mb : Mbx)
  | schedLoad (mb : Mbx)
  | schedUnload (mb : Mbx)
  | schedStart (mb : Mbx)
  | schedStop (mb : Mbx)
  | schedDrain (mb : Mbx)
  | memCopy (mb : Mbx)
  | memFill (mb : Mbx)
  | memMigrate (mb : Mbx)
  | kvWrite (mb : Mbx)
  | kvBind (mb : Mbx)
  | kvRelease (mb : Mbx)
  | kvFree (mb : Mbx)
  | kvStatus (mb : Mbx)
  | pwrGrant (mb : Mbx)
  | pwrEnv (mb : Mbx)
  | pwrHint (mb : Mbx)
  | pwrCoolantStay (mb : Mbx)
  | pwrCoolantResume (mb : Mbx)
  | pwrCoolantStop (mb : Mbx)
  | faultRing (mb : Mbx)
  | faultFence (mb : Mbx)
  | faultAdmit (mb : Mbx)
  | fwSend (mb : Mbx)
  | fwStatus (mb : Mbx)
  | fwIdentity (mb : Mbx)
  | fwAttest (mb : Mbx) (readBack : List Bool)
  | spanPlace (mb : Mbx)
  | spanRole (mb : Mbx)
  | spanBeatLoad (mb : Mbx)
  | spanAdmit (mb : Mbx)
  | spanDismiss (mb : Mbx)
  | spanHold (mb : Mbx)
  | spanRelease (mb : Mbx)
  | spanLedger (mb : Mbx)
  | spanRoutes (mb : Mbx)
  | selftestComplete (found : List BadUnit) (baseFailed : Bool)
  | dramInitComplete (found : List BadUnit)
  | memoryFillComplete (beats : Nat) (expired : Bool)
  | checkerComplete (answers : List CheckerAnswer)
  | fwPiece (port : Port) (f : Flit)
  | endMarker (port : Port) (f : Flit)
  | coreWaveTestDone (failed : List Site) (found : List BadUnit)
  | columnSegmentPiece (site : Site) (piece : Nat) (session : Nat) (data : List Byte) (parityError : Option Site)
  | columnSegmentDeliveryEnd (site : Site)
  | columnResetEnd (testFailed : Bool)
  | clusterResetEnd (testFailed : Bool)
  | disableComplete (q : Part)
  | bubbleLoopPeriod (powerUw : List Nat) (cyc : Nat)
  | droopTrip (site : Site) (cyc : Nat)
  | heavyPhaseStart (col : Col) (index : Nat)
  | heavyPhaseEnd (col : Col) (index : Nat)
  | thermalTrip (sensor : Nat)
  | memMapCtrlWrite (value : W32)
  | dpInjCtrlWrite (value : W32)
  | seqCountsWrite (site : Site) (value : W32)
  | arrayCountCtrlClear (site : Site) (value : W32)
  | rlCountCtrlClear (value : W32)
  | nocCountCtrlClear (value : W32)
  | spanCountCtrlClear (value : W32)
  | pwrCountCtrlClear (value : W32)
  | seCountCtrlClear (value : W32)
  | registerWrite (addr : Nat) (value : W32)
  | halfLaneFailure (h : Half) (lane : Fin 4)
  | railsInRegulation
  | pwrEnFall
  | resetNRise
  | baseOnReached
  | vin54Start
  | spanRefclkLoss
  | clearFaults
  | capability
  | voutMode
  | statusByte
  | statusWord
  | statusVout
  | statusIout
  | statusInput
  | statusTemperature
  | statusCml
  | readVin
  | readIin
  | readVout
  | readIout
  | readTemperature1
  | readPout
  | readPin
  | pmbusRevision
  | mfrId
  | mfrModel
  | mfrSerial
  | beatBoundary
  | epochBoundary
  | memberAligned
  | markersMissing
  | holdoverExpiry
  | phaseErrorExcess
  | beatLoadEffect
  | standbyMarkersMissing
  | standbyTakeover
  | configurationSwap
  | kvDeferredCommand
  | migrationSwitch
  | migrationOldSiteIdle
  | backInvalidationDone
  | admitIncarnationWrite
  | fenceLift
  | admitEffect
  | mailboxTake
  | eventRingFlush
  | selftest
  | dramInit
  | fill
  | checker
  | fwLoad
  | fwLoadComplete
  | fwReceive
  | fwReportWindowClose
  | fwEndMarkerTimeout
  | fwReceiveTimeout
  | fwObjectCheckDone
  | lowerTreeComputed
  | coreWaveRamp
  | partitionResetEnd
  | fabricResetEnd
  | bootRomRestart
  | grantTimeout
  | envStaleTimeout
  | baseDieResetRelease
  | pwrEnDeferredStart
  | vin54OvervoltageRestart
  deriving DecidableEq, Repr

end Sys2Proof
end

