-- ==== Sys2Proof/Decode.lean ====
section
/-! DEFINITION. The decoder. No row of spec/opcode_table.json has bits: the commands of this block come from outside (R2), not
from words, so no word spells one. -/

namespace Sys2Proof

/-- The command that a word spells by the table's bits: none, since no row of the table has bits. -/
def decodeTableWord (_nbits _w : Nat) : Option Instr := none

end Sys2Proof
end

