-- ==== Sys2Proof/Machine/State.lean ====
section
/-! DEFINITION. The state of the block: every register, queue, buffer, counter, mode and pin that the spec gives the
Q72, as plain data. Counts that the spec says do not wrap in service are Nat (R44); saturating counters are Nat, saturated by
the operation that counts. The default of every field is its value in `State.reset`. INVENTORY.md lists each with its rule. -/

namespace Sys2Proof.Machine

/-- The power states of R395, in the order of their codes. -/
inductive PowerState where
  | off | baseOn | memReady | fwLoaded | linksQualified | coresUp | ready | running | held | faultStop
  deriving DecidableEq, Repr

/-- The partition states of R396. -/
inductive PartState where
  | idle | running | held | faultStop
  deriving DecidableEq, Repr

/-- A disable in progress (R420, R421): by DRAIN from a beat on, by CUT, or by the CUT of a partition reset. -/
inductive Disabling where
  | no | drain (since : Nat) | cut | cutForReset
  deriving DecidableEq, Repr

/-- The beat roles of R48, in the order of BEAT_ROLE. -/
inductive Role where
  | lone | member | master | standby
  deriving DecidableEq, Repr

/-- The port states of R334, in the order of their codes. -/
inductive PortState where
  | down | training | measuring | qualifying | ready | degraded | paused | lost | misplaced
  deriving DecidableEq, Repr

/-- Pins and the 54 V stage (R36 to R40, R501, R503, R507). -/
structure Module where
  vinOk : Bool := true
  ovStop : Bool := false
  pwrEn : Bool := true
  pwrEnDeferred : Bool := false
  resetN : Bool := true
  pwrgood : Bool := true
  refclk : Bool := true
  stageOn : Bool := true
  tripLatched : Bool := false
  fusesRead : Bool := true
  statVout : BitVec 8 := 0
  statIout : BitVec 8 := 0
  statInput : BitVec 8 := 0
  statTemp : BitVec 8 := 0
  statCml : BitVec 8 := 0
  liveConds : List StageCond := []
  telVin : BitVec 16 := 0
  telIin : BitVec 16 := 0
  telVout : BitVec 16 := 0
  telIout : BitVec 16 := 0
  telTemp : BitVec 16 := 0
  telPout : BitVec 16 := 0
  telPin : BitVec 16 := 0
  pmbusResp : List Byte := []
  deriving DecidableEq, Repr

/-- A change of a memory: one byte stored, or a stretch that becomes unlisted (reads as zero) again. -/
inductive MemOp where
  | put (key : Nat) (b : Byte)
  | zero (lo : Nat) (len : Nat)
  deriving DecidableEq, Repr

/-- The boot block (R424) and the bring-up state behind it; `busyStep` is the boot step that runs, 0 for none (R401). -/
structure Boot where
  power : PowerState := .baseOn
  warmOk : Bool := false
  warmStart : Bool := false
  fatal : Bool := false
  parts : List PartState := [.idle, .idle, .idle, .idle]
  disabling : List Disabling := [.no, .no, .no, .no]
  disDiscards : List Nat := [0, 0, 0, 0]
  ctrlStep : Nat := 0
  ctrlWarm : Bool := false
  stepCode : Nat := 0
  stepResult : Nat := 0
  stepError : Nat := 0
  busyStep : Nat := 0
  lastDone : Nat := 0
  reachedMem : Bool := false
  selfRefresh : Bool := false
  defectAddr : Nat := 0
  defectLen : Nat := 0
  mapAddr : Nat := 0
  mapLen : Nat := 0
  manAddr : Nat := 0
  manLen : Nat := 0
  imgAddr : Nat := 0
  imgLen : Nat := 0
  coreOk : List Nat := []
  memOk : List Nat := []
  wave : Nat := 0
  wavesBusy : Bool := false
  wavesAt : Nat := 0
  ramped : Bool := false
  powered : List Nat := []
  rstLevel : Nat := 0
  rstBusy : Bool := false
  rstTarget : Nat := 0
  rstSites : List Nat := []
  rstTest : Bool := false
  rstCount : Nat := 0
  rstDiscards : Nat := 0
  cleanSites : List Nat := []
  discards : Nat := 0
  badUnits : List BadUnit := []
  storedDefects : Option (List BadUnit) := none
  colFailed : List Nat := []
  provSpares : List Nat := []
  passedSpares : List Nat := []
  unassigned : List Nat := []
  mapFinal : Bool := false
  mapDigest : List Byte := []
  deriving DecidableEq, Repr

/-- An entry of the column map (R228, R253, R321). -/
structure ColEntry where
  site : Nat := 0
  incarnation : Nat := 0
  valid : Bool := false
  migrating : Bool := false
  deriving DecidableEq, Repr

/-- A migration (R249 to R253): `next` is the number of blocks copied, `oldOpen` that the old site is still mirrored. -/
structure Migration where
  state : Nat := 0
  col : Nat := 0
  fromSite : Nat := 0
  toSite : Nat := 0
  granules : Nat := 0
  next : Nat := 0
  lost : Bool := false
  poisoned : Bool := false
  poisonCount : Nat := 0
  mirroring : Bool := false
  deriving DecidableEq, Repr

/-- The memory-map registers (R253). -/
structure MemMap where
  n : Nat := 0
  spare0 : Nat := 31
  spare1 : Nat := 31
  cols : List ColEntry := []
  maint : Bool := false
  maintRefused : Bool := false
  errAddr : Nat := 0
  errCause : Nat := 0
  errSource : Nat := 0
  errWrite : Bool := false
  errValid : Bool := false
  errCount : Nat := 0
  mig : Migration := {}
  badMem : List Nat := []
  deriving DecidableEq, Repr

/-- A row operation waiting at its bank (R254, R255, R260): rows are column offsets of row starts; phase 0 is an
operation within one bank or the latch of a cross-bank copy, phase 1 the write of a cross-bank copy, phase 2 an operation of a
SKETCH or of a page copy whose rows have been written and that waits for its tokens (R210, R222, R271). `rep` is the repetition of
the ROWOP that it belongs to (R262). -/
structure RowOp where
  op : Nat
  compound : Nat
  dst : Nat
  a : Nat
  b : Nat
  c : Nat
  cost : Nat
  dur : Nat
  who : Requester
  cross : Bool
  phase : Nat
  latched : List Byte
  arrivedAt : Nat
  waiting : Bool
  copyCheck : Bool
  rep : Nat := 0
  deriving DecidableEq, Repr

/-- A request that waits at its bank (R244, R264). A later request performs it first, so that the bank keeps the order of arrival: its
`outcome` is then its data, or none where it met uncorrectable data (R280). -/
structure BankWait where
  req : BankReq
  outcome : Option (Option (List Byte)) := none
  deriving DecidableEq, Repr

/-- A DRAM bank (R234, R244, R264, R269, R290 to R294): what occupies it began at `busySince` and ends at `busyUntil`; `ahead` holds the
occupancies of row operations of a SKETCH or of a page copy, first and last cycle, that are still to come. -/
structure Bank where
  openRow : Option Nat := none
  busySince : Nat := 0
  busyUntil : Nat := 0
  ahead : List (Nat × Nat) := []
  waiting : List BankWait := []
  rowOps : List RowOp := []
  patrolRow : Nat := 0
  patrolDue : Option Nat := none
  patrolLast : Nat := 0
  patrolLaps : Nat := 0
  ceCount : Nat := 0
  reported : Bool := false
  refreshRow : Nat := 0
  refreshUntil : Nat := 0
  deriving DecidableEq, Repr

/-- A memory layer: throttle tokens and activity (R270 to R272). -/
structure LayerState where
  tokens : Nat := 8589934592
  actWindow : Nat := 0
  actLast : Nat := 0
  dbl : Bool := false
  causeTemp : Bool := false
  causeActivity : Bool := false
  causeModel : Bool := false
  halved : Bool := false
  noTokens : Bool := false
  dirtyWindow : Bool := false
  deriving DecidableEq, Repr

/-- A location record of R300. -/
structure Loc where
  place : Nat := 0
  unc : Bool := false
  source : Nat := 0
  valid : Bool := false
  deriving DecidableEq, Repr

/-- Stored-data protection of one site (R300) and its idle scrubber (R295). -/
structure SiteProt where
  ce : Nat := 0
  ue : Nat := 0
  suppressed : Nat := 0
  loc : Loc := {}
  bufCe : Nat := 0
  bufUe : Nat := 0
  bufLoc : Loc := {}
  scrubLap : Nat := 0
  scrubLaps : Nat := 0
  recsInWindow : Nat := 0
  withheld : Nat := 0
  scrubPtrs : List Nat := []
  scrubBeat : List Nat := []
  lapStart : Nat := 0
  lapAlarmed : Bool := false
  scrubPaused : Bool := false
  deriving DecidableEq, Repr

/-- A buffer line waiting for its write-back (R278). -/
structure WriteBack where
  site : Nat
  line : Nat
  deriving DecidableEq, Repr

/-- Stored-data protection and row logic (R272, R300). Errors: byte positions per DRAM block (an
injected one as position + 128), bit positions per buffer word. -/
structure Prot where
  fillDone : Bool := false
  selfDone : Bool := false
  selfFail : Bool := false
  selfSites : List Nat := []
  fillBeats : Nat := 0
  injAddr : Nat := 0
  injCount : Nat := 0
  injArm : Bool := false
  injDone : Bool := false
  injCancelled : Bool := false
  sites : List SiteProt := []
  dramErr : List (Nat × List Nat) := []
  bufErr : List (Nat × List Nat) := []
  writeBacks : List WriteBack := []
  banks : List (Nat × Bank) := []
  layers : List LayerState := []
  rlRefused : Nat := 0
  rlThrottleWait : Nat := 0
  rlBusCopies : Nat := 0
  rlReqWaits : Nat := 0
  busCopies : List (Nat × RowOp) := []
  encoding : List (Nat × Nat) := []
  encoded : List (Nat × Nat) := []
  bankReads : List (Requester × Nat × List Byte) := []
  deriving DecidableEq, Repr

/-- A request held for a hold point (R62). -/
structure HoldReq where
  id : Nat
  inc : Nat
  seq : Nat
  len : Nat
  cause : Nat
  deriving DecidableEq, Repr

/-- A hold point (R58, R62, R63, R66, R67): `len` is the combined length once closed, 0 meaning open. -/
structure HoldPoint where
  w : Nat
  reqs : List HoldReq := []
  closed : Bool := false
  len : Nat := 0
  started : Bool := false
  confirmed : Bool := false
  missing : Bool := false
  release : Option Nat := none
  index : Option Nat := none
  deriving DecidableEq, Repr

/-- The beat unit (R44 to R92). -/
structure Beat where
  wbc : Nat := 0
  holdAcc : Nat := 0
  role : Role := .lone
  term : Nat := 0
  masterId : Nat := 0
  aligned : Bool := false
  holdover : Bool := false
  holdEpochs : Nat := 0
  holdActive : Bool := false
  takeover : Bool := false
  alignLost : Bool := false
  lossNow : Bool := false
  ledgerMismatch : Bool := false
  holdLate : Bool := false
  confirmMissing : Bool := false
  setMismatch : Bool := false
  upstream : Nat := 15
  phase : Int := 0
  phaseErr : Int := 0
  matched : Nat := 0
  phaseBad : Nat := 0
  hop : Nat := 0
  lastMarker : Option Nat := none
  lastStandbyMarker : Option Nat := none
  lastAcc : Nat := 0
  lastD : Nat := 0
  lastMarkWbc : Nat := 0
  latchWbc : Nat := 0
  latchSbc : Nat := 0
  latchAcc : Nat := 0
  holdsIssued : Nat := 0
  loadLo : Nat := 0
  loadHi : Nat := 0
  loadPending : Option Nat := none
  loadAt : Nat := 0
  loadRefused : Bool := false
  points : List HoldPoint := []
  recent : List (Nat × Nat × Nat × Nat × Nat) := []
  ledger : List LedgerEntry := []
  ledgerNext : Nat := 0
  reqSeq : Nat := 0
  admSeq : Nat := 0
  mirror : Option MirrorData := none
  mirrorOut : Option MirrorData := none
  genHistory : List (Nat × Nat) := []
  clockStopped : Bool := false
  deriving DecidableEq, Repr

/-- A pending swap (R86 to R88, R240): its SBC, or none for an immediate one, the granules whose back-invalidation must
finish first, the wall beat of its acceptance or, when later, of the end of that back-invalidation, and that of its acceptance. -/
structure SwapPending where
  sbc : Option Nat
  backInv : List Nat
  since : Nat := 0
  accepted : Nat := 0
  deriving DecidableEq, Repr

/-- A section of a schedule image (R77). -/
structure ImgSection where
  type : Nat
  index : Nat
  offset : Nat
  length : Nat
  deriving DecidableEq, Repr

/-- A loaded image (R76, R80). -/
structure Image where
  addr : Nat
  part : Nat
  shadow : Bool
  size : Nat
  rep : Bool
  device : Nat
  columns : List Nat
  ports : List Nat
  ports3 : List Nat
  startSbc : Nat
  length : Nat
  holdProp : Nat
  fillB : List Nat
  drainB : List Nat
  digest : List Byte
  sections : List ImgSection
  latencyBad : Bool
  deriving DecidableEq, Repr

/-- What a partition runs (R46, R78): the image, the beat of its beat 0 in SBC, its run number. -/
structure PartRun where
  image : Option Nat := none
  start : Nat := 0
  run : Nat := 0
  startPending : Bool := false
  deriving DecidableEq, Repr

/-- A status ring in host memory (R377). -/
structure StsRing where
  addr : Nat := 0
  records : Nat := 0
  produced : Nat := 0
  acked : Nat := 0
  dropped : Nat := 0
  consumer : Nat := 0
  deriving DecidableEq, Repr

/-- Configuration sets and schedule. `bank` is the store bank (0 or 1) that holds the active set (R82, R86). -/
structure Sched where
  bank : Nat := 0
  haveActive : Bool := false
  swap : Option SwapPending := none
  images : List Image := []
  runs : List PartRun := [{}, {}, {}, {}]
  rings : List StsRing := [{}, {}, {}, {}]
  deriving DecidableEq, Repr

/-- A page descriptor of the walker (R205). -/
structure PageDesc where
  kind : Nat
  source : Nat
  fill : Nat
  page : Nat
  kPart : Nat
  vPart : Nat
  smPart : Nat
  frame : Nat
  deriving DecidableEq, Repr

/-- A position that an APPEND stores: head index, position index, slot, entry address, frame, sketch-list entry (R219, R220). -/
structure AppendPos where
  head : Nat
  pos : Nat
  slot : Nat
  entry : Nat
  frame : Nat
  sketch : Nat
  deriving DecidableEq, Repr

/-- A preparation (R201), in progress or finished, until its step issues: what it found
(a walk error of R204, or a bus error), the descriptors of an ATTEND or the positions of an APPEND. -/
structure Prep where
  index : Nat
  run : Nat
  op : Nat
  seq : Nat
  finished : Bool
  walkErr : Nat
  busErr : Bool
  vCode : Nat
  descs : List PageDesc
  plan : List AppendPos
  deriving DecidableEq, Repr

/-- A write entry of the sluice (R482, R484): up to 256 bytes of one line of a device address, by their mask, for a row
or element of the step. -/
structure HeldWrite where
  addr : Nat
  row : Nat
  data : List Byte
  mask : List Bool
  deriving DecidableEq, Repr

/-- The replay retention of a step (R183). Ranges are device addresses, first and last byte. -/
structure Retention where
  ranges : List (Nat × Nat) := []
  acc : Option (List F32) := none
  accCheck : Option (List F32 × List F32 × F32 × Bool) := none
  live : Bool := false
  disabled : Bool := false
  deriving DecidableEq, Repr

/-- A line that a feeder has asked for: its queue, its place among the queue's lines of the step, the cycle of its grant (R97). -/
structure FeedLine where
  side : FeederSide
  queue : Nat
  n : Nat
  granted : Option Nat
  deriving DecidableEq, Repr

/-- A step in flight or retained, with the image that it belongs to (R89, R96, R97, R101, R146, R150 to R152, R157, R183, R185).
Of a MATMUL, `feeds` are the operand ranges as buffer offsets, `overwrites` the bytes of them that writes have replaced since the issue,
each with the array cycle of the write, `stale` says that results are to be formed anew, `fed` is the array cycle up to which its
reads have passed the checker, and `flagsDue` are the flags still to be formed, by array cycle. -/
structure StepRun where
  index : Nat
  run : Nat
  desc : List Byte
  op : Nat
  issueSbc : Nat
  issueAt : Nat
  firstIssue : Nat
  nominalEnd : Nat
  release : List (Nat × Nat)
  endAt : Option Nat := none
  done : Bool := false
  outcome : Option Nat := none
  flags : Nat := 0
  violation : Bool := false
  limitSkip : Bool := false
  checkSkipped : Bool := false
  late : Bool := false
  replays : Nat := 0
  count : Nat := 0
  held : List HeldWrite := []
  checksDue : Nat := 0
  lengthen : Nat := 0
  tail : Nat := 0
  displaced : Nat := 0
  droopCycles : Nat := 0
  bubbleCycles : Nat := 0
  nextWork : Nat := 0
  rowNext : Nat := 0
  rowReady : Nat := 0
  rowLast : Nat := 0
  img : Option Image := none
  feeds : List (Nat × Nat) := []
  overwrites : List (Nat × Nat × List Byte) := []
  stale : Bool := false
  fed : Nat := 0
  lines : List FeedLine := []
  flagsDue : List (Nat × Nat) := []
  inbox : List (Nat × List Byte) := []
  waitPrep : Bool := false
  pages : List PageDesc := []
  vCode : Nat := 0
  plan : List AppendPos := []
  ret : Retention := {}
  laterUses : Nat := 0
  member : Bool := false
  deriving DecidableEq, Repr

/-- A completed tile on its way through the drain path (R106, R107, R114): the 4,096 values, the check row, the check
column, the corner and whether a product was too large (R116). -/
structure Tile where
  index : Nat
  u : Nat
  v : Nat
  t : Nat
  c : List F32
  k : List F32
  l : List F32
  g : F32
  range : Bool
  deriving DecidableEq, Repr

/-- A tile in the drain path (R104, R107): the tile, what strikes it, the cycles at which its 64 rows reach the converter or the vector
unit, and the next row. -/
structure Drain where
  tile : Tile
  strikes : List (Nat × Nat × W32)
  rows : List Nat
  next : Nat
  deriving DecidableEq, Repr

/-- The vector unit (R166), with the cycle from which its program runs (R162, R217). Registers not listed hold zero in every lane. -/
structure VecUnit where
  step : Option Nat := none
  startAt : Nat := 0
  pc : Nat := 0
  prog : List (BitVec 64) := []
  v : List (Nat × List F32) := []
  a : List Nat := [0, 0, 0, 0, 0, 0, 0, 0]
  loops : List (Nat × Nat × Nat) := []
  stOrd : Nat := 0
  stream : List (List F32) := []
  toCome : Nat := 0
  halted : Bool := false
  cycles : Nat := 0
  deriving DecidableEq, Repr

/-- The running values of an ATTEND (R213). -/
structure AttendState where
  step : Nat
  next : Nat
  m : List F32
  l : List F32
  o : List (List F32)
  deriving DecidableEq, Repr

/-- An armed flow, with the beat in which its last flit was sent or placed (R157, R179, R181). -/
structure FlowArm where
  flow : Nat
  send : Bool
  index : Nat
  addr : Nat
  flits : Nat
  placed : List Nat
  lastBeat : Nat
  reduce : Bool
  sent : Nat
  lastAt : Nat := 0
  deriving DecidableEq, Repr

/-- A replay in progress (R487): fault cycle, members by step index with their offsets, attempts begun. -/
structure Replay where
  faultAt : Nat
  p : Nat
  members : List (Nat × Nat)
  attempt : Nat
  reissued : List Nat
  failed : Bool
  cls : Nat
  location : Nat
  detail : Nat
  count : Nat
  residual : F32
  deriving DecidableEq, Repr

/-- The core of a site (R93): sequencer, array, feeders, vector unit, sluice, replay. `now` is the cycle up to which its array and drain path
have advanced; `bankReads` are the banks that have served a read in a cycle, `lineWrites` the writers and banks of the line writes that
the crossbar has accepted in a cycle (R95). -/
structure Core where
  now : Nat := 0
  logical : Nat := 0
  mapped : Bool := false
  bad : Bool := false
  fillLat : Nat := 0
  drainLat : Nat := 0
  spareStage : Nat := 0
  sparesUsed : Nat := 0
  repairDone : Bool := false
  badRow0 : Nat := 255
  badRow1 : Nat := 255
  spare64 : Bool := false
  spare65 : Bool := false
  chkRowBad : Bool := false
  chkColBad : Bool := false
  dpuBad : Bool := false
  skew : List Nat := List.range 64
  reed : List Nat := List.replicate 64 2
  checkCount : Nat := 0
  checkFail : Nat := 0
  checkSkipped : Nat := 0
  feedStall : Nat := 0
  drainStall : Nat := 0
  flags : Nat := 0
  seqState : Nat := 0
  lastStep : Nat := 0
  missed : Nat := 0
  retViol : Nat := 0
  nextIndex : Nat := 0
  epoch : Nat := 0
  nextRun : Nat := 0
  fetched : List (Nat × List Byte) := []
  steps : List StepRun := []
  acc : List F32 := []
  accK : List F32 := []
  accL : List F32 := []
  accG : F32 := 0
  accRange : Bool := false
  accKept : Bool := false
  tiles : List Tile := []
  draining : List Drain := []
  drained : List Tile := []
  lastDrain : Option Nat := none
  rows : List (Nat × List F32) := []
  reads : List (LineReader × Nat) := []
  bankReads : Nat × List Nat := (0, [])
  lineWrites : Nat × List (LineWriter × Nat) := (0, [])
  vec : VecUnit := {}
  attend : Option AttendState := none
  flows : List FlowArm := []
  spanFlits : List (Nat × Nat × List Byte) := []
  prep : Option Prep := none
  descOut : List PageDesc := []
  descs : List PageDesc := []
  prepTrigger : Option Nat := none
  select : List (Nat × List (Nat × Nat)) := []
  replay : Option Replay := none
  fp : Nat := 0
  deriving DecidableEq, Repr

/-- A mesh request that has had no response (R492). -/
structure MeshReq where
  tag : Nat
  pkt : Packet
  resent : Bool
  who : Requester
  pos : Nat
  deriving DecidableEq, Repr

/-- Network counters of a site (R323), and the STATUS and FAULT messages lost since the last window (R492). -/
structure SiteNoc where
  fenceDrops : Nat := 0
  staleDrops : Nat := 0
  vcRetries : Nat := 0
  shuttleErr : Nat := 0
  lostStatus : Nat := 0
  lostFault : Nat := 0
  deriving DecidableEq, Repr

/-- An admission under way (R322): its columns, whether the incarnations have been written, and whether FAULT.ADMIT or the core
waves ordered it. -/
structure Admission where
  cols : List Nat
  written : Bool
  byCommand : Bool
  wave : Bool
  deriving DecidableEq, Repr

/-- A fence order travelling on the shuttle network (R318): the hold that it brings, 0 for none, and the cause that its site keeps, 1 for a
load failure, 2 for a replay that failed twice and 0 for none. -/
structure FenceMsg where
  site : Nat
  holdCause : Nat
  why : Nat
  deriving DecidableEq, Repr

/-- A CTRL-class message of the shuttle network waiting for its response (R492). -/
structure CtrlMsg where
  node : Nat
  tries : Nat
  deriving DecidableEq, Repr

/-- Why the device reads or writes host memory (R367). -/
inductive HostUse where
  | stepRead (col index pos : Nat)
  | stepWrite (col index : Nat)
  | cmdRef (mb pos : Nat)
  | cmdDest (mb : Nat)
  | memRead (mb pos : Nat)
  | evtRecord
  | evtProducer
  | stsRecord (q : Nat)
  | stsProducer (q : Nat)
  | fwManifest (pos : Nat)
  | fwImage (pos : Nat)
  | defects (pos : Nat)
  | mapOut
  deriving DecidableEq, Repr

/-- A status or fault record on its way to the control complex: the node that wrote it (24 is the control complex itself), its
incarnation, and for a status record its partition (R185, R315, R318, R321). -/
structure SentRecord where
  src : Nat
  inc : Nat
  data : List Byte
  part : Nat := 0
  deriving DecidableEq, Repr

/-- A DRD or DWR that is waiting to be sent or outstanding (R367). -/
structure HostAcc where
  tag : Nat
  write : Bool
  addr : Nat
  len : Nat
  data : List Byte
  mask : List Bool
  use : HostUse
  sent : Bool
  deriving DecidableEq, Repr

/-- A transfer that a fabric reset ended with PATH_RESET and that is to be issued again (R418). -/
inductive Transfer where
  | host (a : HostAcc)
  | mesh (r : MeshReq)
  deriving DecidableEq, Repr

/-- Mesh and shuttle network (R301 to R323). -/
structure Noc where
  failed : List Nat := []
  ccSingle : Bool := false
  fenced : List Nat := []
  fenceWhy : List (Nat × Nat) := []
  hopSrc : Nat := 0
  hopDst : Nat := 0
  sites : List SiteNoc := []
  reqs : List MeshReq := []
  out : List (Nat × Packet) := []
  kept : List (Packet × List Nat) := []
  nextTag : Nat := 0
  fences : List FenceMsg := []
  ctrl : List CtrlMsg := []
  admits : List Admission := []
  fabricReset : Bool := false
  fabricAt : Nat := 0
  pathReset : List Transfer := []
  deriving DecidableEq, Repr

/-- A pending lane switch of a port (R338). -/
structure LaneSwitch where
  mask : Nat
  sBeat : Nat
  deriving DecidableEq, Repr

/-- A control record waiting for a slot of a port's control flit: its rank (R329) and its bytes. -/
structure CtrlRec where
  rank : Nat
  bytes : List Byte
  deriving DecidableEq, Repr

/-- A span port (R334 to R349). -/
structure PortS where
  state : PortState := .down
  stateAt : Nat := 0
  lanes : Nat := 0
  lanesFailed : Nat := 0
  lost : Bool := false
  misplaced : Bool := false
  degradeEvent : Bool := false
  qualLong : Bool := false
  expId : Nat := 0
  expPort : Nat := 0
  use : Bool := false
  fast : Bool := false
  fastNow : Bool := false
  pId : Nat := 0
  pPort : Nat := 0
  pInc : Nat := 0
  pValid : Bool := false
  lanePass : Nat := 0
  laneFail : Nat := 0
  qualDone : Bool := false
  corr : Nat := 0
  uncorr : Nat := 0
  crc : Nat := 0
  stale : Nat := 0
  unarmed : Nat := 0
  transitN : Nat := 0
  pauseN : Nat := 0
  delay : Nat := 0
  measured : Bool := false
  pad : Nat := 0
  myOneWay : Option Nat := none
  lastHelloTx : Nat := 0
  lastHelloAt : Nat := 0
  helloSent : Nat := 0
  switch : Option LaneSwitch := none
  coeffs : Bool := false
  transit : List (Nat × Flit) := []
  recs : List CtrlRec := []
  mgmt : List (Nat × Flit) := []
  sendQ : List Flit := []
  markAt : Option Nat := none
  lossStop : Bool := false
  txCtrl : List Byte := []
  txData : List Flit := []
  wasDegraded : Bool := false
  pauseSince : Nat := 0
  holdIdle : Bool := false
  idleElectric : Bool := true
  deriving DecidableEq, Repr

/-- Span links (R324 to R349). -/
structure Span where
  deviceId : Nat := 0
  selfInc : Nat := 0
  dismissed : Bool := false
  bootIn : Nat := 15
  bootLocal : Bool := true
  bootOut : Nat := 0
  bootValid : Bool := false
  incs : List (Nat × Nat) := []
  ports : List PortS := List.replicate 12 {}
  admits : List AdmitRec := []
  admKeys : List (Nat × Nat × Nat) := []
  deriving DecidableEq, Repr

/-- A message of the host link, sent by the device (R357, R358). -/
structure HostMsg where
  op : Nat
  st : Nat := 0
  tag : Nat := 0
  status : Nat := 0
  cause : Nat := 0
  len : Nat := 0
  addr : Nat := 0
  mask : Option (List Bool) := none
  data : List Byte := []
  deriving DecidableEq, Repr

/-- A MSG flit of the replay buffer: FLIT_SEQ, the messages whose last unit it carries, and its 224 bytes of units (R353 to R355). -/
structure SentFlit where
  seq : Nat
  msgs : List HostMsg
  units : List Byte
  deriving DecidableEq, Repr

/-- One direction pair of a half; `txNow` and `grants` are the MSG flits and the credits that it sends in the present beat (R353 to
R359). -/
structure HalfS where
  state : Nat := 0
  txSeq : Nat := 0
  unacked : List SentFlit := []
  txNow : List SentFlit := []
  grants : List Nat := [0, 0, 0, 0, 0]
  rxSeq : Nat := 0
  rxGot : Bool := false
  retryPending : Bool := false
  retryAsked : List (Nat × Nat) := []
  resend : Option Nat := none
  credits : List Nat := [512, 128, 512, 4608, 32]
  freed : List Nat := [0, 0, 0, 0, 0]
  rxUnits : List Byte := []
  txQ : List HostMsg := []
  idleElectric : Bool := false
  retries : Nat := 0
  crcErr : Nat := 0
  deriving DecidableEq, Repr

/-- What waits for a line of the home agent (R361). -/
inductive HomeReq where
  | shared (half tag addr : Nat)
  | own (half tag addr : Nat)
  | readUc (half tag addr len : Nat)
  | writeUc (half tag addr : Nat) (data : List Byte) (mask : List Bool)
  | devWrite (key : Nat) (who : Requester) (data : List Byte) (mask : List Bool)
  | devRead (key : Nat) (len : Nat)
  | backInv (granule : Nat)
  | evict
  | line1 (mb : Nat)
  deriving DecidableEq, Repr

/-- A transaction of the home agent on a line, waiting for its snoop, sent in a beat, or behind another one (R361, R363). -/
structure Txn where
  line : Nat
  req : HomeReq
  snooping : Bool
  since : Nat
  deriving DecidableEq, Repr

/-- A mailbox command that firmware has taken (R373), until it is done; `final` is the status and result it will end with. -/
structure CmdRun where
  mb : Nat
  group : Nat
  verb : Nat
  seq : Nat
  payload : List Byte
  refLen : Nat
  refOk : Bool
  refErr : Bool
  pendingRefs : Nat
  inProgress : Bool
  destPending : Nat
  deferred : Bool
  final : Option (Nat × List Byte)
  deriving DecidableEq, Repr

/-- A record of the event ring or its queue: its 64 bytes, and whether it is a fault record (R378). -/
structure RingRec where
  bytes : List Byte
  isFault : Bool
  deriving DecidableEq, Repr

/-- The host link (R350 to R394). -/
structure HostLink where
  halves : List HalfS := [{}, {}]
  taking : Bool := false
  ringSet : Bool := false
  evtConsumer : Nat := 0
  evtDropped : Nat := 0
  snoopTimeouts : Nat := 0
  filter : List (Nat × Bool) := []
  stale : List Nat := []
  txns : List Txn := []
  handovers : List Nat := []
  cmds : List CmdRun := []
  ringAddr : Nat := 0
  ringSize : Nat := 0
  produced : Nat := 0
  acked : Nat := 0
  ringDropped : Nat := 0
  queue : List RingRec := []
  evtSeq : Nat := 0
  accs : List HostAcc := []
  nextTag : Nat := 0
  stsOut : List SentRecord := []
  faultOut : List SentRecord := []
  refData : List (Nat × Nat × List Byte) := []
  heldWb : List (Nat × Nat × Nat × List Byte) := []
  aborted : List (Nat × Nat × Nat × Nat) := []
  resetDeferred : Option (Nat × Nat × Nat) := none
  deriving DecidableEq, Repr

/-- A reservation record slot of the identity flash (R441): none while erased, the limit when valid, or torn. -/
inductive FlashSlot where
  | valid (limit : Nat)
  | torn
  deriving DecidableEq, Repr

/-- An attestation waiting for its lower tree or its reservation (R442, R444). -/
structure AttestWait where
  dest : Nat
  body : List Byte
  deriving DecidableEq, Repr

/-- Firmware, identity, attestation (R425 to R446). -/
structure Fw where
  state : Nat := 0
  retained : Bool := false
  detail : Nat := 0
  keySlot : Bool := false
  version : Nat := 0
  revoked0 : Bool := false
  revoked1 : Bool := false
  session : Nat := 0
  round : Nat := 0
  pieces : List Nat := []
  chunks : Option Nat := none
  imageLen : Nat := 0
  receiving : Bool := false
  checking : Bool := false
  lastEnd : Nat := 0
  lastFlit : Nat := 0
  reported : List Nat := []
  manifestDigest : List Byte := []
  imageDigest : List Byte := []
  columnDigest : List Byte := []
  imageVersion : Nat := 0
  loaded : List Nat := []
  loadFailed : List Nat := []
  segPieces : List (Nat × List (Nat × List Byte)) := []
  sendSession : Nat := 0
  sendRound : Nat := 0
  sendObj : List Byte := []
  sendWindow : Option Nat := none
  progress : List FwProgress := []
  fuseTries : Nat := 0
  log : List FlashSlot := []
  ready : Bool := false
  flashFault : Bool := false
  exhausted : Bool := false
  treeBusy : Bool := false
  trees : List Nat := []
  nextLeaf : Nat := 0
  limit : Nat := 0
  waiting : Option AttestWait := none
  deriving DecidableEq, Repr

/-- A boost of R458: its step, and for a HINT the beats of the heavy phase that it announces, in SBC, and its current in A. -/
structure Boost where
  index : Nat
  fromSbc : Nat
  toSbc : Nat
  amps : Nat
  hint : Bool
  deriving DecidableEq, Repr

/-- Power of one site (R477); `gates` are the first and last cycles of droop bursts (R454), `gatedCyc` the cycles of the present
beat whose gating has been counted. -/
structure SitePower where
  limitW : Nat := 0
  ratio : Nat := 0
  newRatio : Nat := 0
  cls : Nat := 0
  powerW : Nat := 0
  slack : Nat := 0
  slackNow : Nat := 255
  setCode : Nat := 0
  tableCode : Nat := 0
  trim : Nat := 0
  entry : Nat := 0
  boosts : List Boost := []
  bubble : Nat := 0
  droop : Nat := 0
  bursts : Nat := 0
  gates : List (Nat × Nat) := []
  gatedCyc : Nat := 0
  burstsWin : Nat := 0
  stormed : Bool := false
  passes : Nat := 0
  deriving DecidableEq, Repr

/-- One sensor of R463; a hot spot keeps what belongs to both its sensors with the even one. -/
structure Sensor where
  reading : Nat := 0
  sampled : Bool := false
  gap : Int := 0
  suspect : Bool := false
  beyond : Nat := 0
  lowWindows : Nat := 0
  okWindows : Nat := 0
  override : Bool := false
  overLimit : Bool := false
  limited : Bool := false
  rises : Nat := 0
  deriving DecidableEq, Repr

/-- Power, droop and heat (R447 to R477). -/
structure Power where
  limitSrc : Nat := 0
  limit : Nat := 0
  grant : Option Nat := none
  nextGrant : Option (Nat × Nat) := none
  grantSeq : Option Nat := none
  grantAt : Nat := 0
  grantStale : Bool := false
  envStale : Bool := true
  envSeq : Option Nat := none
  envAt : Nat := 0
  inlet : Option Int := none
  mid : Option Int := none
  outlet : Option Int := none
  flow : Option Nat := none
  lastFlow : Option Nat := none
  flowSource : Nat := 1750
  coolantLoss : Bool := false
  hintW : Nat := 0
  hintMs : Nat := 0
  voltTable : Bool := false
  inputW : Nat := 0
  vcoreW : Nat := 0
  otherUw : Nat := 0
  sites : List SitePower := List.replicate 18 {}
  sensors : List Sensor := []
  disagree : Nat := 0
  disagreed : List Nat := []
  sel : Nat := 0
  clocksStopped : Bool := false
  deriving DecidableEq, Repr

/-- The walker registers (R225). -/
structure Walker where
  errCode : Nat := 0
  errCol : Nat := 0
  errValid : Bool := false
  descCount : Nat := 0
  dropped : Nat := 0
  rowsBank : Nat := 0
  rowsDma : Nat := 0
  free : List Nat := List.replicate 16 0
  low : List Bool := List.replicate 16 false
  deriving DecidableEq, Repr

/-- Silent-error counters of a site (R498). -/
structure SiteFault where
  replays : Nat := 0
  replayFail : Nat := 0
  discards : Nat := 0
  peak : Nat := 0
  deriving DecidableEq, Repr

/-- Fault reports (R493, R498). -/
structure Faults where
  frSeq : Nat := 0
  resends : Nat := 0
  sites : List SiteFault := List.replicate 18 {}
  deriving DecidableEq, Repr

/-- Everything on the stack but its memories. -/
structure Dev where
  boot : Boot := {}
  map : MemMap := {}
  prot : Prot := {}
  beat : Beat := {}
  sched : Sched := {}
  cores : List Core := List.replicate 18 {}
  noc : Noc := {}
  span : Span := {}
  host : HostLink := {}
  fw : Fw := {}
  power : Power := {}
  walker : Walker := {}
  faults : Faults := {}
  free : Nat := 0
  deriving DecidableEq, Repr

/-- The memories: every stored byte of DRAM, the buffers, the two configuration sets, the mailboxes and the firmware
store, as (key, byte) pairs with strictly rising keys and no zero byte (an unlisted byte reads as zero, R286). -/
abbrev Store := List Host.Cell

/-- The state of the block: pins and stage, the stack, its memories, and the queue of waiting commands. -/
structure State where
  mod : Module
  dev : Dev
  mem : Store
  pending : List Instr
  deriving DecidableEq, Repr

/-- Why a step stops with a fault. -/
inductive Fault where
  /-- Raised by VIN54_LOCKOUT when VIN54 is outside the absolute maximum ratings of R499, beyond which the manual no longer
  describes the module. Safe: the model stops where the spec gives no behaviour. -/
  | beyondAbsoluteMaximum
  deriving DecidableEq, Repr

/-- Why a step has no meaning. -/
inductive Refusal where
  /-- Raised by an arm of exec whose command has no meaning yet. Safe: the model stops. -/
  | notModelled (mnemonic : String)
  deriving DecidableEq, Repr

/-- What the fuses hold, read at every start (R398, R406, R428). -/
def fusedUnits : List BadUnit :=
  Config.fusedBad.map fun u => ⟨u.1, u.2.1, u.2.2, true, false, false, false⟩

/-- The stack at a cold device start that has just reached BASE_ON: register reset values, fuses read (R397, R424). -/
def Dev.reset : Dev :=
  { boot := { badUnits := fusedUnits }
    prot := { sites := List.replicate 18 {}, layers := List.replicate 12 {} }
    map := { cols := List.replicate 16 {} }
    noc := { sites := List.replicate 18 {} }
    power := { sensors := List.replicate 330 {} }
    fw := { version := Config.fusedVersion.val
            revoked0 := Config.fusedRevoked false
            revoked1 := Config.fusedRevoked true } }

/-- The machine right after reset (R397): a cold start has reached BASE_ON. -/
def State.reset : State :=
  { mod := {}, dev := Dev.reset, mem := [], pending := [] }

end Sys2Proof.Machine
end

