-- ==== Sys2Proof/Machine/Bits.lean ====
section
/-! DEFINITION. Bit fields, little-endian bytes, saturating counts and small list operations. -/

namespace Sys2Proof.Machine

/-- The n low bytes of a number, byte 0 first (R4). -/
def leBytes : Nat → Nat → List Byte
  | 0, _ => []
  | n + 1, v => BitVec.ofNat 8 v :: leBytes n (v / 256)

/-- The number that bytes hold, byte 0 first (R4). -/
def leNat : List Byte → Nat
  | [] => 0
  | b :: bs => b.toNat + 256 * leNat bs

/-- Bytes off to off + n - 1 of a structure. -/
def slice (l : List Byte) (off n : Nat) : List Byte := (l.drop off).take n

/-- The n-byte field at offset off of a structure (R4). -/
def fld (l : List Byte) (off n : Nat) : Nat := leNat (slice l off n)

/-- Bits [lo + w - 1 : lo] of a number. -/
def bits (v lo w : Nat) : Nat := v / 2 ^ lo % 2 ^ w

/-- Bit i of a number. -/
def bitAt (v i : Nat) : Bool := v / 2 ^ i % 2 == 1

/-- A flag as a bit. -/
def b2n (b : Bool) : Nat := if b then 1 else 0

/-- A two's complement number of w bits. -/
def sext (w v : Nat) : Int :=
  let u := v % 2 ^ w
  if u < 2 ^ (w - 1) then (u : Int) else (u : Int) - 2 ^ w

/-- A signed number as its low w bits. -/
def toBits (w : Nat) (v : Int) : Nat := (v % (2 ^ w : Int)).toNat

/-- Division rounded up. -/
def ceilDiv (a b : Nat) : Nat := (a + b - 1) / b

/-- Saturation at 0xFFFF_FFFF of a 32-bit counter. -/
def sat32 (n : Nat) : Nat := min n 4294967295

/-- Saturation at 0xFFFF of a 16-bit counter. -/
def sat16 (n : Nat) : Nat := min n 65535

/-- The mask with bit i set for each i of a list. -/
def maskOf : List Nat → Nat
  | [] => 0
  | i :: is => if is.contains i then maskOf is else 2 ^ i + maskOf is

/-- The bits below n that are set in a mask. -/
def bitList (n m : Nat) : List Nat := (List.range n).filter (bitAt m)

/-- A list with bytes replaced from an offset on; the offset is filled up with zeros. -/
def splice (l : List Byte) (off : Nat) (bs : List Byte) : List Byte :=
  let l' := l ++ List.replicate (off - l.length) 0
  l'.take off ++ bs ++ l'.drop (off + bs.length)

/-- A list of bytes of exactly n bytes, cut or filled with zeros. -/
def padTo (n : Nat) (l : List Byte) : List Byte := (l ++ List.replicate (n - l.length) 0).take n

/-- The element at i, or a default. -/
def nth {α : Type} (l : List α) (i : Nat) (d : α) : α := (l[i]?).getD d

/-- Replaces the element at i by its image. -/
def upd {α : Type} (l : List α) (i : Nat) (f : α → α) : List α := l.modify i f

/-- The value that an association list holds at a key. -/
def assoc {β : Type} (l : List (Nat × β)) (k : Nat) : Option β :=
  (l.find? fun p => p.1 == k).map Prod.snd

/-- An association list with the key bound to a value, other keys as before. -/
def assocSet {β : Type} (l : List (Nat × β)) (k : Nat) (v : β) : List (Nat × β) :=
  (k, v) :: l.filter fun p => p.1 != k

/-- An association list without a key. -/
def assocDel {β : Type} (l : List (Nat × β)) (k : Nat) : List (Nat × β) :=
  l.filter fun p => p.1 != k

/-- Adds an element to a list kept as a set. -/
def addTo (l : List Nat) (x : Nat) : List Nat := if l.contains x then l else l ++ [x]

/-- Takes an element out of a list kept as a set. -/
def takeOut (l : List Nat) (x : Nat) : List Nat := l.filter fun y => y != x

/-- Cuts a list into pieces of n elements. -/
def chunksAux {α : Type} (n : Nat) : Nat → List α → List (List α)
  | 0, _ => []
  | fuel + 1, l => if l.isEmpty then [] else l.take n :: chunksAux n fuel (l.drop n)

/-- The pieces of n elements of a list; the last may be shorter. -/
def chunks {α : Type} (n : Nat) (l : List α) : List (List α) := chunksAux n l.length l

/-- The characters of a text as bytes. -/
def asciiBytes (s : String) : List Byte := s.toList.map fun c => BitVec.ofNat 8 c.toNat

/-- Two byte ranges, given by first and last byte, share a byte. -/
def overlaps (a b : Nat × Nat) : Bool := decide (a.1 ≤ b.2) && decide (b.1 ≤ a.2)

/-- Every element of a list is different from the ones before it. -/
def distinct (l : List Nat) : Bool :=
  match l with
  | [] => true
  | x :: xs => !xs.contains x && distinct xs

end Sys2Proof.Machine
end

