-- ==== Sys2Proof/Machine/Hash.lean ====
section
/-! DEFINITION. CRC-32C (R303, R312, R327, R353) and SHA-256 (R76, R426, R442), the published functions (PRESUMED, log 8). -/

namespace Sys2Proof.Machine

/-- One bit of the reflected CRC-32C with polynomial 0x1EDC6F41 (PRESUMED, log 8). -/
def crcBit (c : BitVec 32) : BitVec 32 :=
  if c.getLsbD 0 then (c >>> 1) ^^^ 0x82F63B78 else c >>> 1

/-- One byte of CRC-32C. -/
def crcByte (c : BitVec 32) (b : Byte) : BitVec 32 :=
  (List.range 8).foldl (fun a _ => crcBit a) (c ^^^ b.setWidth 32)

/-- CRC-32C of bytes (PRESUMED, log 8). -/
def crc32c (l : List Byte) : BitVec 32 := ~~~ (l.foldl crcByte 0xFFFFFFFF)

/-- The primes up to 311: the first 64 (a number below 324 with no divisor from 2 to 17 but itself is prime). -/
def firstPrimes : List Nat := (List.range 312).filter fun p => decide (2 ≤ p) && (List.range 16).all fun d => p % (d + 2) != 0 || p == d + 2

/-- The largest number of 36 bits whose k-th power is at most n, one bit at a time. -/
def rootFloor (k n : Nat) : Nat :=
  (List.range 36).foldr (fun i low => if (low + 2 ^ i) ^ k ≤ n then low + 2 ^ i else low) 0

/-- The first 32 fractional bits of the k-th root of p. -/
def rootFraction (k p : Nat) : BitVec 32 := BitVec.ofNat 32 (rootFloor k (p * 2 ^ (32 * k)))

/-- The round constants of SHA-256: the fractions of the cube roots of the first 64 primes (PRESUMED, log 8). -/
def shaK : List (BitVec 32) := firstPrimes.map (rootFraction 3)

/-- The initial hash of SHA-256: the fractions of the square roots of the first 8 primes (PRESUMED, log 8). -/
def shaInit : List (BitVec 32) := (firstPrimes.take 8).map (rootFraction 2)

/-- The message schedule, newest word first: each new word comes from the words 2, 7, 15 and 16 back. -/
def shaExtend : Nat → List (BitVec 32) → List (BitVec 32)
  | 0, w => w
  | n + 1, w =>
    let g := fun i => nth w (i - 1) 0
    let x := g 15
    let y := g 2
    let s0 := x.rotateRight 7 ^^^ x.rotateRight 18 ^^^ (x >>> 3)
    let s1 := y.rotateRight 17 ^^^ y.rotateRight 19 ^^^ (y >>> 10)
    shaExtend n ((g 16 + s0 + g 7 + s1) :: w)

/-- One round of SHA-256 on the eight working variables. -/
def shaRound (v : List (BitVec 32)) (kw : BitVec 32 × BitVec 32) : List (BitVec 32) :=
  match v with
  | [a, b, c, d, e, f, g, h] =>
    let s1 := e.rotateRight 6 ^^^ e.rotateRight 11 ^^^ e.rotateRight 25
    let ch := (e &&& f) ^^^ (~~~e &&& g)
    let t1 := h + s1 + ch + kw.1 + kw.2
    let s0 := a.rotateRight 2 ^^^ a.rotateRight 13 ^^^ a.rotateRight 22
    let mj := (a &&& b) ^^^ (a &&& c) ^^^ (b &&& c)
    [t1 + (s0 + mj), a, b, c, d + t1, e, f, g]
  | _ => v

/-- A big-endian word of four bytes. -/
def beWord (l : List Byte) : BitVec 32 := BitVec.ofNat 32 (leNat l.reverse)

/-- The n low bytes of a number, highest first. -/
def beBytes (n v : Nat) : List Byte := (leBytes n v).reverse

/-- The compression function on one 64-byte block. -/
def shaBlock (hs : List (BitVec 32)) (blk : List Byte) : List (BitVec 32) :=
  let w := (shaExtend 48 ((chunks 4 blk).map beWord).reverse).reverse
  let v := (shaK.zip w).foldl shaRound hs
  hs.zipWith (· + ·) v

/-- SHA-256 of bytes (PRESUMED, log 8). -/
def sha256 (l : List Byte) : List Byte :=
  let z := (119 - l.length % 64) % 64
  let m := l ++ (0x80 : Byte) :: List.replicate z 0 ++ beBytes 8 (8 * l.length)
  ((chunks 64 m).foldl shaBlock shaInit).flatMap fun w => beBytes 4 w.toNat

end Sys2Proof.Machine
end

