-- ==== Sys2Proof/Machine/Mem.lean ====
section
/-! DEFINITION. The memories: the canonical store, the work record of a command, and the device address map
(R226 to R231, R369, DESIGN CHOICE, log 9). -/

namespace Sys2Proof.Machine

/-- Stores one byte, keys rising; a zero byte is unlisted (R286). -/
def Store.put (k : Nat) (b : Byte) : Store → Store
  | [] => if b = 0 then [] else [(k, b)]
  | (j, c) :: r =>
    if j < k then (j, c) :: Store.put k b r
    else if j = k then (if b = 0 then r else (k, b) :: r)
    else if b = 0 then (j, c) :: r else (k, b) :: (j, c) :: r

/-- Makes a stretch unlisted. -/
def Store.zero (lo len : Nat) (m : Store) : Store := m.filter fun p => p.1 < lo || lo + len ≤ p.1

/-- One byte of a store; an unlisted byte reads as zero (R286, DESIGN CHOICE, log 9). -/
def Store.get (m : Store) (k : Nat) : Byte := (assoc m k).getD 0

/-- Keys strictly rising from a bound on. -/
def Store.rising : Nat → Store → Bool
  | _, [] => true
  | lo, (k, _) :: r => decide (lo ≤ k) && Store.rising (k + 1) r

/-- The canonical form: keys strictly rising, no listed byte zero. -/
def Store.wf (m : Store) : Bool := Store.rising 0 m && m.all fun p => p.2 != 0

/-- One change of a store. -/
def Store.change (m : Store) : MemOp → Store
  | .put k b => Store.put k b m
  | .zero lo len => Store.zero lo len m

/-- The changes of a command, newest first. -/
def Store.applyLog (m : Store) : List MemOp → Store
  | [] => m
  | o :: older => (Store.applyLog m older).change o

/-- The work record of a command: the stack, the memories as they were at its start, and the changes so far, newest first. -/
structure Sys where
  dev : Dev
  base : Store
  log : List MemOp

/-- The byte that the newest change of a key left, if any. -/
def logGet (k : Nat) : List MemOp → Option Byte
  | [] => none
  | .put j b :: r => if j = k then some b else logGet k r
  | .zero lo len :: r => if lo ≤ k && k < lo + len then some 0 else logGet k r

/-- One byte of the memories as the command sees them. -/
def Sys.get (y : Sys) (k : Nat) : Byte := (logGet k y.log).getD (y.base.get k)

/-- Bytes of the memories from a key on. -/
def Sys.getN (y : Sys) (k n : Nat) : List Byte := (List.range n).map fun i => y.get (k + i)

/-- Stores bytes from a key on. -/
def Sys.put (y : Sys) (k : Nat) : List Byte → Sys
  | [] => y
  | b :: bs => Sys.put { y with log := .put k b :: y.log } (k + 1) bs

/-- Stores the bytes of a list whose mask bit is set. -/
def Sys.putMask (y : Sys) (k : Nat) : List Byte → List Bool → Sys
  | b :: bs, m :: ms => Sys.putMask (if m then { y with log := .put k b :: y.log } else y) (k + 1) bs ms
  | _, _ => y

/-- Makes a stretch zero. -/
def Sys.zero (y : Sys) (k n : Nat) : Sys := { y with log := .zero k n :: y.log }

/-- Changes the stack only. -/
def Sys.onDev (y : Sys) (f : Dev → Dev) : Sys := { y with dev := f y.dev }

/-- A command that changes the stack only. -/
def onDev (f : Dev → Dev) (s : State) : Host.Outcome State Fault Refusal :=
  .next { s with dev := f s.dev }

/-- A command that changes pins and stage only. -/
def onMod (f : Module → Module) (s : State) : Host.Outcome State Fault Refusal :=
  .next { s with mod := f s.mod }

/-- A command that changes the stack and its memories. -/
def onSys (f : Sys → Sys) (s : State) : Host.Outcome State Fault Refusal :=
  let y := f ⟨s.dev, s.mem, []⟩
  .next { s with dev := y.dev, mem := s.mem.applyLog y.log }

/-- A command that changes everything but the queue. -/
def onAll (f : Module → Sys → Module × Sys) (s : State) : Host.Outcome State Fault Refusal :=
  let r := f s.mod ⟨s.dev, s.mem, []⟩
  .next { s with mod := r.1, dev := r.2.dev, mem := s.mem.applyLog r.2.log }

/-- Column span of DRAM: 12 GiB (R226). -/
def colBytes : Nat := 0x300000000

/-- Column span of a buffer: 96 MiB (R226). -/
def bufBytes : Nat := 0x6000000

/-- Key of a site's DRAM byte. -/
def dramKey (site off : Nat) : Nat := site * 2 ^ 34 + off

/-- Key of a site's buffer byte. -/
def bufKey (site a : Nat) : Nat := 2 ^ 40 + site * 2 ^ 27 + a

/-- Key of a byte of a configuration-set bank. -/
def setKey (bank off : Nat) : Nat := 2 ^ 42 + bank * 2 ^ 32 + off

/-- Key of a byte of the mailbox store (R369). -/
def mbxKey (a : Nat) : Nat := 2 ^ 44 + a

/-- Key of a byte of the firmware store (R435). -/
def fwKey (off : Nat) : Nat := 2 ^ 45 + off

/-- The site that carries a logical column (R228). -/
def siteOf (d : Dev) (c : Nat) : Nat := (nth d.map.cols c {}).site

/-- The logical column that a site carries, if any (R228). -/
def colAt (d : Dev) (site : Nat) : Option Nat :=
  (List.range d.map.n).find? fun c => siteOf d c == site

/-- What a device address names (R226, R227). -/
inductive Place where
  | dram (col off : Nat)
  | spare (k off : Nat)
  | buf (col a : Nat)
  | mailbox (a : Nat)
  | csr (a : Nat)
  | unmapped
  deriving DecidableEq, Repr

/-- The device byte that a byte of the interleaved window names (R231). -/
def windowTarget (n a : Nat) : Nat :=
  let u := a / 8192
  (u % n) * colBytes + (u / n * 8192 + a % 8192)

/-- The device address map; N is the number of logical columns (R226, R227). -/
def place (n a : Nat) : Place :=
  if a < 0x3000000000 then
    if a / colBytes < n then .dram (a / colBytes) (a % colBytes) else .unmapped
  else if a < 0x3600000000 then .spare ((a - 0x3000000000) / colBytes) ((a - 0x3000000000) % colBytes)
  else if a < 0x4000000000 then .unmapped
  else if a < 0x4060000000 then
    if (a - 0x4000000000) / bufBytes < n then .buf ((a - 0x4000000000) / bufBytes) ((a - 0x4000000000) % bufBytes)
    else .unmapped
  else if a < 0x4800000000 then .unmapped
  else if a < 0x7800000000 then
    if a - 0x4800000000 < n * colBytes then
      .dram (windowTarget n (a - 0x4800000000) / colBytes) (windowTarget n (a - 0x4800000000) % colBytes)
    else .unmapped
  else if a < 0x7E00000000 then .unmapped
  else if a < 0x7E00010000 then .mailbox (a - 0x7E00000000)
  else if a < 0x7F00000000 then .unmapped
  else if a < 0x8000000000 then .csr (a - 0x7F00000000)
  else .unmapped

/-- True in the interleaved window (R231). -/
def inWindow (a : Nat) : Bool := decide (0x4800000000 ≤ a) && decide (a < 0x7800000000)

/-- The site of the spare window index (R229, R253). -/
def spareSite (d : Dev) (k : Nat) : Option Nat :=
  let s := if k = 0 then d.map.spare0 else d.map.spare1
  if s = 31 then none else some s

/-- Key of a place that lies in a memory. -/
def placeKey (d : Dev) : Place → Option Nat
  | .dram c o => some (dramKey (siteOf d c) o)
  | .spare k o => (spareSite d k).map fun s => dramKey s o
  | .buf c a => some (bufKey (siteOf d c) a)
  | .mailbox a => if a < 4096 then some (mbxKey a) else none
  | .csr _ => none
  | .unmapped => none

/-- Key of a device address that lies in a memory. -/
def addrKey (d : Dev) (a : Nat) : Option Nat := placeKey d (place d.map.n a)

/-- The DRAM fields of a column offset (R233): tile, bank, row. -/
def tileOf (o : Nat) : Nat := bits o 30 4
def rowOf (o : Nat) : Nat := bits o 18 12
def bankOf (o : Nat) : Nat := Nat.xor (bits o 13 5) (bits o 18 5)

/-- The granule of a column offset (R233, R236). -/
def granuleOf (o : Nat) : Nat := o / 2 ^ 26

/-- The column offset of a row of a bank (R233). -/
def rowOff (tile bank row : Nat) : Nat :=
  tile * 2 ^ 30 + row * 2 ^ 18 + Nat.xor bank (row % 32) * 8192

/-- Device address of a buffer offset of a logical column (R226). -/
def bufAddr (c a : Nat) : Nat := 0x4000000000 + c * bufBytes + a

/-- Device address of a DRAM offset of a logical column (R226). -/
def dramAddr (c o : Nat) : Nat := c * colBytes + o

end Sys2Proof.Machine
end

