-- ==== Sys2Proof/Machine/Ops.lean ====
section
/-! DEFINITION. The shared operations: parts of the stack, configuration sets, events and fault records, hold requests,
partition states and stops, host messages and host memory accesses. -/

namespace Sys2Proof.Machine

section Parts

variable (y : Sys)

def Sys.onBoot (f : Boot → Boot) : Sys := { y with dev := { y.dev with boot := f y.dev.boot } }
def Sys.onMap (f : MemMap → MemMap) : Sys := { y with dev := { y.dev with map := f y.dev.map } }
def Sys.onProt (f : Prot → Prot) : Sys := { y with dev := { y.dev with prot := f y.dev.prot } }
def Sys.onBeat (f : Beat → Beat) : Sys := { y with dev := { y.dev with beat := f y.dev.beat } }
def Sys.onSched (f : Sched → Sched) : Sys := { y with dev := { y.dev with sched := f y.dev.sched } }
def Sys.onNoc (f : Noc → Noc) : Sys := { y with dev := { y.dev with noc := f y.dev.noc } }
def Sys.onSpan (f : Span → Span) : Sys := { y with dev := { y.dev with span := f y.dev.span } }
def Sys.onHost (f : HostLink → HostLink) : Sys := { y with dev := { y.dev with host := f y.dev.host } }
def Sys.onFw (f : Fw → Fw) : Sys := { y with dev := { y.dev with fw := f y.dev.fw } }
def Sys.onPower (f : Power → Power) : Sys := { y with dev := { y.dev with power := f y.dev.power } }
def Sys.onWalker (f : Walker → Walker) : Sys := { y with dev := { y.dev with walker := f y.dev.walker } }
def Sys.onFaults (f : Faults → Faults) : Sys := { y with dev := { y.dev with faults := f y.dev.faults } }

/-- Changes the core of a site. -/
def Sys.onCore (s : Nat) (f : Core → Core) : Sys := { y with dev := { y.dev with cores := upd y.dev.cores s f } }

/-- Changes a span port. -/
def Sys.onPort (p : Nat) (f : PortS → PortS) : Sys := y.onSpan fun x => { x with ports := upd x.ports p f }

/-- Changes a half of the host link. -/
def Sys.onHalf (h : Nat) (f : HalfS → HalfS) : Sys := y.onHost fun x => { x with halves := upd x.halves h f }

/-- Changes the stored-data protection of a site. -/
def Sys.onSiteProt (s : Nat) (f : SiteProt → SiteProt) : Sys := y.onProt fun x => { x with sites := upd x.sites s f }

/-- Changes a memory layer, 0 to 11. -/
def Sys.onLayer (l : Nat) (f : LayerState → LayerState) : Sys := y.onProt fun x => { x with layers := upd x.layers l f }

/-- Changes the network counters of a site. -/
def Sys.onSiteNoc (s : Nat) (f : SiteNoc → SiteNoc) : Sys := y.onNoc fun x => { x with sites := upd x.sites s f }

/-- Changes the power state of a site. -/
def Sys.onSitePow (s : Nat) (f : SitePower → SitePower) : Sys := y.onPower fun x => { x with sites := upd x.sites s f }

/-- Changes the silent-error counters of a site. -/
def Sys.onSiteFault (s : Nat) (f : SiteFault → SiteFault) : Sys := y.onFaults fun x => { x with sites := upd x.sites s f }

/-- The core of a site. -/
def Sys.core (s : Nat) : Core := nth y.dev.cores s {}

/-- A span port. -/
def Sys.port (p : Nat) : PortS := nth y.dev.span.ports p {}

/-- A half of the host link. -/
def Sys.half (h : Nat) : HalfS := nth y.dev.host.halves h {}

/-- A free value: the counter advances, so that every use has a value of its own (DESIGN CHOICE, log 5). -/
def Sys.takeFree : Nat × Sys := (Config.freeValue y.dev.free, y.onDev fun d => { d with free := d.free + 1 })

end Parts

/-- Does for every element what a function does, in order. -/
def Sys.each {α : Type} (y : Sys) (l : List α) (f : Sys → α → Sys) : Sys := l.foldl f y

/-- Does something only under a condition. -/
def Sys.when (y : Sys) (c : Bool) (f : Sys → Sys) : Sys := if c then f y else y

/- Time. -/

/-- The schedule beat count: WBC minus HOLD_ACC (R45). -/
def sbc (d : Dev) : Nat := d.beat.wbc - d.beat.holdAcc

/-- The SBC that records show: 0 when not aligned (R379, R494). -/
def sbcShown (d : Dev) : Nat := if d.beat.aligned then sbc d else 0

/-- A core cycle of the present beat, counted from beat 0. -/
def cycNow (d : Dev) (cyc : Nat) : Nat := d.beat.wbc * 64 + cyc

/-- The next multiple of 64 at or after a beat (R58). -/
def up64 (w : Nat) : Nat := ceilDiv w 64 * 64

/- Configuration sets (R82 to R84). -/

/-- A field of a bank of the configuration store. -/
def setField (y : Sys) (bank off n : Nat) : Nat := leNat (y.getN (setKey bank off) n)

/-- Offset of section i of a set; the directory is section 0 and names itself too (R82, R83). -/
def secOff (y : Sys) (bank i : Nat) : Nat := setField y bank (8 + 8 * i) 4

/-- Length of section i of a set. -/
def secLen (y : Sys) (bank i : Nat) : Nat := setField y bank (12 + 8 * i) 4

/-- A field of section i of a set. -/
def secField (y : Sys) (bank i off n : Nat) : Nat := setField y bank (secOff y bank i + off) n

/-- A field of section i of the active set, or the value before the first set. -/
def cfg (y : Sys) (i off n dflt : Nat) : Nat :=
  if y.dev.sched.haveActive then secField y y.dev.sched.bank i off n else dflt

/-- SET_GENERATION of the active set (R83). -/
def generation (y : Sys) : Nat := if y.dev.sched.haveActive then setField y y.dev.sched.bank 0 4 else 0

/-- HOLD_PROP_BEATS of the active set (R57, R84). -/
def propBeats (y : Sys) : Nat := bits (cfg y 1 0x30 2 0) 0 9

/-- A port of BEAT_PORTS: 0 primary, 1 alternate, 2 secondary, 3 standby; 15 for none (R84). -/
def beatPort (y : Sys) (k : Nat) : Nat := bits (cfg y 1 0x32 2 0xFFFF) (4 * k) 4

/-- The partition of a logical column in a bank (R84). -/
def partIn (y : Sys) (bank c : Nat) : Option Nat :=
  let p := secField y bank 1 c 1
  if p < 4 then some p else none

/-- The partition of a logical column in the active set; before the first set no partition exists (R396). -/
def partOf (y : Sys) (c : Nat) : Option Nat :=
  if y.dev.sched.haveActive then partIn y y.dev.sched.bank c else none

/-- The logical columns of a partition. -/
def colsOf (y : Sys) (q : Nat) : List Nat := (List.range y.dev.map.n).filter fun c => partOf y c == some q

/-- The partitions that the active set defines. -/
def allParts (y : Sys) : List Nat := (List.range 4).filter fun q => !(colsOf y q).isEmpty

/-- The partition of a site. -/
def partOfSite (y : Sys) (s : Nat) : Option Nat := (colAt y.dev s).bind (partOf y)

/-- State of a partition (R396). -/
def partState (d : Dev) (q : Nat) : PartState := nth d.boot.parts q .idle

/-- A partition that is RUNNING or HELD. -/
def partLive (d : Dev) (q : Nat) : Bool := partState d q == .running || partState d q == .held

/-- Some partition is RUNNING or HELD. -/
def anyLive (d : Dev) : Bool := (List.range 4).any (partLive d)

/-- Image address that a bank names for a partition (R84). -/
def imageIn (y : Sys) (bank q : Nat) : Nat := secField y bank 1 (0x10 + 8 * q) 5

/-- A loaded image by its address. -/
def imageAt (d : Dev) (a : Nat) : Option Image := d.sched.images.find? fun i => i.addr == a

/-- The image that a partition runs. -/
def runImage (d : Dev) (q : Nat) : Option Image := (nth d.sched.runs q {}).image.bind (imageAt d)

/-- The GRANULE byte of a granule; before the first set Protected with host access uncached (R238). -/
def granuleByte (y : Sys) (c g : Nat) : Nat := cfg y 2 (0x10 + 192 * c + g) 1 2

/-- True for an Open granule (R236). -/
def isOpen (y : Sys) (c g : Nat) : Bool := bitAt (granuleByte y c g) 0

/-- Host access of a granule: 0 none, 1 uncached, 2 cached (R237). -/
def hostAccess (y : Sys) (c g : Nat) : Nat := bits (granuleByte y c g) 1 2

/-- Host access of a buffer (R238). -/
def bufAccess (y : Sys) (c : Nat) : Nat := bits (cfg y 2 0 4 0x55555555) (2 * c) 2

/- Reports: events and fault records. -/

/-- EVT_LEVEL of an event (R510). -/
def evtLevel (code : Nat) (data : List Byte) : Nat :=
  if code = 0x0701 then (if nth data 1 0 = 0 then 0 else 2)
  else if code = 0x0905 then (if bitAt (nth data 3 0).toNat 0 then 2 else 0)
  else if [0x0201, 0x0302, 0x0601, 0x0801, 0x0804, 0x0805, 0x0901, 0x0904].contains code then 0
  else if [0x0102, 0x0103, 0x0107, 0x0202, 0x0503, 0x0602, 0x0703, 0x0704, 0x0802, 0x0806, 0x0902, 0x0903, 0x0906,
    0x0A06, 0x0A08].contains code then 2
  else 1

/-- Queues an event-ring record (R378): a fault record displaces the oldest event of a full queue; a record that finds no
place is dropped and counted (DESIGN CHOICE, log 10). -/
def ringPush (y : Sys) (bytes : List Byte) (isFault : Bool) : Sys :=
  y.onHost fun h =>
    let r : RingRec := ⟨bytes, isFault⟩
    let drop1 := fun (h : HostLink) => { h with evtDropped := sat32 (h.evtDropped + 1), ringDropped := h.ringDropped + 1 }
    if h.queue.length < 1024 then { h with queue := h.queue ++ [r] }
    else if isFault && h.queue.any fun q => !q.isFault then
      drop1 { h with queue := (h.queue.eraseP fun q => !q.isFault) ++ [r] }
    else drop1 h

/-- Reports an event (R379). -/
def event (y : Sys) (code : Nat) (data : List Byte) : Sys :=
  let d := y.dev
  let bytes := leBytes 1 0x30 ++ leBytes 1 (evtLevel code data) ++ leBytes 2 code ++ leBytes 4 d.host.evtSeq
    ++ leBytes 8 d.beat.wbc ++ leBytes 8 (sbcShown d) ++ padTo 40 data
  ringPush (y.onHost fun h => { h with evtSeq := h.evtSeq + 1 }) bytes false

/-- The fields of a fault record that its cause decides (R494, R495). -/
structure FaultInfo where
  cls : Nat
  flags : Nat := 0
  replay : Nat := 0
  site : Nat := 0x1F
  col : Nat := 0xFF
  part : Nat := 0xFF
  die : Nat := 0xFF
  opcode : Nat := 0
  location : Nat := 0
  index : Nat := 0xFFFFFFFF
  tag : Nat := 0
  outcome : Nat := 0xFF
  replays : Nat := 0
  residual : F32 := 0
  addr : Nat := 0
  detail : Nat := 0
  count : Nat := 0
  deriving DecidableEq, Repr

/-- The window of a beat: wall beats from one multiple of 31,250 to the next (R298, R447). -/
def windowOf (d : Dev) : Nat := d.beat.wbc / 31250

/-- Present upper bound of the thermal model for a sensor point (R465, free). -/
def modelBound (d : Dev) (i : Nat) : Int := Config.thermBound i (windowOf d)

/-- The arbitrated temperature of compute hot spot h of a site, in 0.125 C (R464). -/
def hotSpot (d : Dev) (s h : Nat) : Int :=
  let i := 4 * s + 2 * h
  let a := nth d.power.sensors i {}
  let b := nth d.power.sensors (i + 1) {}
  match a.suspect, b.suspect with
  | true, true => modelBound d i
  | true, false => b.reading
  | false, true => a.reading
  | false, false => max (a.reading : Int) b.reading

/-- The arbitrated temperature of any point (R464, R468). -/
def arbitrated (d : Dev) (i : Nat) : Int :=
  if i < 72 then hotSpot d (i / 4) (i % 4 / 2)
  else
    let x := nth d.power.sensors i {}
    if x.suspect || x.override then modelBound d i else x.reading

/-- The hotter hot spot of a site (R460, R464). -/
def siteTemp (d : Dev) (s : Nat) : Int := max (hotSpot d s 0) (hotSpot d s 1)

/-- The 64 bytes of a fault record (R494). -/
def faultBytes (d : Dev) (f : FaultInfo) : List Byte :=
  leBytes 1 0x40 ++ leBytes 1 f.cls ++ leBytes 1 f.flags ++ leBytes 1 f.replay ++ leBytes 4 d.faults.frSeq
    ++ leBytes 8 d.beat.wbc ++ leBytes 8 (sbcShown d) ++ leBytes 2 d.span.deviceId ++ leBytes 1 d.span.selfInc
    ++ leBytes 1 f.site ++ leBytes 1 f.col ++ leBytes 1 f.part ++ leBytes 1 f.die ++ leBytes 1 f.opcode
    ++ leBytes 4 f.location ++ leBytes 4 f.index ++ leBytes 2 f.tag ++ leBytes 1 f.outcome ++ leBytes 1 f.replays
    ++ leBytes 4 f.residual.toNat ++ leBytes 8 f.addr
    ++ leBytes 2 (if f.site < 18 then toBits 16 (siteTemp d f.site) else 0)
    ++ leBytes 1 (if f.site < 18 then (nth d.power.sites f.site {}).setCode else 0)
    ++ leBytes 1 f.detail ++ leBytes 4 f.count

/-- The incarnation of the column that a site carries (R321). -/
def siteInc (d : Dev) (s : Nat) : Option Nat := (colAt d s).map fun c => (nth d.map.cols c {}).incarnation

/-- A record as it leaves its unit: the unit's own message, or the control complex's writing where the unit is fenced or carries no
column (R318, R319, R321, R497; DEDUCED, log 95). -/
def sentRecord (d : Dev) (site : Nat) (data : List Byte) (part : Nat) : SentRecord :=
  match siteInc d site with
  | some n => if d.noc.fenced.contains site then ⟨24, 0, data, part⟩ else ⟨site, n, data, part⟩
  | none => ⟨24, 0, data, part⟩

/-- Produces a fault record: it travels to the control complex as two FAULT-class messages (R493, R315). -/
def faultRec (y : Sys) (f : FaultInfo) : Sys :=
  let r := sentRecord y.dev f.site (faultBytes y.dev f) 0
  (y.onFaults fun x => { x with frSeq := x.frSeq + 1 }).onHost fun h => { h with faultOut := h.faultOut ++ [r] }

/-- A fault record that the control complex writes itself (R493, R497). -/
def faultRecCc (y : Sys) (f : FaultInfo) : Sys :=
  let b := faultBytes y.dev f
  ringPush (y.onFaults fun x => { x with frSeq := x.frSeq + 1 }) b true

/-- The place fields of a fault record about a site. -/
def faultSite (y : Sys) (s : Nat) (f : FaultInfo) : FaultInfo :=
  { f with site := s, col := (colAt y.dev s).getD 0xFF, part := (partOfSite y s).getD 0xFF }

/- Records on the span ports. -/

/-- A port on which the control flit runs: from MEASURING onwards, but not LOST or MISPLACED (R330, R334, R340; DEDUCED, log 11). -/
def portTrained (p : PortS) : Bool :=
  p.state == .measuring || p.state == .qualifying || p.state == .ready || p.state == .degraded || p.state == .paused

/-- A port that carries traffic (R334). -/
def portCarries (p : PortS) : Bool := p.state == .ready || p.state == .degraded

/-- Some port is trained. -/
def anyTrained (d : Dev) : Bool := d.span.ports.any portTrained

/-- Hold length order: 0 is open and larger than any length (R62). -/
def lenKey (n : Nat) : Nat := if n = 0 then 65536 else n

/-- Queues a record for slots 1 to 7 of a port's control flits; for one hold point the request with the larger length
remains (R61, R329). -/
def queueRec (p : PortS) (r : CtrlRec) : PortS :=
  let same := fun (x : CtrlRec) => fld x.bytes 0 1 == 2 && fld r.bytes 0 1 == 2 && fld x.bytes 8 8 == fld r.bytes 8 8
  match p.recs.find? same with
  | none => { p with recs := p.recs ++ [r] }
  | some x =>
    if lenKey (fld x.bytes 0x10 2) < lenKey (fld r.bytes 0x10 2) then
      { p with recs := p.recs.map fun z => if same z then r else z }
    else p

/-- Floods a record on every trained port but one (R61). -/
def floodRec (y : Sys) (except : Option Nat) (r : CtrlRec) : Sys :=
  y.each (List.range 12) fun y p =>
    if portTrained (y.port p) && except != some p then y.onPort p fun x => queueRec x r else y

/-- The 32 bytes of a hold record of kind 2, 3 or 4 (R59). -/
def holdBytes (kind : Nat) (r : HoldRec) : List Byte :=
  leBytes 1 kind ++ leBytes 1 r.cause ++ leBytes 2 r.reqSeq ++ leBytes 2 r.reqId ++ leBytes 1 r.reqInc ++ leBytes 1 r.term
    ++ leBytes 8 r.holdWbc ++ leBytes 2 r.holdLen ++ leBytes 2 0 ++ leBytes 4 r.ledgerIndex ++ leBytes 8 r.issueWbc

/- Holds (R58 to R67). -/

/-- The hold point that a record sent now names (R58, R67). -/
def holdPointFor (y : Sys) : Nat := up64 (y.dev.beat.wbc + propBeats y + 64)

/-- The combined length of the requests for a point (R62). -/
def combined (reqs : List HoldReq) : Nat :=
  reqs.foldl (fun m r => if lenKey m < lenKey r.len then r.len else m) 1

/-- Adds a request to its hold point (R62). -/
def addRequest (b : Beat) (w : Nat) (r : HoldReq) : Beat :=
  if b.points.any fun p => p.w == w then
    { b with points := b.points.map fun p => if p.w == w then { p with reqs := p.reqs ++ [r] } else p }
  else { b with points := b.points ++ [{ w := w, reqs := [r] }] }

/-- A wall beat is a hold beat of a closed point (R62, R67). -/
def HoldPoint.covers (p : HoldPoint) (w : Nat) : Bool :=
  p.closed && decide (p.w ≤ w) &&
    (if p.len = 0 then (match p.release with
      | none => true
      | some r => decide (w < r))
    else decide (w < p.w + p.len))

/-- A wall beat is a hold beat (R62). -/
def isHoldBeat (b : Beat) (w : Nat) : Bool := b.points.any fun p => p.covers w

/-- Writes a ledger entry into the ring of 4,096; an entry of the same point or index gives way (R65, R72). -/
def ledgerPut (b : Beat) (e : LedgerEntry) : Beat :=
  let l := (b.ledger.filter fun x => x.index != e.index && x.holdWbc != e.holdWbc) ++ [e]
  { b with ledger := l.drop (l.length - 4096), ledgerNext := e.index + 1 }

/-- HOLD_ACC in the beat before a hold point, counting the hold beats until then (R45, R65). -/
def accBefore (b : Beat) (w : Nat) : Nat :=
  b.holdAcc + ((List.range (w - 1 - b.wbc)).filter fun i => isHoldBeat b (b.wbc + 1 + i)).length

/-- The longest request of a point, the first among equals (R65). -/
def leadOf (reqs : List HoldReq) : Option HoldReq :=
  reqs.foldl (fun m r => match m with
    | none => some r
    | some x => if lenKey x.len < lenKey r.len then some r else some x) none

/-- The ledger entry of a point that closes (R65). -/
def ledgerEntry (b : Beat) (p : HoldPoint) (index : Nat) : LedgerEntry :=
  let l := (leadOf p.reqs).getD ⟨0, 0, 0, 0, 0⟩
  { index := index, holdWbc := p.w, holdLen := combined p.reqs, sbcAtHold := p.w - 1 - accBefore b p.w, leadId := l.id,
    leadInc := l.inc, leadCause := l.cause, reqCount := p.reqs.length, releaseWbc := 0, term := b.term }

/-- A closed point that takes another request takes its length too, and so does a ledger entry of it (R62, R65; DEDUCED, log 15). -/
def reclose (b : Beat) (w : Nat) : Beat :=
  let b : Beat := { b with points := b.points.map fun p => if p.w == w && p.closed then { p with len := combined p.reqs } else p }
  match b.points.find? fun p => p.w == w && p.closed, b.ledger.find? fun e => e.holdWbc == w with
  | some p, some e => { b with ledger := b.ledger.map fun x => if x.holdWbc == w then { ledgerEntry b p e.index with sbcAtHold := e.sbcAtHold } else x }
  | _, _ => b

/-- Requests a hold, or raises the device's request for the same point; length 0 is an open hold, and no length passes 65,535
(R58 to R62, R64). -/
def requestHold (y : Sys) (cause len : Nat) : Sys :=
  let d := y.dev
  let len := min len 65535
  let w := holdPointFor y
  let mine := fun (r : HoldReq) => r.id == d.span.deviceId && r.inc == d.span.selfInc && decide (lenKey len ≤ lenKey r.len)
  if d.beat.points.any fun p => p.w == w && p.reqs.any mine then y
  else
    let r : HoldRec := ⟨cause, d.beat.reqSeq % 65536, d.span.deviceId, d.span.selfInc, 0, w, len, 0, d.beat.wbc⟩
    let y := y.onBeat fun b =>
      { reclose (addRequest b w ⟨r.reqId, r.reqInc, r.reqSeq, len, cause⟩) w with
        reqSeq := b.reqSeq + 1
        holdsIssued := sat16 (b.holdsIssued + 1)
        recent := (2, r.reqId, r.reqInc, r.reqSeq, b.wbc) :: b.recent }
    floodRec y none ⟨1, holdBytes 2 r⟩

/-- An open hold is in force (R67). -/
def openHold (b : Beat) : Bool := b.points.any fun p => p.len == 0 && p.started && p.covers b.wbc

/- Power states and partition states (R395 to R397). -/

/-- The code of a power state (R395). -/
def PowerState.code : PowerState → Nat
  | .off => 0 | .baseOn => 1 | .memReady => 2 | .fwLoaded => 3 | .linksQualified => 4
  | .coresUp => 5 | .ready => 6 | .running => 7 | .held => 8 | .faultStop => 9

/-- The device enters a power state and reports the change (R423). -/
def enterPower (y : Sys) (p : PowerState) : Sys :=
  if y.dev.boot.power = p then y
  else
    let old := y.dev.boot.power.code
    event (y.onBoot fun b => { b with power := p }) 0x0801 (leBytes 1 old ++ leBytes 1 p.code)

/-- From READY onwards the power state follows from the partitions and the open hold (R397). -/
def derivedPower (d : Dev) : PowerState :=
  if openHold d.beat then .held
  else if d.boot.parts.any (· == .faultStop) then .faultStop
  else if d.boot.parts.any (· == .running) then .running
  else .ready

/-- Brings the power state in line with R397. -/
def settlePower (y : Sys) : Sys :=
  if 6 ≤ y.dev.boot.power.code then enterPower y (derivedPower y.dev) else y

/-- Sets the state of a partition. -/
def setPart (y : Sys) (q : Nat) (p : PartState) : Sys :=
  settlePower (y.onBoot fun b => { b with parts := b.parts.set q p })

/-- The code of a port state (R334). -/
def PortState.code : PortState → Nat
  | .down => 0 | .training => 1 | .measuring => 2 | .qualifying => 3 | .ready => 4 | .degraded => 5 | .paused => 6
  | .lost => 7 | .misplaced => 8

/-- FW_LOADED becomes LINKS_QUALIFIED when no port with USE set is training, measuring or qualifying (R395, R397). -/
def settleLinks (y : Sys) : Sys :=
  let open1 := fun (p : PortS) => p.use && (p.state == .training || p.state == .measuring || p.state == .qualifying)
  if y.dev.boot.power == .fwLoaded && !y.dev.span.ports.any open1 then enterPower y .linksQualified else y

/-- A port enters a state and reports the change (R334, R381). -/
def setPort (y : Sys) (p : Nat) (new : PortState) : Sys :=
  let old := (y.port p).state
  if old = new then y
  else settleLinks (event (y.onPort p fun x => { x with state := new, stateAt := y.dev.beat.wbc }) 0x0201 (leBytes 1 p ++ leBytes 1 old.code ++ leBytes 1 new.code))

/-- A flit of another class than HOLD_IDLE with a valid FLIT_CRC ends a pause (R334, R348). -/
def wakePort (y : Sys) (p : Nat) : Sys :=
  let x := y.port p
  let y := y.onPort p fun x => { x with holdIdle := false }
  if x.state = .paused then setPort y p (if x.wasDegraded then .degraded else .ready) else y

/- Steps that end, and stops. -/

/-- DETAIL of a status record (R185). -/
def StepRun.detail (s : StepRun) : Nat :=
  b2n s.violation + 2 * b2n s.ret.disabled + 4 * b2n s.limitSkip + 8 * b2n s.checkSkipped + 16 * b2n s.late

/-- The 32 bytes of a step status record (R185). -/
def statusBytes (y : Sys) (site : Nat) (s : StepRun) : List Byte :=
  let c := (colAt y.dev site).getD 0
  let q := (partOf y c).getD 0
  let e := s.endAt.getD (y.dev.beat.wbc * 64)
  leBytes 1 0x10 ++ leBytes 1 (s.outcome.getD 0) ++ slice s.desc 2 2 ++ leBytes 4 s.index
    ++ leBytes 8 (s.issueSbc % 2 ^ 56 + c * 2 ^ 56 + q * 2 ^ 60) ++ leBytes 4 (e - s.issueAt) ++ leBytes 2 s.flags
    ++ leBytes 1 s.replays ++ leBytes 1 s.detail ++ leBytes 4 s.count ++ leBytes 4 (e / 64)

/-- A status record is written for an outcome other than DONE, a non-zero DETAIL, or STATUS_ALWAYS (R187). -/
def StepRun.reported (s : StepRun) : Bool :=
  s.outcome != some 0 || s.detail != 0 || bitAt (fld s.desc 1 1) 4

/-- The fields of a fault record about a step. -/
def stepFault (y : Sys) (site : Nat) (s : StepRun) (f : FaultInfo) : FaultInfo :=
  faultSite y site { f with opcode := s.op, index := s.index, tag := fld s.desc 2 2, replays := s.replays }

/-- Sends the status record of a step; that of a fenced core is dropped and counted, and the control complex writes it (R187, R318,
R319). -/
def sendStatus (y : Sys) (site : Nat) (s : StepRun) : Sys :=
  let r := sentRecord y.dev site (statusBytes y site s) ((partOfSite y site).getD 0)
  let y := y.when (y.dev.noc.fenced.contains site) fun y => y.onSiteNoc site fun n => { n with fenceDrops := sat32 (n.fenceDrops + 1) }
  y.onHost fun h => { h with stsOut := h.stsOut ++ [r] }

/-- Sends the status record of a step, and its record of class STEP for MISSED_START, REFUSED and PATH_RESET (R187, R493). -/
def recordStep (y : Sys) (site : Nat) (s : StepRun) (walkErr : Nat) : Sys :=
  let y := y.when s.reported fun y => sendStatus y site s
  let o := s.outcome.getD 0
  y.when (o == 4 || o == 6 || o == 7) fun y =>
    faultRec y (stepFault y site s { cls := 0x0C, outcome := o, detail := walkErr, flags := if o = 4 then 5 else 0 })

/-- Changes the step in flight with an index. -/
def onStep (c : Core) (i : Nat) (f : StepRun → StepRun) : Core :=
  { c with steps := c.steps.map fun s => if s.index == i && !s.done then f s else s }

/-- The step in flight with an index. -/
def liveStep (c : Core) (i : Nat) : Option StepRun := c.steps.find? fun s => s.index == i && !s.done

/-- The step in flight that an index in the list names, the oldest where two runs have one (R78). -/
def stepKey (c : Core) (i : Nat) : Nat :=
  if (liveStep c i).isSome then i else ((c.steps.find? fun s => !s.done && s.index % 2 ^ 32 == i).map StepRun.index).getD i

/-- Writes that the sluice holds for a step. -/
def heldCount (c : Core) (s : StepRun) : Nat :=
  s.held.length + (c.spanFlits.filter fun f => s.op == 7 && f.1 == fld s.desc 0x18 1).length

/-- Flits that the flow of a step has moved (R185). -/
def flitsMoved (c : Core) (i : Nat) : Nat :=
  match c.flows.find? fun f => f.index == i with
  | some f => if f.send then f.sent else f.placed.length
  | none => 0

/-- Ends a step in flight with an outcome; its held writes are discarded and counted in BOOT_DISCARDS unless the step
completed (R280, R396, R421, R485). -/
def endStep (y : Sys) (site i outcome walkErr cyc : Nat) : Sys :=
  match liveStep (y.core site) i with
  | none => y
  | some s =>
    let n := heldCount (y.core site) s
    let moved := if 7 ≤ s.op ∧ s.op ≤ 9 ∧ s.endAt = none then flitsMoved (y.core site) i else s.count
    let s' := { s with outcome := some outcome, done := true, held := [], count := moved, endAt := some (s.endAt.getD (cycNow y.dev cyc)) }
    let y := y.onCore site fun c =>
      { onStep c i (fun _ => s') with
        spanFlits := c.spanFlits.filter fun f => !(s.op == 7 && f.1 == fld s.desc 0x18 1)
        reads := if s.op = 4 then c.reads.filter (·.1 != .dma) else c.reads
        flows := c.flows.filter fun f => f.index != i }
    let y := y.onBoot fun b => { b with discards := sat32 (b.discards + n) }
    recordStep y site s' walkErr

/-- An abandoned replay: the fault record of its check fault is written with REPLAY_OUTCOME 5 (R491). -/
def abandonReplay (y : Sys) (site outcome : Nat) : Sys :=
  match (y.core site).replay with
  | none => y
  | some r =>
    let s := ((y.core site).steps.find? fun s => s.index == r.p).getD
      { index := r.p, run := 0, desc := [], op := 0, issueSbc := 0, issueAt := 0, firstIssue := 0, nominalEnd := 0, release := [] }
    let y := faultRec y { stepFault y site s
      { cls := r.cls, replay := 5, location := r.location, detail := r.detail, count := r.count, residual := r.residual,
        outcome := outcome, flags := 1 } with replays := r.attempt }
    y.onCore site fun c => { c with replay := none }

/-- Row operations that have not started leave the banks of a site, and its bus copy ends: engine W has stopped (R261, R421). -/
def dropRowOps (y : Sys) (site : Nat) : Sys :=
  y.onProt fun p => { p with
    banks := p.banks.map fun b => if b.1 / 384 = site then (b.1, { b.2 with rowOps := [] }) else b
    busCopies := p.busCopies.filter (·.1 != site) }

/-- Stops the core of a site as a CUT does: steps in flight end with OUTCOME CUT, held writes are discarded and counted,
row operations that wait do not start, retention ends (R183, R396, R421, R491). -/
def stopCore (y : Sys) (site seqState : Nat) : Sys :=
  let y := dropRowOps (abandonReplay y site 5) site
  let y := y.each ((y.core site).steps.filter fun s => !s.done) fun y s => endStep y site s.index 5 0 0
  y.onCore site fun c =>
    { c with seqState := seqState, steps := [], vec := {}, attend := none, flows := [], tiles := [], draining := [], drained := [],
             rows := [], reads := [], fetched := [], spanFlits := [], descs := [], descOut := [], prep := none, prepTrigger := none, select := [],
             accKept := false }

/-- Held writes of the cores of a partition. -/
def partHeld (y : Sys) (q : Nat) : Nat :=
  ((colsOf y q).map fun c =>
    let k := y.core (siteOf y.dev c)
    ((k.steps.filter fun s => !s.done).map (heldCount k)).sum).sum

/-- Stops every core of a partition (R421). -/
def stopPart (y : Sys) (q seqState : Nat) : Sys :=
  let n := partHeld y q
  let y := y.each (colsOf y q) fun y c => stopCore y (siteOf y.dev c) seqState
  (y.onSched fun s => { s with runs := upd s.runs q fun r => { r with startPending := false, image := none } }).onBoot
    fun b => { b with disDiscards := upd b.disDiscards q (· + n) }

/-- A partition enters FAULT_STOP (R396). -/
def faultStop (y : Sys) (q : Nat) : Sys :=
  if partState y.dev q = .faultStop then y
  else setPart (stopPart y q 3) q .faultStop

/-- Every partition of the device enters FAULT_STOP. -/
def faultStopAll (y : Sys) : Sys := y.each (allParts y) faultStop

/-- The partition of a site enters FAULT_STOP and the device requests an open hold (R280, R489, R490). -/
def stopSite (y : Sys) (site cause : Nat) : Sys :=
  let y := match partOfSite y site with
    | some q => faultStop y q
    | none => y
  requestHold y cause 0

/-- A firmware fault is reported (R242, R280, R495). -/
def firmwareRecord (y : Sys) (detail addr : Nat) : Sys := faultRecCc y { cls := 0x0E, detail := detail, addr := addr }

/-- A firmware fault of the control complex's own storage: every partition stops and an open hold is requested (R492). -/
def firmwareFault (y : Sys) (detail : Nat) (addr : Nat) : Sys :=
  let y := faultRecCc y { cls := 0x0E, detail := detail, addr := addr, flags := 5 }
  requestHold (faultStopAll y) 4 0

/-- Loss of beat alignment: 1 holdover, 2 reference clock, 3 phase, 4 late record (R55, R381). -/
def lossOfAlignment (y : Sys) (cause : Nat) : Sys :=
  let y := faultStopAll y
  let y := y.onBeat fun b =>
    { b with aligned := false, alignLost := true, lossNow := true, holdover := false, matched := 0, phaseBad := 0 }
  let y := event y 0x0102 (leBytes 1 cause)
  y.when (anyTrained y.dev) fun y => requestHold y 7 0

/- Host messages (R352, R357 to R359). -/

/-- Message class: 0 REQ, 1 SNP, 2 RSP, 3 DATA, 4 EVT (R353, R358). -/
def HostMsg.cls (m : HostMsg) : Nat :=
  if !m.data.isEmpty then 3
  else if m.op = 0x10 || m.op = 0x11 then 1
  else if m.op = 0x30 then 0
  else if m.op = 0x40 || m.op = 0x41 then 4
  else 2

/-- Units of a message (R357). -/
def HostMsg.units (m : HostMsg) : Nat := 1 + b2n m.mask.isSome + ceilDiv m.data.length 16

/-- The half on which a message about an address travels (R352). -/
def halfFor (d : Dev) (addr : Nat) : Nat :=
  let up := fun h => (nth d.host.halves h {}).state == 2
  let h := bits addr 7 1
  if up h then h else if up (1 - h) then 1 - h else h

/-- Queues a message for the host. -/
def sendHost (y : Sys) (m : HostMsg) : Sys :=
  y.onHalf (halfFor y.dev m.addr) fun x => { x with txQ := x.txQ ++ [m] }

/-- Sends GRANT, DATA_UC, ACK or ERR for a request (R358, R365). -/
def sendErr (y : Sys) (tag addr status cause : Nat) : Sys :=
  sendHost y { op := 0x23, tag := tag, addr := addr, status := status, cause := cause }

def sendAck (y : Sys) (tag addr : Nat) : Sys := sendHost y { op := 0x22, tag := tag, addr := addr }

/-- The link is lost when both halves are down (R368). -/
def linkLost (d : Dev) : Bool := d.host.halves.all fun h => h.state != 2

/-- Adds a DRD or DWR; it is sent as the outstanding limit allows (R367). -/
def hostAccess1 (y : Sys) (write : Bool) (addr len : Nat) (data : List Byte) (mask : List Bool) (use : HostUse) : Sys :=
  let tag := y.dev.host.nextTag
  y.onHost fun h => { h with
    accs := h.accs ++ [⟨tag, write, addr, len, data, mask, use, false⟩]
    nextTag := (tag + 1) % 2048 }

/-- Reads host memory by DRD, at most one 128-byte line each (R357, R367). -/
def drd (y : Sys) (addr len : Nat) (use : HostUse) : Sys := hostAccess1 y false addr len [] [] use

/-- The pieces of a host range that lie within one 128-byte line each: offset from the start, address, length. -/
def hostPieces : Nat → Nat → Nat → Nat → List (Nat × Nat × Nat)
  | 0, _, _, _ => []
  | fuel + 1, off, addr, len =>
    if len = 0 then []
    else
      let n := min len (128 - addr % 128)
      (off, addr, n) :: hostPieces fuel (off + n) (addr + n) (len - n)

/-- Reads a range of host memory, a DRD for each line. -/
def drdRange (y : Sys) (addr len : Nat) (use : Nat → HostUse) : Sys :=
  y.each (hostPieces (len / 128 + 2) 0 addr len) fun y p => drd y p.2.1 p.2.2 (use p.1)

/-- Writes a range of host memory, a DWR for each line (R357, R367). -/
def dwrRange (y : Sys) (addr : Nat) (data : List Byte) (use : HostUse) : Sys :=
  y.each (hostPieces (data.length / 128 + 2) 0 addr data.length) fun y p =>
    let line := p.2.1 / 128 * 128
    let at0 := p.2.1 % 128
    let bytes := List.replicate at0 0 ++ slice data p.1 p.2.2
    hostAccess1 y true line 128 (padTo 128 bytes)
      ((List.range 128).map fun i => decide (at0 ≤ i) && decide (i < at0 + p.2.2)) use

/-- Outstanding host writes of a use. -/
def usesLeft (d : Dev) (use : HostUse) : Nat := (d.host.accs.filter fun a => a.use == use).length

/- Structures in device memory and the steps of a column. -/

/-- A step descriptor of 64 bytes (R153). -/
abbrev Desc := List Byte

/-- Bytes at device addresses, as they are stored. -/
def devBytes (y : Sys) (a n : Nat) : List Byte :=
  (List.range n).map fun i => match addrKey y.dev (a + i) with
    | some k => y.get k
    | none => 0

/-- A field at a device address. -/
def devField (y : Sys) (a n : Nat) : Nat := leNat (devBytes y a n)

/-- A section of an image by type and index (R77). -/
def Image.section? (i : Image) (type idx : Nat) : Option ImgSection :=
  i.sections.find? fun s => s.type == type && s.index == idx

/-- Address and length of a section. -/
def Image.secAt (i : Image) (type idx : Nat) : Option (Nat × Nat) :=
  (i.section? type idx).map fun s => (i.addr + s.offset, s.length)

/-- The image that drives a column in the running partition, with its part and run (R46, R78). -/
def columnRun (y : Sys) (col : Nat) : Option (Nat × Image × PartRun) :=
  match partOf y col with
  | none => none
  | some q => match runImage y.dev q with
    | none => none
    | some i => if i.columns.contains col then some (q, i, nth y.dev.sched.runs q {}) else none

/-- The step of an image at an index, from the prefetched descriptors or from memory (R149, R150). -/
def stepDesc (y : Sys) (site : Nat) (i : Image) (col idx : Nat) : Option Desc :=
  match assoc (y.core site).fetched idx with
  | some d => some d
  | none => match i.secAt 1 col with
    | none => none
    | some (a, n) => if 64 * idx < n then some (devBytes y (a + 64 * idx) 64) else none

end Sys2Proof.Machine
end

