-- ==== Sys2Proof/Machine/Ecc.lean ====
section
/-! DEFINITION. Stored-data protection: reads through the checkers, writes with check bytes, corrections, uncorrectable
outcomes, injection, and hits of retained ranges (R273 to R282, R294, R298 to R300, R184). The store keeps the data as it
was written; an error is the list of struck positions of a block or word (DESIGN CHOICE, log 12). -/

namespace Sys2Proof.Machine

/-- What a checker finds (R274, R275). -/
inductive Check where
  | clean | correctable | uncorrectable
  deriving DecidableEq, Repr

/-- Outcome by error count: the first bound is the largest correctable count, the second the largest defined one; beyond it
the outcome is a free value (R274, R275). -/
def checkOutcome (y : Sys) (n corr defd : Nat) : Check × Sys :=
  if n = 0 then (.clean, y)
  else if n ≤ corr then (.correctable, y)
  else if n ≤ defd then (.uncorrectable, y)
  else
    let r := y.takeFree
    (match r.1 % 3 with
      | 0 => .clean
      | 1 => .correctable
      | _ => .uncorrectable, r.2)

/-- SOURCE of a location record (R300). -/
def requesterSource : Requester → Nat
  | .step _ _ => 0 | .host => 1 | .control => 2 | .migration => 2 | .scrubber => 3

/-- The descriptor of a step that has not issued. -/
def waitingDesc (y : Sys) (c i : Nat) : Option Desc :=
  match columnRun y c with
  | some (_, img, _) => stepDesc y (siteOf y.dev c) img c i
  | none => none

/-- The fields of a fault record that its requester adds. -/
def whoInfo (y : Sys) (who : Requester) (f : FaultInfo) : FaultInfo :=
  match who with
  | .step c i =>
    match (y.core (siteOf y.dev c)).steps.find? fun s => s.index == i with
    | some s => { f with opcode := s.op, index := i, tag := fld s.desc 2 2, outcome := 3, flags := 5 }
    | none => match waitingDesc y c i with
      | some d => { f with opcode := fld d 0 1, index := i, tag := fld d 2 2, outcome := 3, flags := 5 }
      | none => { f with index := i }
  | _ => f

/-- Number of a bank in the list of banks. -/
def bankId (site tile bank : Nat) : Nat := (site * 12 + tile) * 32 + bank

/-- A bank of the stack (R234). -/
def Sys.bank (y : Sys) (id : Nat) : Bank := (assoc y.dev.prot.banks id).getD {}

/-- Changes a bank. -/
def Sys.onBank (y : Sys) (id : Nat) (f : Bank → Bank) : Sys :=
  y.onProt fun p => { p with banks := assocSet p.banks id (f ((assoc p.banks id).getD {})) }

/-- The first cycle from a given one on in which nothing occupies a bank (R264, R269, R277). -/
def Bank.freeAt (b : Bank) (t : Nat) : Nat :=
  b.ahead.foldl (fun t i => if i.1 ≤ t ∧ t < i.2 then i.2 else t) (max t (max b.busyUntil b.refreshUntil))

/-- A bank is occupied for a time from a cycle on, or from when it is free; no row is open then (R234, R254). -/
def Bank.occupy (b : Bank) (t dur : Nat) : Bank := { b with openRow := none, busySince := b.freeAt t, busyUntil := b.freeAt t + dur }

/-- The cycle at which a request without one of its own reaches a bank: that of its step, never before the present beat or before the
occupancy that it finds there (DEDUCED, log 93). -/
def arrivalAt (y : Sys) (who : Requester) (id : Nat) : Nat :=
  let now := max (y.dev.beat.wbc * 64) (y.bank id).busySince
  match who with
  | .step c i =>
    let k := y.core (siteOf y.dev c)
    match k.steps.find? fun s => s.index == i && !s.done with
    | some s => max now (max k.now (s.issueAt + s.lengthen))
    | none => now
  | _ => now

/-- A field of the scrub rates of the active set (R297). -/
def scrubCfg (y : Sys) (off n dflt : Nat) : Nat := cfg y 5 off n dflt

/-- Records a correctable error's fault record, within the window's limit (R298). -/
def ceRecord (y : Sys) (site : Nat) (f : FaultInfo) : Sys :=
  let p := nth y.dev.prot.sites site {}
  if p.recsInWindow < scrubCfg y 2 1 16 then
    (faultRec y { f with count := p.withheld }).onSiteProt site fun p =>
      { p with recsInWindow := p.recsInWindow + 1, withheld := 0 }
  else y.onSiteProt site fun p =>
    { p with suppressed := sat32 (p.suppressed + 1), withheld := p.withheld + 1 }

/-- A location record: an uncorrectable error always overwrites, a correctable one only a correctable or absent one (R300). -/
def setLoc (old : Loc) (place src : Nat) (unc : Bool) : Loc :=
  if unc || !old.unc || !old.valid then ⟨place, unc, src, true⟩ else old

/-- PLACE bits [27:0] of a DRAM location (R300). -/
def dramPlace (off : Nat) : Nat :=
  rowOf off + bankOf off * 2 ^ 12 + tileOf off * 2 ^ 17 + off % 8192 / 64 * 2 ^ 21

/-- Device address of a DRAM byte of a site, where one exists. -/
def siteDramAddr (d : Dev) (site off : Nat) : Nat :=
  match colAt d site with
  | some c => dramAddr c off
  | none => if spareSite d 0 = some site then 0x3000000000 + off
            else if spareSite d 1 = some site then 0x3300000000 + off else 0

/-- A DRAM error of a block is counted, located and recorded; a bank's threshold event follows;
a block that a migration poisons has its record of class MIGRATION instead (R277, R280, R294, R298, R493). -/
def dramError (y : Sys) (site off : Nat) (unc : Bool) (who : Requester) : Sys :=
  let src := requesterSource who
  let pl := dramPlace off
  let info := faultSite y site { cls := if unc then 5 else 4, location := pl, detail := src, die := tileOf off + 1, addr := siteDramAddr y.dev site off }
  let y := y.onSiteProt site fun p =>
    { p with ce := if unc then p.ce else sat32 (p.ce + 1)
             ue := if unc then sat32 (p.ue + 1) else p.ue
             loc := setLoc p.loc pl src unc }
  if unc then (if who = .migration then y else faultRec y (whoInfo y who info))
  else
    let y := ceRecord y site info
    let id := bankId site (tileOf off) (bankOf off)
    let y := y.onBank id fun b => { b with ceCount := b.ceCount + 1 }
    let t := scrubCfg y 0x1C 2 0
    let b := y.bank id
    if t ≠ 0 ∧ t ≤ b.ceCount ∧ b.reported = false then
      event (y.onBank id fun b => { b with reported := true }) 0x0501
        (leBytes 1 site ++ leBytes 1 (tileOf off) ++ leBytes 1 (bankOf off))
    else y

/-- Line index and word of a buffer offset (R94, R300). -/
def bufPlace (a : Nat) : Nat := a / 256 + a % 256 / 8 * 2 ^ 19

/-- A buffer error of a word is counted, located and recorded (R278, R280). -/
def bufError (y : Sys) (site a : Nat) (unc : Bool) (who : Requester) : Sys :=
  let src := requesterSource who
  let info := faultSite y site { cls := if unc then 7 else 6, location := bufPlace a, detail := src, die := 13, addr := (match colAt y.dev site with | some c => bufAddr c a | none => 0) }
  let y := y.onSiteProt site fun p =>
    { p with bufCe := if unc then p.bufCe else sat32 (p.bufCe + 1)
             bufUe := if unc then sat32 (p.bufUe + 1) else p.bufUe
             bufLoc := setLoc p.bufLoc (bufPlace a) src unc }
  if unc then faultRec y (whoInfo y who info) else ceRecord y site info

/-- A DRAM byte of a site lies in an Open granule: no check bytes are stored or checked (R236); spare sites are Protected
(R229), and a migration's target follows its column. -/
def dramOpen (y : Sys) (site off : Nat) : Bool :=
  match colAt y.dev site with
  | some c => isOpen y c (granuleOf off)
  | none =>
    let m := y.dev.map.mig
    if m.mirroring && m.toSite == site then isOpen y m.col (granuleOf off) else false

/-- Inserts an error in key order. -/
def errSet (k : Nat) (ps : List Nat) : List (Nat × List Nat) → List (Nat × List Nat)
  | [] => if ps.isEmpty then [] else [(k, ps)]
  | (j, qs) :: r =>
    if j < k then (j, qs) :: errSet k ps r
    else if j = k then (if ps.isEmpty then r else (k, ps) :: r)
    else if ps.isEmpty then (j, qs) :: r else (k, ps) :: (j, qs) :: r

/-- The errors that touch a stretch: units of u bytes. -/
def errsIn (errs : List (Nat × List Nat)) (u lo len : Nat) : List (Nat × List Nat) :=
  errs.filter fun e => decide (lo < e.1 + u) && decide (e.1 < lo + len)

/-- Adds struck positions to a unit; a position that is already wrong stays so. -/
def strike (errs : List (Nat × List Nat)) (k : Nat) (ps : List Nat) : List (Nat × List Nat) :=
  let old := (assoc errs k).getD []
  errSet k (old ++ ps.filter fun p => !old.contains p && !old.contains (p + 128)) errs

/-- A read of DRAM bytes passes the checker block by block: correctable blocks are corrected and written back, and the
first uncorrectable block stops it, given by its key (R274, R277, R280). -/
def checkDram (y : Sys) (key len : Nat) (who : Requester) : Option Nat × Sys :=
  (errsIn y.dev.prot.dramErr 64 key len).foldl (fun r e =>
    match r.1 with
    | some k => (some k, r.2)
    | none =>
      let y := r.2
      let site := e.1 / 2 ^ 34
      let off := e.1 % 2 ^ 34
      if dramOpen y site off then (none, y)
      else
        let c := checkOutcome y e.2.length 2 6
        match c.1 with
        | .clean => (none, c.2)
        | .correctable =>
          let id := bankId site (tileOf off) (bankOf off)
          let y := (dramError c.2 site off false who).onProt fun p => { p with dramErr := errSet e.1 [] p.dramErr }
          (none, y.onBank id fun b => { b with busyUntil := max b.busyUntil (arrivalAt y who id) + 16 })
        | .uncorrectable => (some e.1, dramError c.2 site off true who)) (none, y)

/-- A read of buffer bytes passes the checker word by word; a corrected line waits for its write-back (R275, R278). -/
def checkBuf (y : Sys) (key len : Nat) (who : Requester) : Option Nat × Sys :=
  (errsIn y.dev.prot.bufErr 8 key len).foldl (fun r e =>
    match r.1 with
    | some k => (some k, r.2)
    | none =>
      let y := r.2
      let site := (e.1 - 2 ^ 40) / 2 ^ 27
      let a := (e.1 - 2 ^ 40) % 2 ^ 27
      let c := checkOutcome y e.2.length 1 2
      match c.1 with
      | .clean => (none, c.2)
      | .correctable =>
        (none, (bufError c.2 site a false who).onProt fun p =>
          { p with writeBacks := if p.writeBacks.any fun w => w.site == site && w.line == a / 256 then p.writeBacks
                                 else p.writeBacks ++ [⟨site, a / 256⟩] })
      | .uncorrectable => (some e.1, bufError c.2 site a true who)) (none, y)

/-- A key lies in a buffer. -/
def isBufKey (k : Nat) : Bool := decide (2 ^ 40 ≤ k) && decide (k < 2 ^ 42)

/-- A key lies in DRAM. -/
def isDramKey (k : Nat) : Bool := decide (k < 2 ^ 40)

/-- Reads a stretch of one memory through its checker: its bytes, or the key of the first uncorrectable unit. -/
def readMem (y : Sys) (key len : Nat) (who : Requester) : Except Nat (List Byte) × Sys :=
  let r := if isDramKey key then checkDram y key len who
           else if isBufKey key then checkBuf y key len who else (none, y)
  match r.1 with
  | some k => (.error k, r.2)
  | none => (.ok (y.getN key len), r.2)

/-- An armed injection applies to this whole write of a unit (R299). -/
def injectHere (y : Sys) (key : Nat) : Bool :=
  y.dev.prot.injArm && (match addrKey y.dev y.dev.prot.injAddr with
    | some k => (if isDramKey k then k / 64 * 64 else k / 8 * 8) == key
    | none => false)

/-- A whole unit of DRAM or of a buffer is written: its errors are gone, or those of an injection are stored (R279, R299). -/
def wholeWrite (y : Sys) (key : Nat) : Sys :=
  let inj := injectHere y key
  if !isDramKey key && !isBufKey key then y
  else y.onProt fun p =>
    let ps := if inj then List.range p.injCount else []
    let p := if isDramKey key then { p with dramErr := errSet key (ps.map (· + 128)) p.dramErr }
             else { p with bufErr := errSet key ps p.bufErr }
    if inj then { p with injArm := false, injDone := true } else p

/-- A write to a buffer line cancels its queued write-back (R278). -/
def cancelWriteBack (y : Sys) (key : Nat) : Sys :=
  if isBufKey key then
    let site := (key - 2 ^ 40) / 2 ^ 27
    let line := (key - 2 ^ 40) % 2 ^ 27 / 256
    y.onProt fun p => { p with writeBacks := p.writeBacks.filter fun w => !(w.site == site && w.line == line) }
  else y

/-- Writes the masked bytes of one unit of u bytes that begins at key: a whole unit replaces it, a part of a protected unit
is a read-modify-write that an uncorrectable read stops (R279). -/
def writeUnit (y : Sys) (u key : Nat) (data : List Byte) (mask : List Bool) (who : Requester) : Option Nat × Sys :=
  if mask.all (· == false) then (none, y)
  else if decide (data.length = u) && mask.all (· == true) && decide (mask.length = u) then
    (none, cancelWriteBack ((wholeWrite y key).put key data) key)
  else
    let r := if isDramKey key then checkDram y key u who
             else if isBufKey key then checkBuf y key u who else (none, y)
    match r.1 with
    | some k => (some k, r.2)
    | none =>
      let y := r.2
      let y := if isBufKey key then y.onProt fun p => { p with bufErr := errSet key [] p.bufErr } else y
      (none, cancelWriteBack (y.putMask key data mask) key)

/-- The pieces of a write by units of u bytes: key, bytes and mask of each, filled up to the unit's start. -/
def unitPieces (u : Nat) : Nat → Nat → List Byte → List Bool → List (Nat × List Byte × List Bool)
  | 0, _, _, _ => []
  | fuel + 1, key, data, mask =>
    if data.isEmpty then []
    else
      let k0 := key / u * u
      let gap := key - k0
      let n := u - gap
      (k0, List.replicate gap 0 ++ data.take n, List.replicate gap false ++ mask.take n)
        :: unitPieces u fuel (k0 + u) (data.drop n) (mask.drop n)

/-- Unit of a memory: 64-byte blocks of DRAM, 8-byte words of a buffer (R273, R275). -/
def unitOf (key : Nat) : Nat := if isDramKey key then 64 else 8

/-- Array cycle of a step at a cycle of its core: the cycles since its issue that were no stalls (R101, R104). -/
def StepRun.arrayCycle (s : StepRun) (now : Nat) : Nat := now - s.issueAt - s.lengthen - s.tail

/-- A write reaches a buffer in which a MATMUL is reading its operands: reads up to this cycle saw the bytes as they were, later reads
see the new ones, so that its results are to be formed anew (R96). -/
def noteOverwrite (y : Sys) (key n : Nat) : Sys :=
  if !isBufKey key then y
  else
    let site := (key - 2 ^ 40) / 2 ^ 27
    let a := (key - 2 ^ 40) % 2 ^ 27
    let hit := fun (s : StepRun) => !s.done && s.feeds.any (overlaps (a, a + n - 1))
    if (y.core site).steps.any hit then
      let old := y.getN key n
      let note := fun (w : Nat) (s : StepRun) =>
        if hit s then { s with stale := true, overwrites := s.overwrites ++ [(s.arrayCycle w, a, old)] } else s
      y.onCore site fun c => { c with steps := c.steps.map (note (max c.now (y.dev.beat.wbc * 64))) }
    else y

/-- Writes a stretch of one memory through its encoder: the key of the first unit that a read-modify-write found
uncorrectable, if any; other units are written (R96, R279, R280). -/
def writeMem (y : Sys) (key : Nat) (data : List Byte) (mask : List Bool) (who : Requester) : Option Nat × Sys :=
  let u := unitOf key
  let y := noteOverwrite y key data.length
  (unitPieces u (data.length / u + 2) key data mask).foldl (fun r p =>
    let w := writeUnit r.2 u p.1 p.2.1 p.2.2 who
    (r.1.or w.1, w.2)) (none, y)

/-- Every byte of data. -/
def fullMask (data : List Byte) : List Bool := data.map fun _ => true

/-- A write into device addresses lo to hi hits retained ranges: each step hit is marked, counted, and its record is
delivered when it has already ended (R184); `skip` is a REDUCE whose own flit this is (DEDUCED, log 13); each line of 256 bytes of a write
that meets a retained range is one event of RETAIN_VIOLATIONS (R189; DEDUCED, log 91). -/
def retHit (y : Sys) (lo hi : Nat) (skip : Option (Nat × Nat)) : Sys :=
  y.each (List.range 18) fun y site =>
    let hits := fun (s : StepRun) => s.ret.live && s.ret.ranges.any (overlaps (lo, hi)) && skip != some (site, s.index)
    if (y.core site).steps.any hits then
      let lines := fun (s : StepRun) => (s.ret.ranges.map fun r =>
        if overlaps (lo, hi) r then min hi r.2 / 256 - max lo r.1 / 256 + 1 else 0).sum
      let n := (((y.core site).steps.filter hits).map lines).sum
      let late := (y.core site).steps.filter fun s => hits s && s.done && !s.violation
      let mark := fun (s : StepRun) => if hits s then { s with violation := true, ret := { s.ret with disabled := true } } else s
      let y := y.onCore site fun c => { c with steps := c.steps.map mark, retViol := sat16 (c.retViol + n) }
      y.each late fun y s => recordStep y site (mark s) 0
    else y

/-- Runs of set mask bits: start and length. -/
def maskRuns : Nat → List Bool → List (Nat × Nat)
  | _, [] => []
  | i, b :: bs =>
    let rest := maskRuns (i + 1) bs
    if b then (match rest with
      | (j, n) :: r => if j = i + 1 then (i, n + 1) :: r else (i, 1) :: (j, n) :: r
      | [] => [(i, 1)])
    else rest

end Sys2Proof.Machine
end

