-- ==== Sys2Proof/Machine/Params.lean ====
section
/-! DEFINITION. Structures that lie in device memory: image sections, page-walk parameters, the page table and the ranges
that a loaded image locks (R77, R79, R192, R195, R197, R198, R224). -/

namespace Sys2Proof.Machine

/-- Address of the page-walk parameters of an image (R198). -/
def Image.pw (i : Image) : Option Nat := (i.secAt 4 0xFFFF).map Prod.fst

/-- The page-walk parameters, read once (R198). -/
structure Pw where
  base : Nat
  seqTable : Nat
  seqCount : Nat
  lpg : Nat
  groups : Nat
  kvHeads : Nat
  walks : Nat
  deriving DecidableEq, Repr

def readPw (y : Sys) (b : Nat) : Pw :=
  { base := b, seqTable := devField y b 5, seqCount := devField y (b + 8) 4, lpg := devField y (b + 0xC) 1,
    groups := devField y (b + 0xD) 1, kvHeads := devField y (b + 0xE) 1, walks := devField y (b + 0x10) 2 }

/-- MAX_LIST of a walk entry (R198). -/
def walkMax (y : Sys) (p : Pw) (w : Nat) : Nat := devField y (p.base + 0x840 + 16 * w) 4

/-- A pool entry (R198). -/
structure Pool where
  kBase : Nat
  vBase : Nat
  smBase : Nat
  ring : Nat
  frames : Nat
  freeSize : Nat
  base : Nat
  deriving DecidableEq, Repr

def readPool (y : Sys) (p : Pw) (c : Nat) : Pool :=
  let b := p.base + 0x40 + 128 * c
  { kBase := devField y b 5, vBase := devField y (b + 8) 5, smBase := devField y (b + 0x10) 5, ring := devField y (b + 0x18) 5,
    frames := devField y (b + 0x20) 4, freeSize := devField y (b + 0x24) 4, base := b }

/-- The two scratch rows of sketch bank k of a pool: QROW and XROW (R198). -/
def Pool.scratch (y : Sys) (p : Pool) (k : Nat) : Nat × Nat :=
  (devField y (p.base + 0x30 + 16 * k) 5, devField y (p.base + 0x38 + 16 * k) 5)

/-- The parts of a frame: K, V and SM (R190). -/
def Pool.parts (p : Pool) (f : Nat) : Nat × Nat × Nat := (p.kBase + f * 0x8000, p.vBase + f * 0x8000, p.smBase + f * 0x1800)

/-- Sequence entry: LG_ADDR, VALID, stride, phase (R195). -/
structure SeqEntry where
  lg : Nat
  valid : Bool
  stride : Nat
  phase : Nat
  deriving DecidableEq, Repr

def readSeq (y : Sys) (p : Pw) (s : Nat) : SeqEntry :=
  let a := p.seqTable + 16 * s
  ⟨devField y a 5, bitAt (devField y (a + 5) 1) 0, devField y (a + 6) 2, devField y (a + 8) 2⟩

/-- Page-list header (R195). -/
structure ListHdr where
  addr : Nat
  pl : Nat
  homeCol : Nat
  bank : Nat
  valid : Bool
  vCode : Nat
  sk : Nat
  cap : Nat
  deriving DecidableEq, Repr

def readHdr (y : Sys) (a : Nat) : ListHdr :=
  let c := devField y (a + 5) 1
  ⟨a, devField y a 5, bits c 0 4, bits c 4 2, bitAt c 6, devField y (a + 6) 1, devField y (a + 8) 5, devField y (a + 0xE) 2⟩

/-- Page-list entry (R195). -/
structure PageEntry where
  frame : Nat
  col : Nat
  valid : Bool
  rsv : Bool
  fill : Nat
  pinned : Bool
  prefx : Bool
  page : Nat
  deriving DecidableEq, Repr

def readEntry (y : Sys) (a : Nat) : PageEntry :=
  let w := devField y a 4
  let fl := devField y (a + 6) 1
  ⟨bits w 0 24, bits w 24 4, bitAt w 31, bits w 28 3 != 0 || bits fl 2 6 != 0 || devField y (a + 7) 1 != 0 || devField y (a + 12) 4 != 0,
   devField y (a + 4) 2, bitAt fl 0, bitAt fl 1, devField y (a + 8) 4⟩

/-- Header address of (layer, head) below a sequence entry, with the group entry's VALID flag (R195). -/
def hdrAddr (y : Sys) (p : Pw) (e : SeqEntry) (layer head : Nat) : Nat × Bool :=
  let g := e.lg + 16 * (layer / p.lpg)
  (devField y g 5 + 16 * (layer % p.lpg * p.kvHeads + head), bitAt (devField y (g + 5) 1) 0)

/-- The page lists of a sequence: every valid header below its valid groups (R195). -/
def listsOf (y : Sys) (p : Pw) (s : Nat) : List ListHdr :=
  let e := readSeq y p s
  if !e.valid then []
  else (List.range (p.groups * p.lpg)).flatMap fun layer => ((List.range p.kvHeads).map fun h =>
    let a := hdrAddr y p e layer h
    (readHdr y a.1, a.2)).filterMap fun x => if x.2 && x.1.valid then some x.1 else none

/-- A structure of the page store, by its kind: the Protected kinds, the Open kinds and the pools (R197). -/
inductive KvKind where
  | protectedTable | openRows | pool
  deriving DecidableEq, Repr

/-- Every structure that the page-walk parameters name: kind, device address, length (R195, R197, R198). -/
def kvStructs (y : Sys) (p : Pw) : List (KvKind × Nat × Nat) :=
  let seqs := (List.range p.seqCount).flatMap fun s =>
    let e := readSeq y p s
    if !e.valid then []
    else (KvKind.protectedTable, e.lg, 16 * p.groups) :: ((List.range p.groups).flatMap fun g =>
      let ga := e.lg + 16 * g
      if bitAt (devField y (ga + 5) 1) 0 then [(KvKind.protectedTable, devField y ga 5, 16 * p.lpg * p.kvHeads)] else [])
      ++ (listsOf y p s).flatMap fun h => [(.protectedTable, h.pl, 16 * h.cap), (.openRows, h.sk, 32 * h.cap)]
  let pools := (List.range 16).flatMap fun c =>
    let q := readPool y p c
    [(KvKind.protectedTable, q.ring, 64 + 4 * q.freeSize), (.pool, q.kBase, q.frames * 0x8000),
      (.pool, q.vBase, q.frames * 0x8000), (.pool, q.smBase, q.frames * 0x1800)]
      ++ ((List.range 4).flatMap fun k =>
        let s := q.scratch y k
        [(KvKind.openRows, s.1, 8192), (.openRows, s.2, 8192)])
  (.protectedTable, p.seqTable, 16 * p.seqCount) :: seqs ++ pools

/-- The structures that a swap must leave in granules of their type: those of the pools that hold frames, a scratch row left at zero
apart (R239; DEDUCED, log 30). -/
def kvInUse (y : Sys) (p : Pw) : List (KvKind × Nat × Nat) :=
  let empty := (List.range 16).filter fun c => (readPool y p c).frames == 0
  let idle := empty.flatMap fun c =>
    let q := readPool y p c
    (q.ring, 64 + 4 * q.freeSize) :: (List.range 4).flatMap fun k => [((q.scratch y k).1, 8192), ((q.scratch y k).2, 8192)]
  (kvStructs y p).filter fun s => !idle.contains s.2 && !(s.1 == .openRows && s.2.1 == 0)

/-- The device range of a granule. -/
def granuleRange (c g : Nat) : Nat × Nat := (dramAddr c (g * 2 ^ 26), dramAddr c (g * 2 ^ 26) + 2 ^ 26 - 1)

/-- A range given by address and length touches a granule. -/
def touches (c g : Nat) (a len : Nat) : Bool := len != 0 && overlaps (granuleRange c g) (a, a + len - 1)

/-- A granule is locked against host writes by a loaded image or its page store (R79, R197). -/
def granuleLocked (y : Sys) (c g : Nat) : Bool :=
  y.dev.sched.images.any fun i =>
    touches c g i.addr i.size ||
      (match i.pw with
        | some b => (kvStructs y (readPw y b)).any fun s => touches c g s.2.1 s.2.2
        | none => false)

/-- The granules of a device range, as column and granule. -/
def granulesOf (a len : Nat) : List (Nat × Nat) :=
  if len = 0 then []
  else (List.range ((a + len - 1) / 2 ^ 26 - a / 2 ^ 26 + 1)).map fun i =>
    let x := (a / 2 ^ 26 + i) * 2 ^ 26
    (x / colBytes, x % colBytes / 2 ^ 26)

end Sys2Proof.Machine
end

