-- ==== Sys2Proof/Machine/Home.lean ====
section
/-! DEFINITION. The home agent: access errors, the snoop filter, line transactions, mailbox handover, and writes of the device
that wait for a snoop (R242, R251, R360 to R364, R369 to R371). -/

namespace Sys2Proof.Machine

/-- The line that an address names; a window address names the line of its direct address (R232). -/
def lineOf (d : Dev) (a : Nat) : Nat :=
  (if inWindow a then windowTarget d.map.n (a - 0x4800000000) else a) / 128

/-- The direct device address of an address (R231). -/
def directAddr (d : Dev) (a : Nat) : Nat := if inWindow a then windowTarget d.map.n (a - 0x4800000000) else a

/-- The first cause of R242 that a host request meets, in the order of that rule. -/
def accessCause (y : Sys) (a len : Nat) (write cacheable : Bool) : Option Nat :=
  let d := y.dev
  let p := place d.map.n a
  let e := a + len - 1
  let unmapped := p == .unmapped || place d.map.n e == .unmapped || (inWindow a && a / 8192 != e / 8192)
    || (match p with
      | .spare k _ => (spareSite d k).isNone
      | .csr _ => cacheable
      | _ => false)
  if unmapped then some 1
  else match p with
    | .spare _ _ =>
      if !d.map.maint then some 2 else if !d.prot.fillDone then some 3 else if cacheable then some 4 else none
    | .dram c o =>
      let g := granuleOf o
      let g2 := granuleOf (o + len - 1)
      if g ≠ g2 ∧ granuleByte y c g ≠ granuleByte y c g2 then some 6
      else if !d.prot.fillDone || hostAccess y c g == 0 then some 3
      else if cacheable && hostAccess y c g != 2 then some 4
      else if write && granuleLocked y c g then some 5
      else none
    | .buf c _ =>
      if !d.prot.fillDone || bufAccess y c == 0 then some 3 else if cacheable then some 4 else none
    | .mailbox _ => none
    | _ => none

/-- Records an access error, unless a record is held, counts it and reports it once recorded (R242). -/
def recordAccess (y : Sys) (a cause source : Nat) (write : Bool) : Sys :=
  let held := y.dev.map.errValid
  let y := y.onMap fun m =>
    let m := { m with errCount := sat32 (m.errCount + 1) }
    if held then m else { m with errAddr := a, errCause := cause, errSource := source, errWrite := write, errValid := true }
  if held then y else event y 0x0301 (leBytes 8 a ++ leBytes 1 cause ++ leBytes 1 source)

/-- The key of the target site to which a write of a migrating column is mirrored (R251). -/
def mirrorKey (d : Dev) (c off : Nat) : Option Nat :=
  let m := d.map.mig
  if m.mirroring && m.col == c && siteOf d c == m.fromSite && decide (off / 64 < m.next) then some (dramKey m.toSite off) else none

/-- A bus error that a released write met in its read-modify-write: the writer's partition stops (R280). -/
def rmwFailed (y : Sys) (who : Requester) : Sys :=
  match who with
  | .step c _ => stopSite y (siteOf y.dev c) 4
  | _ => y

/-- Writes masked bytes at a device address: through the encoder, into the mirror of a migration, counted against retained
ranges; true where a read-modify-write was stopped (R184, R251, R279). -/
def writeRaw (y : Sys) (a : Nat) (data : List Byte) (mask : List Bool) (who : Requester) (skip : Option (Nat × Nat)) : Bool × Sys :=
  let p := place y.dev.map.n a
  match placeKey y.dev p with
  | none => (false, y)
  | some k =>
    let r := writeMem y k data mask who
    let y := match p with
      | .dram c o => (match mirrorKey y.dev c o with
        | some k2 => (writeMem r.2 k2 data mask .migration).2
        | none => r.2)
      | _ => r.2
    let y := y.each (maskRuns 0 mask) fun y n => retHit y (directAddr y.dev a + n.1) (directAddr y.dev a + n.1 + n.2 - 1) skip
    (r.1.isSome, y)

/-- The column that a migration has taken from a site which still serves the requests routed to it under the old map (R251). -/
def oldSiteOf (d : Dev) (site : Nat) : Option Nat :=
  let m := d.map.mig
  if m.mirroring && m.fromSite == site && siteOf d m.col != site then some m.col else none

/-- An address of active DRAM. -/
def isActiveDram (d : Dev) (a : Nat) : Bool :=
  match place d.map.n a with
  | .dram _ _ => true
  | _ => false

/-- What a request does at its bank: its data, or none where the data is uncorrectable; a write at the old site of a migration is
mirrored (R244, R251, R280). -/
def performReq (y : Sys) (r : BankReq) : Option (List Byte) × Sys :=
  if r.write then
    let w := match colAt y.dev r.site with
      | some c => writeRaw y (dramAddr c r.addr) r.data r.mask r.who none
      | none =>
        let w := writeMem y (dramKey r.site r.addr) r.data r.mask r.who
        match oldSiteOf y.dev r.site with
        | some c => (w.1.isSome, (writeRaw w.2 (dramAddr c r.addr) r.data r.mask r.who none).2)
        | none => (w.1.isSome, w.2)
    (if w.1 then none else some [], w.2)
  else
    let k := readMem y (dramKey r.site r.addr) r.len r.who
    (k.1.toOption, k.2)

/-- Every request that waits at a bank is performed before one that arrives later (R244, R246). -/
def settleBank (y : Sys) (id : Nat) : Sys :=
  let r := (y.bank id).waiting.foldl (fun (r : List BankWait × Sys) w =>
    if w.outcome.isSome then (r.1 ++ [w], r.2)
    else
      let k := performReq r.2 w.req
      (r.1 ++ [{ w with outcome := some k.1 }], k.2)) ([], y)
  if (y.bank id).waiting.isEmpty then y else r.2.onBank id fun b => { b with waiting := r.1 }

/-- A request takes its turn at a bank, whose row it leaves open: what occupies the bank makes it wait, which is counted and lengthens
its step (R234, R244, R264, R265). -/
def bankTurn (y : Sys) (site off : Nat) (who : Requester) : Sys :=
  let id := bankId site (tileOf off) (bankOf off)
  let y := settleBank y id
  let t := arrivalAt y who id
  let f := (y.bank id).freeAt t
  let y := if f ≤ t then y
    else
      let y := y.onProt fun p => { p with rlReqWaits := sat32 (p.rlReqWaits + 1) }
      match who with
      | .step c i => y.onCore (siteOf y.dev c) fun k => onStep k i fun s => { s with lengthen := s.lengthen + (f - t) }
      | _ => y
  y.onBank id fun b => { b with openRow := some (rowOf off) }

/-- An access to a stretch of DRAM takes its turn at the bank of each row that it touches (R233, R244). -/
def takeTurns (y : Sys) (key len : Nat) (who : Requester) : Sys :=
  if !isDramKey key || len == 0 then y
  else y.each (List.range ((key + len - 1) / 8192 - key / 8192 + 1)) fun y k =>
    let a := (key / 8192 + k) * 8192
    bankTurn y (a / 2 ^ 34) (a % 2 ^ 34) who

/-- Reads a stretch of one memory in its turn, through its checker (R244, R280). -/
def readBank (y : Sys) (key len : Nat) (who : Requester) : Except Nat (List Byte) × Sys :=
  readMem (takeTurns y key len who) key len who

/-- Writes masked bytes at a device address in their turn (R244). -/
def writeDev (y : Sys) (a : Nat) (data : List Byte) (mask : List Bool) (who : Requester) (skip : Option (Nat × Nat)) : Bool × Sys :=
  match addrKey y.dev a with
  | none => (false, y)
  | some k => writeRaw (if mask.any id then takeTurns y k data.length who else y) a data mask who skip

/-- Stored OWNER of a mailbox (R369). -/
def mbxOwner (y : Sys) (m : Nat) : Nat := (y.get (mbxKey (256 * m))).toNat

/-- A host copy of part of a mailbox reaches the home agent; OWNER 1 over a stored 0 is a handover, which invalidates the
host's copy of line 1; a copy with another OWNER is refused whole (R369 to R371; DEDUCED, log 78). -/
def mailboxWrite (y : Sys) (a : Nat) (data : List Byte) (mask : List Bool) : Sys :=
  if a ≥ 4096 || (a % 256 == 0 && nth mask 0 false && decide (1 < (nth data 0 0).toNat)) then y
  else
    let m := a / 256
    let old := mbxOwner y m
    let y := y.putMask (mbxKey a) data mask
    if old = 0 ∧ mbxOwner y m = 1 then
      let y := y.onHost fun h => { h with handovers := h.handovers ++ [m] }
      let l1 := (0x7E00000000 + 256 * m + 128) / 128
      if (assoc y.dev.host.filter l1).isSome then
        let y := y.onHost fun h => { h with txns := h.txns ++ [⟨l1, .line1 m, true, y.dev.beat.wbc⟩] }
        sendHost y { op := 0x11, addr := l1 * 128 }
      else y
    else y

/-- A mesh failure has its record (R492, R495). -/
def meshRecord (y : Sys) (router kind resends : Nat) : Sys :=
  faultRecCc y { cls := 9, site := router, location := router, detail := kind, count := resends }

/-- The site whose fenced router answers for the buffer that an address names (R319). -/
def fencedAt (y : Sys) (a : Nat) : Option Nat :=
  match place y.dev.map.n a with
  | .buf c _ => if y.dev.noc.fenced.contains (siteOf y.dev c) then some (siteOf y.dev c) else none
  | _ => none

/-- A request of the host or of the control complex that a fenced router answers with FENCED, twice (R319, R492). -/
def refusedTwice (y : Sys) (router kind : Nat) : Sys :=
  (meshRecord (meshRecord y router kind 1) router kind 1).onFaults fun f => { f with resends := sat32 (f.resends + 1) }

/-- Performs a host write of masked bytes of one line: true where it met uncorrectable data, or a fenced core's buffer (R279, R280, R319,
R492). -/
def hostWrite (y : Sys) (a : Nat) (data : List Byte) (mask : List Bool) : Bool × Sys :=
  match place y.dev.map.n a, fencedAt y a with
  | .mailbox o, _ => (false, mailboxWrite y o data mask)
  | _, some r => (true, event (refusedTwice y r 2) 0x0503 (leBytes 8 a))
  | _, none =>
    let r := writeDev y a data mask .host none
    if r.1 then (true, event r.2 0x0503 (leBytes 8 a)) else r

/-- The granule of a line that a pending swap takes from cached (R240). -/
def leavingGranule (y : Sys) (a : Nat) : Option Nat :=
  match y.dev.sched.swap, place y.dev.map.n a with
  | some _, .dram c o =>
    if hostAccess y c (granuleOf o) == 2 && bits (secField y (1 - y.dev.sched.bank) 2 (0x10 + 192 * c + granuleOf o) 1) 1 2 != 2
    then some (c * 192 + granuleOf o) else none
  | _, _ => none

/-- Records a grant in the snoop filter; the latest grant stands last, a stale mark is cleared (R360, R364). -/
def filterAdd (h : HostLink) (line : Nat) (e : Bool) : HostLink :=
  { h with filter := (assocDel h.filter line) ++ [(line, e)], stale := takeOut h.stale line }

/-- A line granted in a granule that a pending swap takes from cached is called back at once (R240). -/
def callBack (y : Sys) (a : Nat) : Sys :=
  match leavingGranule y a with
  | none => y
  | some g =>
    let y := y.onSched fun s => { s with swap := s.swap.map fun p => { p with backInv := addTo p.backInv g } }
    let y := y.onHost fun h => { h with txns := h.txns ++ [⟨lineOf y.dev a, .backInv g, true, y.dev.beat.wbc⟩] }
    sendHost y { op := 0x11, addr := lineOf y.dev a * 128 }

/-- Sends the data of a line, or the data error of an uncorrectable line (R240, R360, R365, R280). -/
def grantLine (y : Sys) (tag a : Nat) (e : Bool) : Sys :=
  let k := (addrKey y.dev a).getD (mbxKey 4096)
  let isMbx := match place y.dev.map.n a with
    | .mailbox _ => true
    | _ => false
  let r := if isMbx && (addrKey y.dev a).isNone then (.ok (List.replicate 128 0), y) else readBank y k 128 .host
  match r.1 with
  | .error _ => sendErr (event r.2 0x0503 (leBytes 8 a)) tag a 2 0
  | .ok data =>
    let y := r.2.onHost fun h => filterAdd h (lineOf y.dev a) e
    callBack (sendHost y { op := 0x20, st := if e then 2 else 1, tag := tag, addr := a, data := data }) a

/-- Sends the data of an uncached read (R358, R280, R319). -/
def readUcNow (y : Sys) (tag a len : Nat) : Sys :=
  match addrKey y.dev a, fencedAt y a with
  | none, _ => sendHost y { op := 0x21, tag := tag, len := len % 128, addr := a, data := List.replicate len 0 }
  | some _, some r => sendErr (event (refusedTwice y r 1) 0x0503 (leBytes 8 a)) tag a 2 0
  | some k, none =>
    let r := readBank y k len .host
    match r.1 with
    | .error _ => sendErr (event r.2 0x0503 (leBytes 8 a)) tag a 2 0
    | .ok data => sendHost r.2 { op := 0x21, tag := tag, len := len % 128, addr := a, data := data }

/-- Performs an uncached write (R358, R366). -/
def writeUcNow (y : Sys) (tag a : Nat) (data : List Byte) (mask : List Bool) : Sys :=
  let r := hostWrite y a data mask
  if r.1 then sendErr r.2 tag a 2 0 else sendAck r.2 tag a

/-- What a transaction does once its line is free of snoops (R361, R362). -/
def runHome (y : Sys) (line : Nat) (r : HomeReq) : Sys :=
  match r with
  | .shared _ tag a => grantLine y tag a false
  | .own _ tag a => grantLine y tag a true
  | .readUc _ tag a len => readUcNow y tag a len
  | .writeUc _ tag a data mask => writeUcNow y tag a data mask
  | .devWrite a who data mask =>
    let w := writeDev y a data mask who none
    if w.1 then rmwFailed w.2 who else w.2
  | .devRead _ _ => y
  | .backInv _ => y
  | .evict => y.onHost fun h => { h with filter := assocDel h.filter line }
  | .line1 _ => y

/-- The snoop that a transaction needs first: none, SNP_DATA or SNP_INV (R362). -/
def snoopFor (h : HostLink) (line : Nat) : HomeReq → Option Nat
  | .devWrite _ _ _ _ => if (assoc h.filter line).isSome then some 0x11 else none
  | .devRead _ _ => if assoc h.filter line == some true then some 0x10 else none
  | .backInv _ => if (assoc h.filter line).isSome then some 0x11 else none
  | .evict => if (assoc h.filter line).isSome then some 0x11 else none
  | .line1 _ => if (assoc h.filter line).isSome then some 0x11 else none
  | _ => none

/-- A grant finds the filter full (R360). -/
def filterFull (h : HostLink) (line : Nat) : HomeReq → Bool
  | .shared _ _ _ => decide (2 ^ 20 ≤ h.filter.length) && (assoc h.filter line).isNone
  | .own _ _ _ => decide (2 ^ 20 ≤ h.filter.length) && (assoc h.filter line).isNone
  | _ => false

/-- Begins a transaction whose line is free: its snoop, the eviction that a full filter asks for, or the transaction itself. -/
def beginHome (y : Sys) (line : Nat) (r : HomeReq) : Sys :=
  match snoopFor y.dev.host line r with
  | some op =>
    let y := y.onHost fun h => { h with txns := h.txns ++ [⟨line, r, true, y.dev.beat.wbc⟩] }
    sendHost y { op := op, addr := line * 128 }
  | none =>
    if filterFull y.dev.host line r then
      let victim := (nth y.dev.host.filter 0 (0, false)).1
      let y := y.onHost fun h => { h with txns := h.txns ++ [⟨victim, .evict, true, y.dev.beat.wbc⟩, ⟨line, r, false, 0⟩] }
      sendHost y { op := 0x11, addr := victim * 128 }
    else runHome y line r

/-- A transaction arrives for a line: it waits behind the one outstanding (R361). -/
def homeArrive (y : Sys) (line : Nat) (r : HomeReq) : Sys :=
  if y.dev.host.txns.any fun t => t.line == line then
    y.onHost fun h => { h with txns := h.txns ++ [⟨line, r, false, 0⟩] }
  else beginHome y line r

/-- Ends the snooping transaction of a line: it is performed and leaves the list (R361). -/
def homeComplete (y : Sys) (line : Nat) : Sys :=
  match y.dev.host.txns.find? fun t => t.line == line && t.snooping with
  | none => y
  | some t =>
    let y := y.onHost fun h => { h with txns := h.txns.eraseP fun x => x.line == line && x.snooping }
    runHome y line t.req

/-- The first transaction waiting for a line that has no snoop outstanding begins (R361). -/
def homeResume (y : Sys) (line : Nat) : Sys :=
  if y.dev.host.txns.any fun t => t.line == line && t.snooping then y
  else match y.dev.host.txns.find? fun t => t.line == line with
    | none => y
    | some t =>
      beginHome (y.onHost fun h => { h with txns := h.txns.eraseP fun x => x.line == line }) line t.req

/-- A write of the device at a device address, line by line: a line that the host may hold is invalidated first (R158, R362). -/
def deviceWrite (y : Sys) (a : Nat) (data : List Byte) (mask : List Bool) (who : Requester) (skip : Option (Nat × Nat)) : Sys :=
  y.each (hostPieces (data.length / 128 + 2) 0 a data.length) fun y p =>
    let line := p.2.1 / 128
    let bs := slice data p.1 p.2.2
    let ms := (mask.drop p.1).take p.2.2
    if (assoc y.dev.host.filter line).isSome || y.dev.host.txns.any fun t => t.line == line then
      homeArrive y line (.devWrite p.2.1 who bs ms)
    else
      let w := writeDev y p.2.1 bs ms who skip
      if w.1 then rmwFailed w.2 who else w.2

/-- Back-invalidation of a granule: SNP_INV for every recorded line of it (R240, R266, R362). -/
def backInvalidate (y : Sys) (c g : Nat) : Sys :=
  let lo := (granuleRange c g).1 / 128
  let hi := (granuleRange c g).2 / 128
  y.each ((y.dev.host.filter.map Prod.fst).filter fun l => decide (lo ≤ l) && decide (l ≤ hi)) fun y l =>
    homeArrive y l (.backInv (c * 192 + g))

/-- Lines of a range that the host holds so that the control complex must snoop before it reads or writes (R362). -/
def snoopLines (y : Sys) (a len : Nat) (write : Bool) : List Nat :=
  let lo := a / 128
  let hi := (a + len - 1) / 128
  if len = 0 then []
  else ((y.dev.host.filter.filter fun f => decide (lo ≤ f.1) && decide (f.1 ≤ hi) && (write || f.2)).map Prod.fst)

/-- The control complex's snoops before a command's access: true when none is needed, none is outstanding and no fabric reset keeps it
from memory (R362, R417, DESIGN CHOICE, log 14). -/
def ccSnoop (y : Sys) (reads writes : List (Nat × Nat)) : Bool × Sys :=
  let rs := reads.flatMap fun r => snoopLines y r.1 r.2 false
  let ws := writes.flatMap fun r => snoopLines y r.1 r.2 true
  let y := y.each rs fun y l =>
    if y.dev.host.txns.any fun t => t.line == l then y else homeArrive y l (.devRead l 0)
  let y := y.each ws fun y l =>
    if y.dev.host.txns.any fun t => t.line == l then y else homeArrive y l .evict
  let reset := y.dev.noc.fabricReset && !(reads.isEmpty && writes.isEmpty)
  (rs.isEmpty && ws.isEmpty && !reset, y)

end Sys2Proof.Machine
end

