-- ==== Sys2Proof/Machine/Slots.lean ====
section
/-! DEFINITION. What a span port and a half of the host link send in a beat: flits, control records, slot tables, host flits
(R49, R180, R326 to R332, R342, R346, R353 to R359). -/

namespace Sys2Proof.Machine

/-- The header bytes that FLIT_CRC covers (R327). -/
def flitHeader (f : Flit) : List Byte :=
  leBytes 2 f.srcId ++ leBytes 1 f.srcInc ++ leBytes 1 f.cls ++ leBytes 2 (f.dst + b2n f.mcast * 32768) ++ leBytes 1 f.flow
    ++ leBytes 1 0 ++ leBytes 4 f.seq

/-- FLIT_CRC of a flit (R327). -/
def flitCrc (f : Flit) : BitVec 32 := crc32c (flitHeader f ++ f.payload)

/-- A flit of this device with its CRC (R327). -/
def mkFlit (d : Dev) (cls dst : Nat) (mcast : Bool) (flow seq : Nat) (payload : List Byte) : Flit :=
  let f : Flit := ⟨d.span.deviceId, d.span.selfInc, cls, dst, mcast, flow, seq, false, payload, 0, false, 0⟩
  { f with crc := flitCrc f }

/-- An idle flit (R327). -/
def idleFlit (d : Dev) : Flit := mkFlit d 0 0x7FF false 0xFF 0 (List.replicate 256 0)

/-- A hold-idle flit (R346). -/
def holdIdleFlitOf (d : Dev) : Flit := mkFlit d 5 0x7FF false 0xFF (d.beat.wbc % 2 ^ 24) (List.replicate 256 0)

/-- The 272 bytes of a flit. -/
def flitBytes (f : Flit) : List Byte := flitHeader f ++ leBytes 4 f.crc.toNat ++ padTo 256 f.payload

/-- The beat marker that the device sends with the generation of the set in force, or an empty record on a lone device (R49, R329). -/
def markerBytes (y : Sys) (gen : Nat) : List Byte :=
  let b := y.dev.beat
  if b.role = .lone then List.replicate 32 0
  else
    leBytes 1 1 ++ leBytes 1 b.term ++ leBytes 1 (if b.role = .master then 0 else b.hop)
      ++ leBytes 1 (b2n b.holdActive + 2 * b2n b.holdover) ++ leBytes 2 b.masterId ++ leBytes 2 gen
      ++ leBytes 8 b.wbc ++ leBytes 8 b.holdAcc ++ leBytes 8 0

/-- The LINK_HELLO that a port sends (R330). -/
def helloBytes (d : Dev) (p : Nat) (x : PortS) : List Byte :=
  let now := d.beat.wbc * 64
  leBytes 1 5 ++ leBytes 1 p ++ leBytes 2 d.span.deviceId ++ leBytes 1 d.span.selfInc ++ leBytes 1 (b2n x.myOneWay.isSome)
    ++ leBytes 2 (x.myOneWay.getD 0) ++ leBytes 4 now ++ leBytes 4 x.lastHelloTx
    ++ leBytes 4 (if x.pValid then now - x.lastHelloAt else 0) ++ leBytes 12 0

/-- The LANE_STATE that a port sends while a switch is pending for a lane that it has itself declared failed (R330, R338). -/
def laneStateBytes (s : LaneSwitch) : List Byte :=
  leBytes 1 8 ++ leBytes 1 s.mask ++ leBytes 2 0 ++ leBytes 8 s.sBeat ++ leBytes 20 0

/-- Stable order by rank. -/
def byRank (l : List CtrlRec) : List CtrlRec := (List.range 6).flatMap fun k => l.filter fun r => r.rank == k

/-- A port owes a LINK_HELLO in this beat: always in MEASURING, else every 16 beats (R330). -/
def helloDue (d : Dev) (x : PortS) : Bool := x.state == .measuring || decide (x.helloSent + 16 ≤ d.beat.wbc)

/-- The control flit of a beat, and the port after it: the marker in slot 0, the records by rank in slots 1 to 7 (R329). -/
def controlFlit (v y : Sys) (p : Nat) (x : PortS) : Flit × PortS :=
  let d := y.dev
  let own := (if helloDue d x then [⟨4, helloBytes d p x⟩] else [])
    ++ (match x.switch with
      | some s => if Nat.land x.lanes x.lanesFailed = 0 then [] else [⟨3, laneStateBytes s⟩]
      | none => [])
  let all := byRank (x.recs ++ own)
  let sent := all.take 7
  let rest := (all.drop 7).filter fun r => r.rank != 3 && r.rank != 4
  let pay := markerBytes y (generation v) ++ (sent.map fun r => padTo 32 r.bytes).flatten
  let x := { x with recs := rest, helloSent := if helloDue d x then d.beat.wbc else x.helloSent }
  (mkFlit d 2 0x7FF false 0xFF (d.beat.wbc % 2 ^ 24) (padTo 256 pay), x)

/-- A record put into the first free slot of the control flit that a port has formed for the beat; it waits for the next one
where none is free (R66, R329). -/
def joinCtrl (r : CtrlRec) (x : PortS) : PortS :=
  match [1, 2, 3, 4, 5, 6, 7].find? fun k => fld x.txCtrl (16 + 32 * k) 1 == 0 with
  | some k =>
    if x.txCtrl.length = 272 then
      let head := slice x.txCtrl 0 12
      let pay := slice x.txCtrl 16 (32 * k) ++ padTo 32 r.bytes ++ slice x.txCtrl (48 + 32 * k) (224 - 32 * k)
      { x with txCtrl := head ++ leBytes 4 (crc32c (head ++ pay)).toNat ++ pay }
    else queueRec x r
  | none => queueRec x r

/-- A record sent in the present beat on every trained port (R66). -/
def sendRecNow (y : Sys) (r : CtrlRec) : Sys :=
  y.each (List.range 12) fun y p => if portTrained (y.port p) then y.onPort p (joinCtrl r) else y

/-- The step descriptors of a column in an image. -/
def stepList (y : Sys) (i : Image) (c : Nat) : List (List Byte) :=
  match i.secAt 1 c with
  | none => []
  | some (a, n) => (List.range (n / 64)).map fun k => devBytes y (a + 64 * k) 64

/-- A step list has a step of one of the kinds on a flow. -/
def listHasFlow (y : Sys) (i : Image) (ops : List Nat) (flow : Nat) : Bool :=
  i.columns.any fun c => (stepList y i c).any fun s => ops.contains (fld s 0 1) && fld s 0x18 1 == flow

/-- A loaded image's device sends a flow (R331). -/
def sendsFlow (y : Sys) (flow : Nat) : Bool := y.dev.sched.images.any fun i => listHasFlow y i [7] flow

/-- Entries of a transfer-slot table: first beat, run, the 22 flows (R180). -/
def slotTable (y : Sys) (i : Image) (p : Nat) : List (Nat × Nat × List Byte) :=
  match i.secAt 2 p with
  | none => []
  | some (a, n) => (List.range (n / 32)).map fun k =>
      (devField y (a + 32 * k) 5, devField y (a + 32 * k + 5) 3, devBytes y (a + 32 * k + 8) 22)

/-- The flow that slot s of port p carries in the present beat, by the images that run (R46, R78, R180). -/
def slotFlow (y : Sys) (p s : Nat) : Option Nat :=
  ((List.range 4).filterMap fun q =>
    let r := nth y.dev.sched.runs q {}
    if !partLive y.dev q then none
    else (runImage y.dev q).bind fun i =>
      let b := sbc y.dev - (r.start + r.run * i.length)
      ((slotTable y i p).find? fun e => decide (e.1 ≤ b) && decide (b < e.1 + e.2.1)).bind fun e =>
        let f := (nth e.2.2 s 0xFF).toNat
        if f = 0xFF then none else some f)[0]?

/-- A slot table of a loaded image names a flow on a port (R331). -/
def portForwards (y : Sys) (p flow : Nat) : Bool :=
  !sendsFlow y flow && y.dev.sched.images.any fun i => (slotTable y i p).any fun e => e.2.2.any fun b => b.toNat == flow

/-- Takes the next flit of a sent flow: one that its mesh packet brought to the port, else from a sluice (R306, R482). -/
def takeSent (y : Sys) (p flow : Nat) : Option Flit × Sys :=
  match (y.port p).sendQ.find? fun f => f.flow == flow with
  | some f => (some f, y.onPort p fun x => { x with sendQ := x.sendQ.eraseP fun g => g.flow == flow })
  | none =>
    match (List.range 18).find? fun s => (y.core s).spanFlits.any fun f => f.1 == flow with
    | none => (none, y)
    | some s =>
      match (y.core s).spanFlits.find? fun f => f.1 == flow with
      | none => (none, y)
      | some f =>
        (some (mkFlit y.dev 1 0x7FF false flow f.2.1 f.2.2),
         y.onCore s fun c => { c with
           spanFlits := c.spanFlits.eraseP fun g => g.1 == flow
           flows := c.flows.map fun a => if a.flow == flow && a.send then { a with sent := a.sent + 1, lastAt := y.dev.beat.wbc } else a })

/-- An end marker of the device's own firmware distribution: its window closes 4,096 beats after the last copy (R432, R433). -/
def ownEndMarker (d : Dev) (f : Flit) : Bool :=
  f.cls == 4 && f.flow == 0xFF && bits f.seq 20 4 == 2 && f.srcId == d.span.deviceId && d.fw.sendWindow.isSome

/-- Fills one data slot of a port in the present beat; `v` is the stack with the starts, runs and swap of this beat (R46, R68, R86,
R326, R331, R332, R342, R346). -/
def fillSlot (v y : Sys) (p s : Nat) : Sys :=
  let d := y.dev
  let x := y.port p
  let out := fun (y : Sys) (f : Flit) => y.onPort p fun x => { x with txData := x.txData ++ [f] }
  let idle := out y (idleFlit d)
  let paused := x.state == .paused
  let withhold := fun (y : Sys) => out (y.onPort p fun x => { x with pauseN := sat32 (x.pauseN + 1) }) (idleFlit d)
  if d.beat.holdActive then idle
  else match slotFlow v p s with
    | some flow =>
      if sendsFlow v flow then
        let r := takeSent y p flow
        match r.1 with
        | some f => if paused then withhold r.2 else out r.2 f
        | none => idle
      else
        match x.transit.find? fun t => t.2.flow == flow && decide (t.1 < d.beat.wbc) with
        | some t =>
          let y := y.onPort p fun x => { x with transit := x.transit.eraseP fun u => u.2.flow == flow && decide (u.1 < d.beat.wbc) }
          if paused then withhold y else out y t.2
        | none => out (y.onPort p fun x => { x with transitN := sat32 (x.transitN + 1) }) (idleFlit d)
    | none =>
      match x.mgmt.find? fun t => decide (t.1 < d.beat.wbc) with
      | some t =>
        let y := y.onPort p fun x => { x with mgmt := x.mgmt.eraseP fun u => decide (u.1 < d.beat.wbc) }
        let y := if ownEndMarker d t.2 then y.onFw fun f => { f with sendWindow := some (d.beat.wbc + 4096) } else y
        if paused then withhold y else out y t.2
      | none => idle

/-- What a port sends in the beat that has begun; `v` is the stack with the starts, runs and swap of this beat (R46, R86, R326, R329,
R340, R346). -/
def portBeat (v y : Sys) (p : Nat) : Sys :=
  let x := y.port p
  let y := y.onPort p fun x => { x with txData := [], txCtrl := [] }
  if y.dev.noc.fabricReset && decide (y.dev.noc.fabricAt + 33 ≤ y.dev.beat.wbc) && (portCarries x || x.state == .paused) then
    let f := holdIdleFlitOf y.dev
    let n := if x.lanes = 15 then 22 else 15
    y.onPort p fun x => { x with txCtrl := flitBytes f, txData := List.replicate n f }
  else if portTrained x then
    let r := controlFlit v y p (y.port p)
    let y := y.onPort p fun _ => { r.2 with txCtrl := flitBytes r.1 }
    if portCarries x || x.state == .paused then
      y.each (List.range (if x.lanes = 15 then 22 else 15)) fun y s => fillSlot v y p s
    else y
  else if x.state == .misplaced then
    let f := mkFlit y.dev 2 0x7FF false 0xFF (y.dev.beat.wbc % 2 ^ 24) (List.replicate 256 0)
    y.onPort p fun x => { x with txCtrl := flitBytes f }
  else y

/-- Messages that go out in one beat within a number of units: of each class in order, and only with credits for all their units; a class
without credits holds no other class up (R353, R359). -/
def takeMsgs : List Nat → Nat → List Nat → List HostMsg → List HostMsg × List Nat × List HostMsg
  | _, _, cr, [] => ([], cr, [])
  | held, room, cr, m :: q =>
    let c := nth cr m.cls 0
    if room < m.units then ([], cr, m :: q)
    else if held.contains m.cls || decide (c < m.units) then
      let r := takeMsgs (m.cls :: held) room cr q
      (r.1, r.2.1, m :: r.2.2)
    else
      let r := takeMsgs held (room - m.units) (cr.set m.cls (c - m.units)) q
      (m :: r.1, r.2)

/-- The units of a message: its header, its mask, its data (R357). -/
def hostMsgBytes (m : HostMsg) : List Byte :=
  let mask := match m.mask with
    | some l => leBytes 16 (maskOf ((List.range 128).filter fun i => nth l i false))
    | none => []
  leBytes 1 m.op ++ leBytes 1 (m.st + 4 * b2n (!m.data.isEmpty) + 8 * b2n m.mask.isSome) ++ leBytes 2 m.tag ++ leBytes 1 m.status
    ++ leBytes 1 m.cause ++ leBytes 1 m.len ++ leBytes 1 0 ++ leBytes 8 m.addr ++ mask ++ padTo (16 * ceilDiv m.data.length 16) m.data

/-- The flit of a beat that carries the last unit of each message (R353, R354). -/
def packFlits : Nat → List HostMsg → List (Nat × HostMsg)
  | _, [] => []
  | u, m :: ms => ((u + m.units - 1) / 14, m) :: packFlits (u + m.units) ms

/-- The MSG flits of a beat from a sequence number on: the unit stream in pieces of 14 units, padded with zeros (R353, R354). -/
def formFlits (seq : Nat) (ms : List HostMsg) : List SentFlit :=
  let pk := packFlits 0 ms
  let pieces := chunks 224 (ms.flatMap hostMsgBytes)
  (List.zip pieces (List.range pieces.length)).map fun p =>
    ⟨(seq + p.2) % 4096, (pk.filter fun q => q.1 == p.2).map Prod.snd, padTo 224 p.1⟩

/-- A DRD or DWR of a core, which crosses the mesh (R174, R302). -/
def coreAcc (u : HostUse) : Bool := match u with
  | .stepRead _ _ _ => true
  | .stepWrite _ _ => true
  | _ => false

/-- Gives a DRD or DWR to its half, at most 256 outstanding; none of a core goes out during a fabric reset (R367, R417). -/
def sendAccs (y : Sys) : Sys :=
  y.each (y.dev.host.accs.filter fun a => !a.sent && !(y.dev.noc.fabricReset && coreAcc a.use)) fun y a =>
    let h := halfFor y.dev a.addr
    let out := (y.dev.host.accs.filter fun b => b.sent && halfFor y.dev b.addr == h).length
    if linkLost y.dev || 256 ≤ out then y
    else
      let m : HostMsg := if a.write then { op := 0x31, tag := a.tag, addr := a.addr, mask := some a.mask, data := a.data }
                         else { op := 0x30, tag := a.tag, addr := a.addr, len := a.len % 128 }
      sendHost (y.onHost fun x => { x with accs := x.accs.map fun b => if b.tag == a.tag then { b with sent := true } else b }) m

/-- What a half sends in the beat that has begun: MSG flits into the replay buffer of 256, and the credits of up to 25 flits (R353 to R355,
R359). -/
def halfBeat (y : Sys) (h : Nat) : Sys :=
  let y := y.onHalf h fun x => { x with
    freed := x.freed.map (· - 25 * 255), grants := x.freed.map (min (25 * 255)), txNow := [] }
  let x := y.half h
  if x.state ≠ 2 || x.resend.isSome then y
  else
    let t := takeMsgs [] (14 * min 25 (256 - x.unacked.length)) x.credits x.txQ
    let flits := formFlits x.txSeq t.1
    y.onHalf h fun x => { x with
      txQ := t.2.2, credits := t.2.1, unacked := x.unacked ++ flits, txNow := flits, txSeq := (x.txSeq + flits.length) % 4096 }

/-- The 256 bytes of flit k of a beat: a MSG flit, or an IDLE flit where none is left; ACK names the last flit received in order, and
RETRY_REQ asks for the one after it (R353 to R355). -/
def halfFlit (x : HalfS) (k : Nat) : List Byte :=
  let hdr := match x.txNow[k]? with
    | some f => f.seq + 4096
    | none => 0
  let ack := x.rxSeq + 4096 * b2n x.rxGot + 8192 * b2n x.retryPending
  let credit := (List.range 5).flatMap fun c => leBytes 1 (min 255 (nth x.grants c 0 - 255 * k))
  let b := leBytes 2 hdr ++ leBytes 2 ack ++ credit ++ leBytes 7 0 ++ ((x.txNow[k]?).map SentFlit.units).getD (List.replicate 224 0)
    ++ leBytes 12 0
  b ++ leBytes 4 (crc32c b).toNat

/-- The 25 host flits that a half sends in the present beat; none while it is not up (R351, R353). -/
def halfFlits (x : HalfS) : List (List Byte) := if x.state = 2 then (List.range 25).map (halfFlit x) else []

end Sys2Proof.Machine
end

