-- ==== Sys2Proof/Machine/ModulePins.lean ====
section
/-! DEFINITION. The module's pins, the 54 V stage with its PMBus registers, and the starts of the device (R36 to R42, R397 to
R399, R405, R501, R503, R507). -/

namespace Sys2Proof.Machine

/- Starts. -/

/-- What the fuses and the identity flash keep through every start (R428, R430, R441). -/
def keptFw (f : Fw) : Fw :=
  { version := f.version, revoked0 := f.revoked0, revoked1 := f.revoked1, fuseTries := f.fuseTries, log := f.log }

/-- The host link of a base die in reset: its transmitters are in electrical idle (R36, R38). -/
def resetHost : HostLink := { Dev.reset.host with halves := List.replicate 2 { idleElectric := true } }

/-- The stack after its rails have been down: everything but fuses and flash is lost (R415, R501). -/
def coldDev (d : Dev) : Dev :=
  { Dev.reset with boot := { Dev.reset.boot with power := .off }, host := resetHost, fw := keptFw d.fw, free := d.free }

/-- Bad units at a start within a power cycle: test findings stay, the list is read again at SELFTEST (R405, R406). -/
def startUnits (l : List BadUnit) : List BadUnit :=
  (l.map fun u => { u with field := false, thisStart := false }).filter fun u => u.fuse || u.test

/-- The stack in reset with its memory rails on: what R405 and R253 keep (R399, R405). -/
def warmDev (d : Dev) : Dev :=
  { Dev.reset with
    boot := { power := .off, warmOk := d.boot.warmOk, selfRefresh := d.boot.selfRefresh, badUnits := startUnits d.boot.badUnits,
              storedDefects := d.boot.storedDefects, provSpares := d.boot.provSpares }
    map := d.map
    prot := { Dev.reset.prot with dramErr := d.prot.dramErr }
    noc := { Dev.reset.noc with fenced := d.noc.fenced, fenceWhy := d.noc.fenceWhy }
    span := { Dev.reset.span with ports := d.span.ports.map fun p => { coeffs := p.coeffs } }
    power := { Dev.reset.power with clocksStopped := d.power.clocksStopped }
    host := { resetHost with
              aborted := d.host.aborted ++ (d.host.cmds.filter (·.inProgress)).map fun r => (r.mb, r.seq, r.group, r.verb)
              resetDeferred := d.host.resetDeferred }
    fw := { keptFw d.fw with retained := d.fw.retained || 3 ≤ d.boot.power.code, manifestDigest := d.fw.manifestDigest,
                             imageDigest := d.fw.imageDigest, columnDigest := d.fw.columnDigest,
                             imageVersion := d.fw.imageVersion }
    free := d.free }

/-- The memories that a warm start loses: buffers, configuration sets and mailboxes (R405). -/
def loseVolatile (y : Sys) : Sys := y.zero (2 ^ 40) (2 ^ 45 - 2 ^ 40)

/-- DRAM enters self-refresh: WARM_OK holds when the last start reached MEM_READY and no trip is latched (R398, R399). -/
def enterSelfRefresh (m : Module) (d : Dev) : Dev :=
  { d with boot := { d.boot with selfRefresh := true, warmOk := d.boot.reachedMem && !m.tripLatched } }

/-- The rails fall: the stack is off and every memory is lost (R38, R415, R501). -/
def powerLost (m : Module) (y : Sys) : Module × Sys :=
  ({ m with stageOn := false, pwrgood := false, fusesRead := false },
   { (y.zero 0 (2 ^ 46)) with dev := { coldDev y.dev with power := { Dev.reset.power with clocksStopped := m.tripLatched } } })

/-- The base die enters reset with its rails up (R38, R398, R405); a die that runs nothing has nothing to lose. -/
def baseDieReset (m : Module) (y : Sys) : Module × Sys :=
  if y.dev.boot.power = .off then ({ m with fusesRead := false }, y)
  else ({ m with fusesRead := false }, { loseVolatile y with dev := warmDev (enterSelfRefresh m y.dev) })

/- PMBus STATUS registers (R507; the bit places are those of PMBus 1.3, PRESUMED, log 17). -/

/-- The register and bit of a condition. -/
def stageBit : StageCond → Nat × Nat
  | .vinOvFault => (2, 7) | .vinOvWarn => (2, 6) | .vinUvWarn => (2, 5) | .vinUvFault => (2, 4) | .iinOcWarn => (2, 1)
  | .otFault => (3, 7) | .otWarn => (3, 6) | .voutUvFault => (0, 4)

/-- Sets the STATUS bit of a condition that holds. -/
def setStage (m : Module) (c : StageCond) : Module :=
  let b : BitVec 8 := BitVec.ofNat 8 (2 ^ (stageBit c).2)
  match (stageBit c).1 with
  | 0 => { m with statVout := m.statVout ||| b }
  | 2 => { m with statInput := m.statInput ||| b }
  | _ => { m with statTemp := m.statTemp ||| b }

/-- A condition begins or ends; its STATUS bit stays until CLEAR_FAULTS (R40, R507). -/
def stageCond (m : Module) (c : StageCond) (holds : Bool) : Module :=
  if holds then
    let m := if m.liveConds.contains c then m else { m with liveConds := m.liveConds ++ [c] }
    setStage m c
  else { m with liveConds := m.liveConds.filter (· != c) }

/-- CLEAR_FAULTS: every bit whose condition no longer holds is cleared (R507). -/
def clearFaults (m : Module) : Module :=
  m.liveConds.foldl setStage { m with statVout := 0, statIout := 0, statInput := 0, statTemp := 0, statCml := 0 }

/-- STATUS_WORD, the summary bits of PMBus 1.3 (R507, PRESUMED, log 17). -/
def statusWord (m : Module) : Nat :=
  b2n (m.statVout != 0) * 2 ^ 15 + b2n (m.statIout != 0) * 2 ^ 14 + b2n (m.statInput != 0) * 2 ^ 13
    + b2n (m.statInput.getLsbD 4) * 8 + b2n (m.statTemp != 0) * 4 + b2n (m.statCml != 0) * 2
    + b2n (m.statVout != 0 || m.statIout != 0 || (m.statInput &&& 0xEF) != 0)

/-- The stage controller answers a read while it runs (R36, R507). -/
def pmbusAnswer (m : Module) (r : List Byte) : Module := { m with pmbusResp := if m.vinOk then r else [] }

/-- A PMBus block: its length and its bytes. -/
def pmbusBlock (s : String) : List Byte := BitVec.ofNat 8 s.length :: asciiBytes s

/-- A hexadecimal digit in upper case. -/
def hexDigit (n : Nat) : Byte := BitVec.ofNat 8 (if n < 10 then 48 + n else 55 + n)

/-- The fused serial number as 16 hexadecimal characters (R507). -/
def serialText : List Byte := (List.range 16).map fun i => hexDigit (bits Config.serial.toNat (60 - 4 * i) 4)

/-- The part name (R1, R507). -/
def partName : String := if Config.samplePart then "XGQ72-16A" else "GQ72-16A"

/- Pins (R35 to R40). -/

/-- The condition of the module at its pins. -/
inductive PinCondition where
  | unpowered | standby | inReset | baseOn
  deriving DecidableEq, Repr

/-- What a pin of the module does: high impedance, a level, electrical idle or data of a transmitter, and the terminations of a receiver. -/
inductive PinDrive where
  | highZ | low | high | electricalIdle | driven | terminatedIgnored | terminated
  deriving DecidableEq, Repr

/-- Unpowered below the lockout, Standby with PWR_EN low, in reset until BASE_ON is reached with RESET_N high (R36). -/
def pinCondition (s : State) : PinCondition :=
  if !s.mod.vinOk then .unpowered else if !s.mod.pwrEn then .standby
  else if !s.mod.resetN || s.dev.boot.power == .off then .inReset else .baseOn

/-- The transmitters of a span port (R36, R38). -/
def spanTxPin (s : State) (p : Nat) : PinDrive :=
  match pinCondition s with
  | .unpowered | .standby => .highZ
  | .inReset => .electricalIdle
  | .baseOn => if (nth s.dev.span.ports p {}).idleElectric then .electricalIdle else .driven

/-- The transmitters of a half of the host link (R36, R38). -/
def hostTxPin (s : State) (h : Nat) : PinDrive :=
  match pinCondition s with
  | .unpowered | .standby => .highZ
  | .inReset => .electricalIdle
  | .baseOn => if (nth s.dev.host.halves h {}).idleElectric then .electricalIdle else .driven

/-- The receivers of the span ports and of the host link (R36). -/
def serdesRxPin (s : State) : PinDrive :=
  match pinCondition s with
  | .unpowered | .standby => .highZ
  | .inReset => .terminatedIgnored
  | .baseOn => .terminated

/-- PRSNT0_N and PRSNT1_N are tied to GND in every condition (R35, R36). -/
def prsntPin (_ : State) : PinDrive := .low

/-- MODID0 is tied to GND and MODID1 left open in every condition (R35, R36). -/
def modidPin (_ : State) (k : Nat) : PinDrive := if k = 0 then .low else .highZ

/-- The level of a pin that the tray pulls up (R37). -/
def pulledUp (p : PinDrive) : Bool := p != .low

/-- The presence pins and the module identity code as the tray reads them, with its pull-ups (R35, R37). -/
def presenceRead (s : State) : Bool × Bool := (pulledUp (prsntPin s), pulledUp (prsntPin s))
def identityCode (s : State) : Nat := b2n (pulledUp (modidPin s 0)) + 2 * b2n (pulledUp (modidPin s 1))

/-- THERM_TRIP_N as the tray reads it: low only while a trip is latched and the base die is powered (R36, R39). -/
def thermTripPin (s : State) : Bool := !(s.mod.tripLatched && s.mod.pwrEn && s.mod.vinOk)

/-- The stage's source of ALERT_N: a STATUS bit is set (R36, R40). -/
def stageAlert (m : Module) : Bool :=
  m.vinOk && (m.statVout != 0 || m.statIout != 0 || m.statInput != 0 || m.statTemp != 0 || m.statCml != 0)

/-- The base die's source of ALERT_N, from BASE_ON onwards and not in reset (R36, R40; DEDUCED, log 90): a junction or case above its
operating limit, or a partition in FAULT_STOP (R40). -/
def deviceAlert (d : Dev) : Bool :=
  d.boot.power != .off && (d.power.sensors.any (·.overLimit) || d.boot.parts.any (· == .faultStop))

/-- ALERT_N as the tray reads it: the wired OR of both sources (R40). -/
def alertPin (s : State) : Bool := !(stageAlert s.mod || deviceAlert s.dev)

/-- PWRGOOD as the tray reads it, with its pull-down (R36, R37). -/
def pwrgoodPin (s : State) : Bool := s.mod.pwrgood && s.mod.vinOk

/- Events on the pins. -/

/-- PWR_EN rises: the stage starts the rails at once, or 50 ms after the fall (R398, R503). -/
def pwrEnRise (ms : Nat) (m : Module) : Module :=
  if m.pwrEn then m
  else if ms < 50 then { m with pwrEn := true, pwrEnDeferred := true }
  else { m with pwrEn := true, stageOn := m.vinOk }

def execPwrEnRise (msSinceFall : Nat) (s : State) : Host.Outcome State Fault Refusal := onMod (pwrEnRise msSinceFall) s

/-- The rails reach regulation and PWRGOOD goes high (R36, R398). -/
def railsInRegulation (m : Module) : Module := if m.stageOn then { m with pwrgood := true } else m

def execRailsInRegulation (s : State) : Host.Outcome State Fault Refusal := onMod railsInRegulation s

/-- PWR_EN falls: Standby whatever RESET_N is; the trip is released (R38, R39, R399). -/
def pwrEnFall (m : Module) (y : Sys) : Module × Sys :=
  powerLost { m with pwrEn := false, pwrEnDeferred := false, tripLatched := false } y

def execPwrEnFall (s : State) : Host.Outcome State Fault Refusal := onAll pwrEnFall s

/-- The boot ROM starts when the base die leaves reset: the fuses are read (R397, R398). -/
def bootStart (m : Module) : Module :=
  if m.pwrEn && m.pwrgood && m.resetN && m.refclk then { m with fusesRead := true } else m

/-- RESET_N rises with SPAN_REFCLK present (R397, R398; the row's own condition, DEDUCED, log 18). -/
def resetNRise (m : Module) : Module := if m.resetN then m else bootStart { m with resetN := true, refclk := true }

def execResetNRise (s : State) : Host.Outcome State Fault Refusal := onMod resetNRise s

/-- RESET_N was high when PWRGOOD rose: released 1 ms later (R503). -/
def baseDieResetRelease (m : Module) : Module := bootStart m

def execBaseDieResetRelease (s : State) : Host.Outcome State Fault Refusal := onMod baseDieResetRelease s

/-- BASE_ON is reached: the host-link halves begin training (R351, R397, R398). -/
def baseOnReached (m : Module) (y : Sys) : Module × Sys :=
  if m.fusesRead && m.pwrEn && m.pwrgood && m.resetN && y.dev.boot.power == .off then
    let y := y.onBoot fun b => { b with badUnits := b.badUnits ++ (fusedUnits.filter fun u =>
      !(b.badUnits.any fun v => v.fuse && v.kind == u.kind && v.site == u.site && v.index == u.index)) }
    let y := y.onHost fun h => { h with halves := h.halves.map fun x => { x with state := 1, idleElectric := false } }
    (m, enterPower y .baseOn)
  else (m, y)

def execBaseOnReached (s : State) : Host.Outcome State Fault Refusal := onAll baseOnReached s

/-- RESET_N falls: with PWR_EN high the base die enters reset; a pulse below 10 us is ignored or acted on in full, a free
choice (R38, R398, R503). -/
def resetNFall (ns : Nat) (m : Module) (y : Sys) : Module × Sys :=
  if !m.resetN then (m, y)
  else if !(m.pwrEn && m.pwrgood) then ({ m with resetN := false }, y)
  else if ns < 10000 then
    let r := y.takeFree
    if r.1 % 2 = 0 then ({ m with resetN := false }, r.2) else baseDieReset { m with resetN := false } r.2
  else baseDieReset { m with resetN := false } y

def execResetNFall (pulseNs : Nat) (s : State) : Host.Outcome State Fault Refusal := onAll (resetNFall pulseNs) s

/-- The stage stops at the lockout, the overvoltage stop or its temperature fault: the module is Unpowered (R501, R507). -/
def stageStop (m : Module) (y : Sys) : Module × Sys := powerLost m y

/-- VIN54 leaves the range of R501; a trip is released by undervoltage only (R39), and the STATUS bits stay (DEDUCED, log 90). -/
def vin54Lockout (mv : Nat) (m : Module) (y : Sys) : Module × Sys :=
  if mv < 42500 then
    stageStop { stageCond m .vinUvFault true with vinOk := false, tripLatched := false, pmbusResp := [] } y
  else if 59500 < mv then
    stageStop { stageCond m .vinOvFault true with vinOk := false, ovStop := true, pmbusResp := [] } y
  else (m, y)

/-- Beyond the absolute maximum the manual describes nothing (R499). -/
def execVin54Lockout (millivolts : Nat) (s : State) : Host.Outcome State Fault Refusal :=
  if 64000 < millivolts then .fault .beyondAbsoluteMaximum else onAll (vin54Lockout millivolts) s

/-- The stage controller runs; with PWR_EN high the rails start too (R36, R501). -/
def stageRun (m : Module) : Module := { m with vinOk := true, ovStop := false, stageOn := m.pwrEn && !m.pwrEnDeferred }

/-- VIN54 rises above the start threshold (R501). -/
def vin54Start (m : Module) : Module :=
  if m.vinOk || m.ovStop then m else stageRun (stageCond m .vinUvFault false)

def execVin54Start (s : State) : Host.Outcome State Fault Refusal := onMod vin54Start s

/-- VIN54 falls below 59.0 V after an overvoltage stop (R501). -/
def vin54OvervoltageRestart (m : Module) : Module :=
  if m.ovStop then stageRun (stageCond m .vinOvFault false) else m

def execVin54OvervoltageRestart (s : State) : Host.Outcome State Fault Refusal := onMod vin54OvervoltageRestart s

/-- 50 ms after the fall the stage acts on a PWR_EN that rose early (R503). -/
def pwrEnDeferredStart (m : Module) : Module :=
  if m.pwrEnDeferred then { m with pwrEnDeferred := false, stageOn := m.pwrEn && m.vinOk } else m

def execPwrEnDeferredStart (s : State) : Host.Outcome State Fault Refusal := onMod pwrEnDeferredStart s

/-- The reference clock is lost in BASE_ON or later: loss of alignment, core clocks stopped (R42, R55). -/
def spanRefclkLoss (m : Module) (y : Sys) : Module × Sys :=
  if y.dev.boot.power = .off then ({ m with refclk := false }, y)
  else ({ m with refclk := false }, (lossOfAlignment y 2).onBeat fun b => { b with clockStopped := true })

def execSpanRefclkLoss (s : State) : Host.Outcome State Fault Refusal := onAll spanRefclkLoss s

/-- A condition of the stage begins or ends; its temperature fault stops the stage, whose controller goes on answering while VIN54 is
above the lockout (R36, R507; DEDUCED, log 90). -/
def stageStatusCondition (c : StageCond) (holds : Bool) (m : Module) (y : Sys) : Module × Sys :=
  if !m.vinOk || (c == .voutUvFault && holds && !m.pwrEn) then (m, y)
  else
    let m := stageCond m c holds
    if c == .otFault && holds then stageStop m y else (m, y)

def execStageStatusCondition (cond : StageCond) (holds : Bool) (s : State) : Host.Outcome State Fault Refusal :=
  onAll (stageStatusCondition cond holds) s

/-- The controller updates its telemetry (R507). -/
def pmbusTelemetryUpdate (vin iin vout iout temp pout pin : BitVec 16) (m : Module) : Module :=
  if m.vinOk then
    { m with telVin := vin, telIin := iin, telVout := vout, telIout := iout, telTemp := temp, telPout := pout, telPin := pin }
  else m

def execPmbusTelemetryUpdate (vin iin vout iout temp pout pin : BitVec 16) (s : State) : Host.Outcome State Fault Refusal :=
  onMod (pmbusTelemetryUpdate vin iin vout iout temp pout pin) s

/- PMBus commands (R507). -/

def execClearFaults (s : State) : Host.Outcome State Fault Refusal :=
  onMod (fun m => if m.vinOk then clearFaults { m with pmbusResp := [] } else m) s
def execCapability (s : State) : Host.Outcome State Fault Refusal := onMod (fun m => pmbusAnswer m [0xB0]) s
def execVoutMode (s : State) : Host.Outcome State Fault Refusal := onMod (fun m => pmbusAnswer m [0x14]) s
def execStatusByte (s : State) : Host.Outcome State Fault Refusal := onMod (fun m => pmbusAnswer m (leBytes 1 (statusWord m))) s
def execStatusWord (s : State) : Host.Outcome State Fault Refusal := onMod (fun m => pmbusAnswer m (leBytes 2 (statusWord m))) s
def execStatusVout (s : State) : Host.Outcome State Fault Refusal := onMod (fun m => pmbusAnswer m [m.statVout]) s
def execStatusIout (s : State) : Host.Outcome State Fault Refusal := onMod (fun m => pmbusAnswer m [m.statIout]) s
def execStatusInput (s : State) : Host.Outcome State Fault Refusal := onMod (fun m => pmbusAnswer m [m.statInput]) s
def execStatusTemperature (s : State) : Host.Outcome State Fault Refusal := onMod (fun m => pmbusAnswer m [m.statTemp]) s
def execStatusCml (s : State) : Host.Outcome State Fault Refusal := onMod (fun m => pmbusAnswer m [m.statCml]) s
def execReadVin (s : State) : Host.Outcome State Fault Refusal := onMod (fun m => pmbusAnswer m (leBytes 2 m.telVin.toNat)) s
def execReadIin (s : State) : Host.Outcome State Fault Refusal := onMod (fun m => pmbusAnswer m (leBytes 2 m.telIin.toNat)) s
def execReadVout (s : State) : Host.Outcome State Fault Refusal := onMod (fun m => pmbusAnswer m (leBytes 2 m.telVout.toNat)) s
def execReadIout (s : State) : Host.Outcome State Fault Refusal := onMod (fun m => pmbusAnswer m (leBytes 2 m.telIout.toNat)) s
def execReadTemperature1 (s : State) : Host.Outcome State Fault Refusal :=
  onMod (fun m => pmbusAnswer m (leBytes 2 m.telTemp.toNat)) s
def execReadPout (s : State) : Host.Outcome State Fault Refusal := onMod (fun m => pmbusAnswer m (leBytes 2 m.telPout.toNat)) s
def execReadPin (s : State) : Host.Outcome State Fault Refusal := onMod (fun m => pmbusAnswer m (leBytes 2 m.telPin.toNat)) s
def execPmbusRevision (s : State) : Host.Outcome State Fault Refusal := onMod (fun m => pmbusAnswer m [0x33]) s
def execMfrId (s : State) : Host.Outcome State Fault Refusal := onMod (fun m => pmbusAnswer m (pmbusBlock "GLALUX")) s
def execMfrModel (s : State) : Host.Outcome State Fault Refusal := onMod (fun m => pmbusAnswer m (pmbusBlock partName)) s
def execMfrSerial (s : State) : Host.Outcome State Fault Refusal := onMod (fun m => pmbusAnswer m (16 :: serialText)) s

/-- Any other command: acknowledged, discarded, the invalid-command bit set (R507). -/
def pmbusInvalid (_code : Byte) (m : Module) : Module :=
  if m.vinOk then { m with statCml := m.statCml ||| 0x80, pmbusResp := [] } else m

def execPmbusInvalidCommand (code : Byte) (s : State) : Host.Outcome State Fault Refusal := onMod (pmbusInvalid code) s

end Sys2Proof.Machine
end

