-- ==== Sys2Proof/Machine/Numfmt.lean ====
section
/-! DEFINITION. Number formats, rounding, products, sums and conversion (R123 to R145). A result comes with the flags that it
raises, as bits: 1 overflow, 2 underflow, 4 inexact, 8 invalid (R145). -/

namespace Sys2Proof.Machine

/-- An exact value: NaN, an infinity, or (-1)^neg × m × 2^e (R124); m = 0 is a zero with its sign. -/
inductive Num where
  | nan
  | inf (neg : Bool)
  | fin (neg : Bool) (m : Nat) (e : Int)
  deriving DecidableEq, Repr

/-- The parameters of a format (R123). -/
structure Fmt where
  width : Nat
  p : Nat
  bias : Int
  emax : Int
  hasInf : Bool
  hasNan : Bool
  scaled : Bool
  deriving DecidableEq, Repr

/-- The formats by code (R123). -/
def fmtOf : Nat → Fmt
  | 0 => ⟨32, 23, 127, 127, true, true, false⟩
  | 1 => ⟨16, 10, 15, 15, true, true, false⟩
  | 2 => ⟨16, 7, 127, 127, true, true, false⟩
  | 3 => ⟨8, 2, 15, 15, true, true, true⟩
  | 4 => ⟨8, 3, 7, 8, false, true, true⟩
  | 5 => ⟨6, 2, 3, 4, false, false, true⟩
  | 6 => ⟨6, 3, 1, 2, false, false, true⟩
  | _ => ⟨4, 1, 1, 2, false, false, true⟩

def b32 : Fmt := fmtOf 0

/-- Smallest normal exponent (R123). -/
def Fmt.emin (f : Fmt) : Int := 1 - f.bias

/-- Largest finite value as significand and exponent; E4M3 gives its last encoding to NaN (R123, R124). -/
def Fmt.maxfin (f : Fmt) : Nat × Int :=
  (if f.p = 3 ∧ f.width = 8 then 14 else 2 ^ (f.p + 1) - 1, f.emax - f.p)

/-- A × 2^k of an integer, where the result is an integer. -/
def shiftInt (m : Nat) (k : Int) : Nat := if 0 ≤ k then m * 2 ^ k.toNat else m / 2 ^ (-k).toNat

/-- Floor of the binary logarithm of m × 2^e, m not 0. -/
def lg (m : Nat) (e : Int) : Int := (Nat.log2 m : Int) + e

/-- Compares two magnitudes. -/
def magLt (m : Nat) (e : Int) (n : Nat) (g : Int) : Bool :=
  let b := min e g
  decide (shiftInt m (e - b) < shiftInt n (g - b))

/-- Decodes an element (R124). -/
def Fmt.decode (f : Fmt) (v : Nat) : Num :=
  let neg := bitAt v (f.width - 1)
  let x := bits v f.p (f.width - 1 - f.p)
  let m := bits v 0 f.p
  let top := 2 ^ (f.width - 1 - f.p) - 1
  if x = top ∧ f.hasInf = true then (if m = 0 then .inf neg else .nan)
  else if x = top ∧ f.hasNan = true ∧ m = 2 ^ f.p - 1 then .nan
  else if x = 0 then .fin neg m (f.emin - f.p)
  else .fin neg (2 ^ f.p + m) (x - f.bias - f.p)

/-- The NaN of a format (R129). -/
def Fmt.nanBits (f : Fmt) : Nat :=
  if f.width = 32 then 0x7FC00000 else if f.width = 16 then (if f.p = 10 then 0x7E00 else 0x7FC0) else 0x7F

/-- Encodes a value that the format represents (R124, R129). -/
def Fmt.encode (f : Fmt) : Num → Nat
  | .nan => f.nanBits
  | .inf neg => b2n neg * 2 ^ (f.width - 1) + (2 ^ (f.width - 1 - f.p) - 1) * 2 ^ f.p
  | .fin neg m e =>
    let s := b2n neg * 2 ^ (f.width - 1)
    if m = 0 then s
    else
      let k := lg m e
      if k < f.emin then s + shiftInt m (e - (f.emin - f.p))
      else s + (k + f.bias).toNat * 2 ^ f.p + (shiftInt m (e - (k - f.p)) - 2 ^ f.p)

/-- The generator of deterministic stochastic rounding (R142). -/
def mix64 (z : BitVec 64) : BitVec 64 :=
  let z := z + 0x9E3779B97F4A7C15
  let z := (z ^^^ (z >>> 30)) * 0xBF58476D1CE4E5B9
  let z := (z ^^^ (z >>> 27)) * 0x94D049BB133111EB
  z ^^^ (z >>> 31)

/-- A 24-bit draw for a seed and an element index (R142). -/
def srDraw (seed index : Nat) : Nat := ((mix64 (mix64 (BitVec.ofNat 64 seed) ^^^ BitVec.ofNat 64 index)) >>> 40).toNat

/-- round_to of R130: an exact non-zero value to a format; `key` is present for stochastic rounding; `ieee` is SAT_MODE 1. -/
def roundTo (neg : Bool) (m : Nat) (e : Int) (f : Fmt) (key : Option (Nat × Nat)) (ieee : Bool) : Num × Nat :=
  let q := max (lg m e) f.emin - f.p
  let k := (q - e).toNat
  let d := 2 ^ k
  let lo := if q ≤ e then m * 2 ^ (e - q).toNat else m / d
  let rem := if q ≤ e then 0 else m % d
  let up := match key with
    | none => decide (d < 2 * rem) || (2 * rem == d && lo % 2 == 1)
    | some s => decide (srDraw s.1 s.2 < rem * 2 ^ 24 / d)
  let y := if rem ≠ 0 ∧ up = true then lo + 1 else lo
  let mx := f.maxfin
  if magLt mx.1 mx.2 y q then
    (if ieee && f.hasInf then .inf neg else .fin neg mx.1 mx.2, 5)
  else
    (.fin neg y q, if rem = 0 then 0 else if lg m e < f.emin then 6 else 4)

/-- Decodes a binary32 value. -/
def f32 (v : F32) : Num := b32.decode v.toNat

/-- Encodes a binary32 value. -/
def toF32 (x : Num) : F32 := BitVec.ofNat 32 (b32.encode x)

/-- Rounds an exact value to binary32, to nearest even (R130). -/
def round32 (neg : Bool) (m : Nat) (e : Int) (ieee : Bool) : F32 × Nat :=
  let r := roundTo neg m e b32 none ieee
  (toF32 r.1, r.2)

/-- The canonical NaN (R129). -/
def nan32 : F32 := 0x7FC00000

/-- An element with its block-scale code. -/
abbrev Scaled := Num × Nat

/-- The product of R131. -/
def product (a b : Scaled) (ieee : Bool) : F32 × Nat :=
  if a.2 = 255 ∨ b.2 = 255 then (nan32, 8)
  else match a.1, b.1 with
    | .nan, _ => (nan32, 0)
    | _, .nan => (nan32, 0)
    | .inf s, .inf t => (toF32 (.inf (s != t)), 0)
    | .inf s, .fin t m _ => if m = 0 then (nan32, 8) else (toF32 (.inf (s != t)), 0)
    | .fin s m _, .inf t => if m = 0 then (nan32, 8) else (toF32 (.inf (s != t)), 0)
    | .fin s m e, .fin t n g =>
      if m = 0 ∨ n = 0 then (toF32 (.fin (s != t) 0 0), 0)
      else round32 (s != t) (m * n) (e + g + ((a.2 : Int) - 127) + ((b.2 : Int) - 127)) ieee

/-- A finite term as a signed integer multiple of 2^b. -/
def termInt (b : Int) : Num → Int
  | .fin neg m e => let v : Int := shiftInt m (e - b); if neg then -v else v
  | _ => 0

def isNan : Num → Bool
  | .nan => true
  | _ => false

def isInf : Num → Bool
  | .inf _ => true
  | _ => false

def isNeg : Num → Bool
  | .inf s => s
  | .fin s _ _ => s
  | _ => false

def isZero : Num → Bool
  | .fin _ m _ => m == 0
  | _ => false

/-- Floor of log2 of a non-zero finite value. -/
def lgNum : Num → Int
  | .fin _ m e => lg m e
  | _ => 0

/-- The bits of a value below 2^b are not all zero. -/
def truncated (b : Int) : Num → Bool
  | .fin _ m e => decide (e < b) && m % 2 ^ (b - e).toNat != 0
  | _ => false

/-- group_sum of R133. -/
def groupSum (ps : List F32) (ieee : Bool) : F32 × Nat :=
  let xs := ps.map f32
  if xs.any isNan then (nan32, 0)
  else if xs.any fun x => isInf x && isNeg x then
    (if xs.any fun x => isInf x && !isNeg x then (nan32, 8) else (toF32 (.inf true), 0))
  else if xs.any isInf then (toF32 (.inf false), 0)
  else
    let nz := xs.filter fun x => !isZero x
    match nz with
    | [] => (toF32 (.fin (xs.all isNeg) 0 0), 0)
    | z :: zs =>
      let lsb := (zs.foldl (fun a x => max a (lgNum x)) (lgNum z)) - 40
      let fl := if nz.any (truncated lsb) then 4 else 0
      let total := nz.foldl (fun t x => t + termInt lsb x) 0
      if total = 0 then (0, fl)
      else
        let r := round32 (decide (total < 0)) total.natAbs lsb ieee
        (r.1, Nat.lor fl r.2)

/-- An exact sum of two finite values: sign, significand and exponent; none where it is zero. -/
def exactSum (a b : Num) : Option (Bool × Nat × Int) :=
  match a, b with
  | .fin _ _ e, .fin _ _ g =>
    let l := min e g
    let t := termInt l a + termInt l b
    if t = 0 then none else some (decide (t < 0), t.natAbs, l)
  | _, _ => none

/-- accumulate of R133. -/
def accumulate (acc g : F32) (ieee : Bool) : F32 × Nat :=
  let a := f32 acc
  let b := f32 g
  if isNan a || isNan b then (nan32, 0)
  else if isInf a && isInf b && isNeg a != isNeg b then (nan32, 8)
  else if isInf a then (toF32 a, 0)
  else if isInf b then (toF32 b, 0)
  else match exactSum a b with
    | none => (toF32 (.fin (isZero a && isZero b && isNeg a && isNeg b) 0 0), 0)
    | some r => round32 r.1 r.2.1 r.2.2 ieee

/-- One element widened to binary32 with its scale (R136). -/
def widen (a : Scaled) (ieee : Bool) : F32 × Nat := product a (.fin false 1 0, 127) ieee

/- Conversion. -/

/-- choose_scale of R138; modes 0 MAXFIT, 1 FLOOR, 2 FIXED. -/
def chooseScale (v : List F32) (f : Fmt) (mode code : Nat) : Nat :=
  let xs := v.map f32
  if xs.any isNan && !f.hasNan then 255
  else if mode = 2 then code
  else
    let fs := xs.filter fun x => !isInf x && !isNan x && !isZero x
    match fs with
    | [] => 127
    | z :: zs =>
      let big := zs.foldl (fun a x => match a, x with
        | .fin _ m e, .fin _ n g => if magLt m e n g then x else a
        | _, _ => a) z
      let x := lgNum big - f.emax
      let mx := f.maxfin
      let x := if mode = 0 then (match big with
        | .fin _ m e => if magLt mx.1 (mx.2 + x) m e then x + 1 else x
        | _ => x) else x
      (min (max (x + 127) 0) 254).toNat

/-- The element part of convert_block (R139): an encoding and its flags. -/
def convertElem (v : F32) (k : Nat) (f : Fmt) (key : Option (Nat × Nat)) (ieee : Bool) : Nat × Nat :=
  match f32 v with
  | .nan => (f.nanBits, 0)
  | .inf s => if f.hasInf then (f.encode (.inf s), 0) else (f.encode (.fin s f.maxfin.1 f.maxfin.2), 5)
  | .fin s m e =>
    if m = 0 then (f.encode (.fin s 0 0), 0)
    else
      let r := roundTo s m (e + (127 - (k : Int))) f key ieee
      (f.encode r.1, r.2)

/-- The converter's settings in a descriptor (R128). -/
structure Conv where
  fmt : Nat
  ieee : Bool
  stochastic : Bool
  scaleMode : Nat
  scaleCode : Nat
  seed : Nat
  deriving DecidableEq, Repr

/-- convert_block of R139 for values with their element indices: encodings and flags. -/
def convertBlock (c : Conv) (k : Nat) (vs : List (Nat × F32)) : List Nat × Nat :=
  if k = 255 then (vs.map fun _ => 0, 8)
  else
    let rs := vs.map fun v => convertElem v.2 k (fmtOf c.fmt) (if c.stochastic then some (c.seed, v.1) else none) c.ieee
    (rs.map Prod.fst, rs.foldl (fun a r => Nat.lor a r.2) 0)

/-- Conversion of up to 32 values that form one block: code, encodings, flags (R138 to R140). -/
def convertGroup (c : Conv) (vs : List (Nat × F32)) : Nat × List Nat × Nat :=
  let f := fmtOf c.fmt
  if c.fmt = 0 then (127, vs.map fun v => (if isNan (f32 v.2) then nan32 else v.2).toNat, 0)
  else if f.scaled then
    let k := chooseScale (vs.map Prod.snd) f c.scaleMode c.scaleCode
    (k, convertBlock c k vs)
  else (127, convertBlock c 127 vs)

/- Packing (R125). -/

/-- Bytes that n elements of a format take. -/
def fmtBytes (code n : Nat) : Nat :=
  match code with
  | 0 => 4 * n
  | 1 => 2 * n
  | 2 => 2 * n
  | 7 => (n + 1) / 2
  | _ => n

/-- Two E2M1 elements to a byte, the lower index low (R125). -/
def packNibbles : List Nat → List Byte
  | [] => []
  | [a] => [BitVec.ofNat 8 a]
  | a :: b :: r => BitVec.ofNat 8 (a + 16 * b) :: packNibbles r

/-- Packs encodings as they lie in memory (R125). -/
def packElems (code : Nat) (es : List Nat) : List Byte :=
  match code with
  | 0 => es.flatMap (leBytes 4)
  | 1 => es.flatMap (leBytes 2)
  | 2 => es.flatMap (leBytes 2)
  | 7 => packNibbles es
  | _ => es.map (BitVec.ofNat 8)

/-- Element encodings from memory; unused bits of a byte are ignored (R125). -/
def unpackElems (code : Nat) (bs : List Byte) : List Nat :=
  match code with
  | 0 => (chunks 4 bs).map leNat
  | 1 => (chunks 2 bs).map leNat
  | 2 => (chunks 2 bs).map leNat
  | 7 => bs.flatMap fun b => [b.toNat % 16, b.toNat / 16]
  | 3 => bs.map BitVec.toNat
  | 4 => bs.map BitVec.toNat
  | _ => bs.map fun b => b.toNat % 64

/-- Elements of a format from memory. -/
def decodeElems (code : Nat) (bs : List Byte) : List Num := (unpackElems code bs).map (fmtOf code).decode

/-- Widens an element exactly to binary32; a NaN becomes the canonical NaN (R129). -/
def widenExact (x : Num) : F32 := toF32 x

end Sys2Proof.Machine
end

