-- ==== Sys2Proof/Machine/Flags.lean ====
section
/-! DEFINITION. The three sets of sticky flags of a core, and the flags that a step's final attempt raised (R145 to R148, R185). -/

namespace Sys2Proof.Machine

/-- The sets of R145: matrix, vector, converter; the bit of FP_FLAGS where each begins (R148). -/
inductive FlagSet where
  | mx | vec | cvt
  deriving DecidableEq, Repr

/-- Place of a set in FP_FLAGS (R148). -/
def FlagSet.fpAt : FlagSet → Nat
  | .mx => 0 | .vec => 8 | .cvt => 16

/-- Place of a set in FLAGS of a status record (R185). -/
def FlagSet.recAt : FlagSet → Nat
  | .mx => 0 | .vec => 4 | .cvt => 8

/-- Raises flags of a set in FP_FLAGS (R146). -/
def raiseFp (c : Core) (k : FlagSet) (fl : Nat) : Core := { c with fp := Nat.lor c.fp (fl * 2 ^ k.fpAt) }

/-- Raises flags of a set for a step: in FP_FLAGS and in the step's record (R145, R146, R185). -/
def raiseFlags (y : Sys) (site i : Nat) (k : FlagSet) (fl : Nat) : Sys :=
  y.onCore site fun c => onStep (raiseFp c k fl) i fun s => { s with flags := Nat.lor s.flags (fl * 2 ^ k.recAt) }

/-- Clears whole sets, as CLR_MX, CLR_VEC and CLR_CVT of a descriptor direct (R146, R154). -/
def clearSets (fp stepCtrl : Nat) : Nat :=
  let keep := fun (bit : Nat) (at0 : Nat) => if bitAt stepCtrl bit then 0 else bits fp at0 4 * 2 ^ at0
  keep 5 0 + keep 6 8 + keep 7 16

/-- A W1C write of FP_FLAGS (R6, R148). -/
def w1cFp (fp v : Nat) : Nat := maskOf ((bitList 20 fp).filter fun i => !(bitAt v i && i % 8 < 4))

end Sys2Proof.Machine
end

