-- ==== Sys2Proof/Machine/MatrixArray.lean ====
section
/-! DEFINITION. The matrix array: passes, check row, check column and corner, the drain with its converter, the comparison of a
drained tile, and the repair sequencer (R98 to R118, R131 to R141, R160, R161, R479). -/

namespace Sys2Proof.Machine

/-- A chunked dot product in progress: the accumulator, the flags of each chunk so far, newest first, and whether a product was too
large. -/
structure Dot where
  acc : F32
  flags : List Nat
  big : Bool
  deriving DecidableEq, Repr

/-- One chunk: products, group sum, accumulation (R131, R133). -/
def dotChunk (ieee : Bool) (d : Dot) (ab : List Scaled × List Scaled) : Dot :=
  let ps := List.zipWith (fun a b => product a b ieee) ab.1 ab.2
  let fl := ps.foldl (fun f p => Nat.lor f p.2) 0
  let g := groupSum (ps.map Prod.fst) ieee
  let r := accumulate d.acc g.1 ieee
  ⟨r.1, Nat.lor fl (Nat.lor g.2 r.2) :: d.flags, d.big || bitAt fl 0⟩

/-- The chunks of one side against those of the other. -/
def dotChunks (ieee : Bool) (acc : F32) (a b : List (List Scaled)) : Dot :=
  (List.zip a b).foldl (dotChunk ieee) ⟨acc, [], false⟩

/-- Pads the last chunk with +0 elements of code 127 (R113, R127). -/
def padChunk (width : Nat) (l : List Scaled) : List Scaled := l ++ List.replicate (width - l.length) (.fin false 0 0, 127)

/-- An operand row cut into chunks of the pass width. -/
def toChunks (width : Nat) (l : List Scaled) : List (List Scaled) := (chunks width l).map (padChunk width)

/-- The k-th elements of the chunked rows, chunk by chunk: their sums, the flags of each chunk, whether one was too large. -/
def columnSums (ieee : Bool) (width : Nat) (rows : List (List (List Scaled))) : List (List Scaled) × List Nat × Bool :=
  let n := ((rows[0]?).getD []).length
  let one := fun (t k : Nat) =>
    let ws := rows.map fun r => widen (nth (nth r t []) k (.fin false 0 0, 127)) ieee
    let fl := ws.foldl (fun f p => Nat.lor f p.2) 0
    let g := groupSum (ws.map Prod.fst) ieee
    (((f32 g.1, 127) : Scaled), Nat.lor fl g.2, bitAt fl 0)
  let all := (List.range n).map fun t => (List.range width).map (one t)
  (all.map fun c => c.map fun x => x.1,
   all.map fun c => c.foldl (fun f x => Nat.lor f x.2.1) 0,
   all.any fun c => c.any fun x => x.2.2)

/-- The accumulators of a tile: rows by columns, check row, check column, corner, range (R106, R114). -/
structure Accs where
  c : List F32
  k : List F32
  l : List F32
  g : F32
  range : Bool
  deriving DecidableEq, Repr

/-- Cleared accumulators (R134). -/
def Accs.zero : Accs := ⟨List.replicate 4096 0, List.replicate 64 0, List.replicate 64 0, 0, false⟩

/-- Flags by chunk, moved by the skew of their row. -/
def flagsFrom (skew : Nat) (l : List Nat) : List Nat := List.replicate skew 0 ++ l

/-- Flags by cycle of several rows together. -/
def mergeFlags (ls : List (List Nat)) : List Nat :=
  let n := ls.foldl (fun m l => max m l.length) 0
  (List.range n).map fun t => ls.foldl (fun f l => Nat.lor f (nth l t 0)) 0

/-- One pass: every DPU, the check row, the check column and the corner (R114, R133, R136), with the flags it raises: those of chunk t in
row i at t + i, the check row's and the corner's at t + 64 (R104, R146; DEDUCED, log 92). -/
def runPass (ieee : Bool) (width : Nat) (a0 : Accs) (warp weft : List (List Scaled)) : Accs × List Nat :=
  let ra := warp.map (toChunks width)
  let rb := weft.map (toChunks width)
  let w := columnSums ieee width ra
  let v := columnSums ieee width rb
  let main := (List.range 64).flatMap fun i => (List.range 64).map fun j =>
    dotChunks ieee (nth a0.c (64 * i + j) 0) (nth ra i []) (nth rb j [])
  let ks := (List.range 64).map fun j => dotChunks ieee (nth a0.k j 0) w.1 (nth rb j [])
  let ls := (List.range 64).map fun i => dotChunks ieee (nth a0.l i 0) (nth ra i []) v.1
  let g := dotChunks ieee a0.g w.1 v.1
  let fl := fun (l : List Dot) => mergeFlags (l.map fun d => d.flags.reverse)
  let row := fun i => flagsFrom i (mergeFlags [fl ((main.drop (64 * i)).take 64), fl ((ls.drop i).take 1)])
  let big := fun (l : List Dot) => l.any (·.big)
  (⟨main.map (·.acc), ks.map (·.acc), ls.map (·.acc), g.acc,
    a0.range || big main || big ks || big ls || w.2.2 || v.2.2⟩,
   mergeFlags ((List.range 64).map row ++ [flagsFrom 64 (mergeFlags [fl ks, fl [g], w.2.1]), v.2.1]))

/- The comparison (R115 to R117). -/

/-- Magnitude of a binary32 value. -/
def absF (v : F32) : F32 := v &&& 0x7FFFFFFF

/-- Sum in SAT mode, without flags (R115). -/
def satSum (l : List F32) : F32 := (groupSum l false).1

/-- The magnitude of a finite value as a multiple of 2^b. -/
def magAt (b : Int) : Num → Nat
  | .fin _ m e => shiftInt m (e - b)
  | _ => 0

def expOf : Num → Int
  | .fin _ _ e => e
  | _ => 0

/-- A comparison: whether it fails, and its residual as a fraction of naturals; a zero denominator stands for infinity. -/
def compareOne (t : Nat) (x z a : F32) : Bool × Nat × Nat :=
  let fx := f32 x
  let fz := f32 z
  let fa := f32 a
  let inf := fun (n : Num) => isInf n || isNan n
  if inf fx || inf fz then (!(inf fx && inf fz), 1, 0)
  else if inf fa then (true, 1, 0)
  else
    let b := min (min (expOf fx) (expOf fz)) (expOf fa)
    let d := (termInt b fx - termInt b fz).natAbs
    let mx := max (magAt b fa) (magAt b fz)
    (decide (mx < d * 2 ^ t), d, mx)

/-- Quotient of naturals rounded to binary32, to nearest even (R115); a zero denominator gives +infinity. -/
def ratio32 (n d : Nat) : F32 :=
  if d = 0 then toF32 (.inf false)
  else if n = 0 then 0
  else
    let k := 64 + Nat.log2 d - min (Nat.log2 d) (Nat.log2 n)
    let q := n * 2 ^ k / d
    let r := n * 2 ^ k % d
    (round32 false (2 * q + b2n (r != 0)) (-(k : Int) - 1) false).1

/-- The outcome of the comparisons of a drain. -/
structure Compared where
  fails : Nat
  row : Nat
  col : Nat
  corner : Bool
  residual : F32
  deriving DecidableEq, Repr

/-- A fraction is larger than another; a zero denominator is infinite. -/
def fracLt (a b : Nat × Nat) : Bool :=
  if b.2 = 0 then a.2 != 0 else if a.2 = 0 then false else decide (a.1 * b.2 < b.1 * a.2)

/-- The 129 comparisons of R115 with the tolerance field of R117. -/
def compareTile (tol : Nat) (x : Tile) : Compared :=
  let t := if tol = 0 then 12 else tol
  let at2 := fun i j => nth x.c (64 * i + j) 0
  let cols := (List.range 64).map fun j =>
    let vs := (List.range 64).map fun i => at2 i j
    compareOne t (satSum vs) (nth x.k j 0) (satSum (vs.map absF))
  let rows := (List.range 64).map fun i =>
    let vs := (List.range 64).map fun j => at2 i j
    compareOne t (satSum vs) (nth x.l i 0) (satSum (vs.map absF))
  let corner := compareOne t (satSum x.l) x.g (satSum (x.l.map absF))
  let bad := (cols ++ rows ++ [corner]).filter (·.1)
  let low := fun (l : List (Bool × Nat × Nat)) => ((List.range 64).find? fun i => (nth l i (false, 0, 1)).1).getD 0xFF
  let worst := bad.foldl (fun (m : Nat × Nat) b => if fracLt m b.2 then b.2 else m) (0, 1)
  ⟨bad.length, low rows, low cols, corner.1, if bad.isEmpty then 0 else ratio32 worst.1 worst.2⟩

/-- LOCATION of an ARRAY_CHECK record (R495). -/
def Compared.location (c : Compared) : Nat := c.row + c.col * 256 + b2n c.corner * 65536

/- The converter check (R479). -/

/-- A written element passes its check: it is the prescribed encoding, or one of the two grid points around the source. -/
def elementPasses (v : F32) (k : Nat) (f : Fmt) (good enc : Nat) : Bool :=
  if enc = good then true
  else if k = 255 then false
  else match f32 v, f.decode enc with
    | .fin s m e, .fin s2 m2 e2 =>
      let e := e + (127 - (k : Int))
      if m = 0 then false
      else
        let q := max (lg m e) f.emin - f.p
        if q ≤ e then false
        else
          let d := 2 ^ (q - e).toNat
          if m % d = 0 then false
          else
            let b := min q e2
            let x := shiftInt m2 (e2 - b)
            let lo := shiftInt (m / d) (q - b)
            let hi := shiftInt (m / d + 1) (q - b)
            (x == lo || x == hi) && (s == s2)
    | _, _ => false

/- The repair sequencer (R102, R103, R105, R109). -/

/-- Array-element entries of a site in the bad-unit map (R407). -/
def arrayBad (l : List BadUnit) (site : Nat) : List Nat :=
  (l.filter fun u => u.kind == 1 && u.site == site).map fun u => u.index % 256

/-- The good physical rows (R109). -/
def goodRows (bad : List Nat) : List Nat := (List.range 66).filter fun p => !bad.contains p

/-- The array of a core can be repaired (R108, R109). -/
def arrayUsable (bad : List Nat) : Bool :=
  !(bad.any fun x => decide (66 ≤ x)) && decide (64 ≤ (goodRows bad).length)

/-- The repair sequencer writes skew, reed and latencies together, or marks the site bad (R109). -/
def repairCore (bad : List Nat) (c : Core) : Core :=
  let c := { c with spare64 := bad.contains 64, spare65 := bad.contains 65, chkRowBad := bad.contains 66,
                    chkColBad := bad.contains 67, dpuBad := bad.any fun x => decide (128 ≤ x) }
  if arrayUsable bad then
    let good := (goodRows bad).take 64
    let m := if 63 < nth good 63 0 then 1 else 0
    let fixed := (List.range 64).filter bad.contains
    { c with skew := good, reed := (List.range 64).map fun i => 2 - (nth good i 0 - i),
             spareStage := m, fillLat := 80 + m, drainLat := 64 + m, repairDone := true,
             sparesUsed := (good.filter fun p => decide (64 ≤ p)).length,
             badRow0 := nth fixed 0 255, badRow1 := nth fixed 1 255 }
  else { c with bad := true }

end Sys2Proof.Machine
end

