-- ==== Sys2Proof/Machine/LaneProg.lean ====
section
/-! DEFINITION. Lane programs: the instruction word, the program's structure of loops, its addresses, costs and IN counts as
computed at load (R162, R167, R172, R173). -/

namespace Sys2Proof.Machine

/-- A lane instruction word by its fields (R167). -/
structure LaneIns where
  op : Nat
  vd : Nat
  va : Nat
  vb : Nat
  vc : Nat
  areg : Nat
  fmt : Nat
  imm : Nat
  deriving DecidableEq, Repr

/-- [63:58] OP, [57:53] VD, [52:48] VA, [47:43] VB, [42:38] VC, [37:35] AREG, [34:32] MOD, [31:0] IMM (R167). -/
def laneIns (w : BitVec 64) : LaneIns :=
  let n := w.toNat
  ⟨bits n 58 6, bits n 53 5, bits n 48 5, bits n 43 5, bits n 38 5, bits n 35 3, bits n 32 3, bits n 0 32⟩

/-- Issue cost by OP (R167). -/
def laneCost (op : Nat) : Nat :=
  if op = 0x28 then 8 else if op = 0x20 ∨ op = 0x21 ∨ op = 0x22 ∨ op = 0x23 ∨ op = 0x29 then 4 else 1

/-- The OP values of R167. -/
def laneOps : List Nat :=
  [0, 1, 2, 3, 8, 9, 10, 11, 0x10, 0x11, 0x12, 0x13, 0x14, 0x15, 0x16, 0x17, 0x18, 0x19, 0x1A, 0x20, 0x21, 0x22, 0x23, 0x28, 0x29]

/-- A piece of a program: one instruction, or a loop over pieces of the level below. -/
inductive LaneNode (α : Type) where
  | one (i : LaneIns)
  | loop (n : Nat) (body : List α)

/-- Splits a stretch of instructions into pieces, with a reader for loop bodies; none where R167 refuses a loop. -/
def laneParse {α : Type} (inner : List LaneIns → Option (List α)) : Nat → List LaneIns → Option (List (LaneNode α))
  | 0, _ => some []
  | _, [] => some []
  | fuel + 1, i :: r =>
    if i.op = 1 then
      let len := bits i.imm 16 16
      let n := bits i.imm 0 16
      if n = 0 ∨ len = 0 ∨ r.length < len then none
      else match inner (r.take len), laneParse inner fuel (r.drop len) with
        | some b, some rest => some (.loop n b :: rest)
        | _, _ => none
    else (laneParse inner fuel r).map (.one i :: ·)

/-- The innermost level holds no LOOP: nesting is at most 2 deep (R167). -/
def laneFlat (l : List LaneIns) : Option (List LaneIns) := if l.any (·.op == 1) then none else some l

abbrev LaneTree := List (LaneNode (LaneNode LaneIns))

/-- The structure of a program, or none where R167 refuses it. -/
def laneTree (l : List LaneIns) : Option LaneTree :=
  laneParse (fun b => laneParse laneFlat b.length b) l.length l

/-- A use of the buffer: 0 load, 1 store data, 2 store scales; lowest and highest byte, unbounded. -/
abbrev LaneUse := Nat × Int × Int

/-- The run of a program as it is followed at load. -/
structure LaneRun where
  a : List Int
  uses : List LaneUse
  cycles : Nat
  ins : Nat
  stores : Nat
  halted : Bool
  aligned : Bool
  deriving DecidableEq, Repr

/-- One instruction, by its effect on addresses and counts; addresses are unbounded integers here, so that a program whose address
would wrap past 2^32 and back is refused (R167, R172; DEDUCED, log 91). -/
def laneStep (outFmt : Nat) (s : LaneRun) (i : LaneIns) : LaneRun :=
  if s.halted then s
  else
    let s := { s with cycles := s.cycles + laneCost i.op }
    let at0 := nth s.a i.areg 0
    match i.op with
    | 0 => { s with halted := true }
    | 2 => { s with a := s.a.set i.areg (i.imm : Int) }
    | 3 => { s with a := s.a.set i.areg (at0 + sext 32 i.imm) }
    | 8 =>
      let n : Int := (256 * (if i.fmt = 0 then 4 else 2) : Nat)
      { s with a := s.a.set i.areg (at0 + n), uses := s.uses ++ [(0, at0, at0 + n - 1)], aligned := s.aligned && at0 % 64 == 0 }
    | 9 =>
      let n : Int := fmtBytes outFmt 256
      let j := Nat.xor i.areg 1
      let sc := nth s.a j 0
      let s := { s with a := s.a.set i.areg (at0 + n), uses := s.uses ++ [(1, at0, at0 + n - 1)], stores := s.stores + 1,
                        aligned := s.aligned && at0 % 64 == 0 }
      if (fmtOf outFmt).scaled then { s with a := s.a.set j (sc + 8), uses := s.uses ++ [(2, sc, sc + 7)] } else s
    | 10 => { s with ins := s.ins + 1 }
    | _ => s

/-- The hull of the uses of one place over iterations 2 to n, from those of iterations 2 and 3. -/
def laneHull (n : Nat) (u2 u3 : LaneUse) : LaneUse :=
  let k : Int := (n : Int) - 2
  let lo := u2.2.1 + k * (u3.2.1 - u2.2.1)
  let hi := u2.2.2 + k * (u3.2.2 - u2.2.2)
  (u2.1, min u2.2.1 lo, max u2.2.2 hi)

/-- The hull of two uses of one place. -/
def laneJoin (u v : LaneUse) : LaneUse := (u.1, min u.2.1 v.2.1, max u.2.2 v.2.2)

/-- A loop: its body is followed three times; a register moves by the same amount in each iteration from the second on, so the
rest follows; each place of the body has one range over all iterations (R172, R183). -/
def laneLoop {α : Type} (body : LaneRun → List α → LaneRun) (s : LaneRun) (n : Nat) (b : List α) : LaneRun :=
  let go := fun (s : LaneRun) => body { s with uses := [] } b
  let s1 := go s
  if n ≤ 1 || s1.halted then { s1 with uses := s.uses ++ s1.uses }
  else
    let s2 := go s1
    if n = 2 then { s2 with uses := s.uses ++ List.zipWith laneJoin s1.uses s2.uses }
    else
      let s3 := go s2
      let k := n - 2
      { a := List.zipWith (fun x2 x3 => x2 + (k : Int) * (x3 - x2)) s2.a s3.a
        uses := s.uses ++ List.zipWith laneJoin s1.uses (List.zipWith (laneHull n) s2.uses s3.uses)
        cycles := s2.cycles + k * (s3.cycles - s2.cycles)
        ins := s2.ins + k * (s3.ins - s2.ins)
        stores := s2.stores + k * (s3.stores - s2.stores)
        halted := false
        aligned := s3.aligned }

/-- Follows a piece of the lowest loop level. -/
def laneNode1 (outFmt : Nat) (s : LaneRun) : LaneNode LaneIns → LaneRun
  | .one i => laneStep outFmt s i
  | .loop n b => if s.halted then s else
    let s := { s with cycles := s.cycles + 1 }
    laneLoop (fun s b => b.foldl (laneStep outFmt) s) s n b

/-- Follows a piece of a program. -/
def laneNode2 (outFmt : Nat) (s : LaneRun) : LaneNode (LaneNode LaneIns) → LaneRun
  | .one i => laneStep outFmt s i
  | .loop n b => if s.halted then s else
    let s := { s with cycles := s.cycles + 1 }
    laneLoop (fun s b => b.foldl (laneNode1 outFmt) s) s n b

/-- Follows a whole program from initial address registers (R166). -/
def laneFollow (outFmt : Nat) (a0 : List Nat) (t : LaneTree) : LaneRun :=
  t.foldl (laneNode2 outFmt) ⟨a0.map fun (x : Nat) => (x : Int), [], 0, 0, 0, false, true⟩

/-- Every address stays within the buffer, and data addresses are aligned (R172). -/
def LaneRun.bounded (r : LaneRun) : Bool :=
  r.aligned && r.uses.all fun u => decide (0 ≤ u.2.1) && decide (u.2.2 < (bufBytes : Int))

/- Timing: IN waits for its rows (R104, R157, R162). -/

/-- Where a program stands in time: the next issue cycle, INs issued, and whether it has halted, with its HALT cycle. -/
structure LaneClock where
  t : Nat
  g : Nat
  halt : Option Nat
  deriving DecidableEq, Repr

/-- One instruction in time; `arrive r` is the cycle of stream row r, `rows` their number. -/
def clockStep (rows : Nat) (arrive : Nat → Nat) (s : LaneClock) (i : LaneIns) : LaneClock :=
  match s.halt with
  | some _ => s
  | none =>
    if i.op = 0 then { s with halt := some s.t }
    else if i.op = 10 then
      let last := min (4 * s.g + 3) (rows - 1)
      let t := if 4 * s.g < rows then max s.t (arrive last + 1) else s.t
      { s with t := t + 1, g := s.g + 1 }
    else { s with t := s.t + laneCost i.op }

/-- A loop in time. -/
def clockLoop {α : Type} (body : LaneClock → List α → LaneClock) (b : List α) : Nat → LaneClock → LaneClock
  | 0, s => s
  | n + 1, s => if s.halt.isSome then s else clockLoop body b n (body s b)

def clockNode1 (rows : Nat) (arrive : Nat → Nat) (s : LaneClock) : LaneNode LaneIns → LaneClock
  | .one i => clockStep rows arrive s i
  | .loop n b => if s.halt.isSome then s else
    clockLoop (fun s b => b.foldl (clockStep rows arrive) s) b n { s with t := s.t + 1 }

def clockNode2 (rows : Nat) (arrive : Nat → Nat) (s : LaneClock) : LaneNode (LaneNode LaneIns) → LaneClock
  | .one i => clockStep rows arrive s i
  | .loop n b => if s.halt.isSome then s else
    clockLoop (fun s b => b.foldl (clockNode1 rows arrive) s) b n { s with t := s.t + 1 }

/-- The HALT cycle of a program that starts in a cycle: its first instruction issues 7 cycles later (R157). -/
def haltCycle (start rows : Nat) (arrive : Nat → Nat) (t : LaneTree) : Nat :=
  let r := t.foldl (clockNode2 rows arrive) ⟨start + 7, 0, none⟩
  r.halt.getD r.t

/- Programs of an image (R172). -/

/-- The words of lane program n of a column, from the memory; empty where the program is absent. -/
def laneWords (y : Sys) (img : Image) (col n : Nat) : List (BitVec 64) :=
  match img.secAt 3 col with
  | none => []
  | some (a, len) =>
    let start := devField y (a + 4 * n) 2
    let count := devField y (a + 4 * n + 2) 2
    if 1024 + 8 * (start + count) ≤ len then
      (List.range count).map fun k => BitVec.ofNat 64 (devField y (a + 1024 + 8 * (start + k)) 8)
    else []

/-- The structure of lane program n. -/
def laneProgram (y : Sys) (img : Image) (col n : Nat) : Option LaneTree := laneTree ((laneWords y img col n).map laneIns)

/-- A program passes the checks of R167 and R172: known operations, permitted loads, bounded addresses, HALT at its end. -/
def laneAccepted (outFmt : Nat) (a0 : List Nat) (words : List (BitVec 64)) (maxIns : Nat) : Bool :=
  let is := words.map laneIns
  (match is.getLast? with
    | some i => i.op == 0
    | none => false)
    && decide (is.length ≤ 4096)
    && (is.all fun i => laneOps.contains i.op && (i.op != 8 || decide (i.fmt < 3)))
    && (match laneTree is with
      | none => false
      | some t =>
        let r := laneFollow outFmt a0 t
        r.bounded && r.halted && decide (r.ins ≤ maxIns))

/-- Buffer ranges that a program loads or stores, first and last byte (R183, R486). -/
def laneRanges (outFmt : Nat) (a0 : List Nat) (t : LaneTree) (stores : Bool) : List (Nat × Nat) :=
  ((laneFollow outFmt a0 t).uses.filter fun u => (u.1 != 0) == stores).map fun u => (u.2.1.toNat, u.2.2.toNat)

end Sys2Proof.Machine
end

