-- ==== Sys2Proof/Machine/Operands.lean ====
section
/-! DEFINITION. The step descriptor: its fields, engines, nominal durations, operand reads, retained input ranges and output
ranges (R151, R153 to R165, R174 to R183, R190, R193, R208 to R217, R262, R486). -/

namespace Sys2Proof.Machine

/- Common header (R153). -/
def opOf (d : Desc) : Nat := fld d 0 1
def stepCtrl (d : Desc) : Nat := fld d 1 1
def critClass (d : Desc) : Nat := bits (stepCtrl d) 0 2
def replayClass (d : Desc) : Nat := bits (stepCtrl d) 2 2
def heavyLead (d : Desc) : Nat := fld d 4 1
def checkTol (d : Desc) : Nat := bits (fld d 5 1) 0 5
def startOffset (d : Desc) : Nat := fld d 8 5
def warpFmt (d : Desc) : Nat := bits (fld d 0x10 2) 0 4
def weftFmt (d : Desc) : Nat := bits (fld d 0x10 2) 4 4
def outFmt (d : Desc) : Nat := bits (fld d 0x10 2) 8 4
def ieeeMode (d : Desc) : Bool := bitAt (fld d 0x12 1) 0
def blockAxis (d : Desc) : Nat := bits (fld d 0x12 1) 4 1

/-- The converter's settings of a step (R128, R153). -/
def convOf (d : Desc) : Conv :=
  let m := fld d 0x12 1
  ⟨outFmt d, bitAt m 0, bitAt m 1, bits m 2 2, fld d 0x13 1, fld d 0x14 4⟩

/- Engines (R151, R156). -/
def engA : Nat := 0
def engV : Nat := 1
def engD : Nat := 2
def engW : Nat := 3
def engP : Nat := 4
def engF (flow : Nat) : Nat := 16 + flow

/- MATMUL (R159, R160). -/
def mmCtrl (d : Desc) : Nat := fld d 0x3A 1
def mmContinue (d : Desc) : Bool := bitAt (mmCtrl d) 0
def mmKeep (d : Desc) : Bool := bitAt (mmCtrl d) 1
def mmWarpT (d : Desc) : Bool := bitAt (mmCtrl d) 2
def mmWeftT (d : Desc) : Bool := bitAt (mmCtrl d) 3
def mmToVector (d : Desc) : Bool := opOf d == 1 && bitAt (mmCtrl d) 4
def mmU (d : Desc) : Nat := fld d 0x38 1
def mmV (d : Desc) : Nat := fld d 0x39 1
def mmTiles (d : Desc) : Nat := mmU d * mmV d
def mmK (d : Desc) : Nat := 16 * fld d 0x36 2

/-- Elements per chunk of a format (R12). -/
def fmtChunk (f : Nat) : Nat := if f = 0 then 16 else if f ≤ 2 then 32 else if f = 7 then 128 else 64

/-- Pass width: the narrower chunk of both operands (R13, R99). -/
def passWidth (d : Desc) : Nat := min (fmtChunk (warpFmt d)) (fmtChunk (weftFmt d))

/-- Chunks per pass (R160). -/
def mmChunks (d : Desc) : Nat := ceilDiv (mmK d) (passWidth d)

/-- x of R157. -/
def mmX (d : Desc) : Nat := b2n (mmWarpT d || mmWeftT d)

/-- P of R157. -/
def mmP (d : Desc) : Nat :=
  let c := mmChunks d + 8 * mmX d
  if mmKeep d then c else max c 64

/-- Span flow of the kinds that arm one (R179). -/
def flowOf (d : Desc) : Nat := fld d 0x18 1
def flitsOf (d : Desc) : Nat := fld d 0x24 4
def flowAddr (d : Desc) : Nat := bits (fld d 0x1C 8) 0 40
def lastBeat (d : Desc) : Nat := fld d 0x38 5

/-- Engines of a step (R156). -/
def enginesOf (d : Desc) : List Nat :=
  match opOf d with
  | 1 => if mmToVector d then [engA, engV] else [engA]
  | 2 => [engA, engV, engP]
  | 3 => [engV]
  | 4 => [engD]
  | 5 => [engD]
  | 6 => [engD]
  | 7 => [engF (flowOf d)]
  | 8 => [engF (flowOf d)]
  | 9 => [engV, engF (flowOf d)]
  | 10 => [engW]
  | 11 => [engW, engP]
  | 12 => bitList 4 (fld d 0x18 1)
  | 14 => [engD, engP]
  | _ => []

/- Lane programs of a step. -/

/-- LANE_PROG of the kinds that run one. -/
def laneProgOf (d : Desc) : Nat :=
  match opOf d with
  | 1 => fld d 0x3B 1
  | 3 => fld d 0x18 1
  | _ => fld d 0x3C 1

/-- Initial address registers (R159, R162, R173, R214). -/
def laneA0 (d : Desc) : List Nat :=
  match opOf d with
  | 1 => [fld d 0x20 4, fld d 0x2C 4, 0, 0, 0, 0, 0, 0]
  | 3 => (List.range 8).map fun i => fld d (0x1C + 4 * i) 4
  | _ => [fld d 0x1C 4, 0, 0, 0, 0, 0, 0, 0]

/- ATTEND, SKETCH, APPEND (R163). -/
def atPattern (d : Desc) : Nat := fld d 0x2B 1
def atQHeads (d : Desc) : Nat := fld d 0x2A 1
def atMaxPages (d : Desc) : Nat := fld d 0x30 2
def atFinal (d : Desc) : Bool := bitAt (atPattern d) 4
def atEpilogue (d : Desc) : Bool := opOf d == 2 && bitAt (atPattern d) 4 && bitAt (atPattern d) 5
def atFresh (d : Desc) : Bool := bitAt (atPattern d) 3
def skQueries (d : Desc) : Nat := fld d 0x26 1
def skTopk (d : Desc) : Nat := fld d 0x28 2
def apHeads (d : Desc) : Nat := fld d 0x26 1
def apCount (d : Desc) : Nat := fld d 0x2C 2

/-- WALK_INDEX of the kinds that name a walk entry. -/
def walkIndex (d : Desc) : Nat :=
  match opOf d with
  | 2 => fld d 0x32 2
  | 11 => fld d 0x2A 2
  | _ => fld d 0x2E 2

/-- A step that is prepared by the walker (R201). -/
def isPrepared (d : Desc) : Bool := opOf d == 2 || opOf d == 11 || opOf d == 14

/-- Preparation bound in beats (R201). -/
def prepBound (d : Desc) : Nat :=
  match opOf d with
  | 2 => 8 + atMaxPages d
  | 11 => 8
  | _ => 8 + apHeads d * (ceilDiv (apCount d + 255) 256 + 32)

/-- Stream rows that a step delivers to the vector unit (R162). -/
def streamRows (d : Desc) : Nat :=
  if mmToVector d then (if mmKeep d then 0 else 64 * mmTiles d) else if atEpilogue d then 2 * atQHeads d else 0

/-- Arrival of stream row r, counted from the issue cycle, for a core with m spare stages (R104, R214). -/
def rowArrival (d : Desc) (m r : Nat) : Nat :=
  if opOf d = 1 then r / 64 * mmP d + 8 * mmX d + mmChunks d + r % 64 + 17 + 2 * m
  else 284 + 2 * m + 384 * atMaxPages d + r

/-- The cycle in which a step's lane program starts (R162, R217). -/
def laneStart (d : Desc) (m : Nat) : Nat := if opOf d = 2 then 284 + 2 * m + 384 * atMaxPages d else 0

/- DMA (R174, R177). -/

/-- An address field: host or device, and its value (R174). -/
def moveAddr (d : Desc) (off : Nat) : Bool × Nat :=
  let v := fld d off 8
  if bitAt v 63 then (true, bits v 0 52) else (false, bits v 0 40)

def mvRowBytes (d : Desc) : Nat := fld d 0x28 4
def mvRows (d : Desc) : Nat := fld d 0x2C 4
def mvTranspose (d : Desc) : Bool := bitAt (fld d 0x38 1) 0
def mvElem (d : Desc) : Nat := 2 ^ bits (fld d 0x38 1) 1 2
def gaBase (d : Desc) : Nat := bits (fld d 0x18 8) 0 40
def gaLocal (d : Desc) : Nat := fld d 0x20 4
def gaIndex (d : Desc) : Nat := fld d 0x24 4
def gaCount (d : Desc) : Nat := fld d 0x28 4
def gaElem (d : Desc) : Nat := fld d 0x2C 4
def gaLimit (d : Desc) : Nat := bits (fld d 0x30 8) 0 40

/-- Where an address lies for a column: own DRAM, own buffer, another column, or nothing. -/
inductive Whose where
  | dram | buf | remote | nowhere
  deriving DecidableEq, Repr

def whose (n col a : Nat) : Whose :=
  match place n a with
  | .dram c _ => if c = col then .dram else .remote
  | .buf c _ => if c = col then .buf else .remote
  | _ => .nowhere

/-- An untimed host move (R176). -/
def isHostMove (d : Desc) : Bool := opOf d == 4 && ((moveAddr d 0x18).1 || (moveAddr d 0x20).1)

/-- Rows that a move writes and the bytes of each (R174, R175). -/
def moveShape (d : Desc) : Nat × Nat :=
  if mvTranspose d then (mvRowBytes d / mvElem d, mvRows d * mvElem d) else (mvRows d, mvRowBytes d)

/- ROWOP (R164, R254, R255). -/
def roOp (d : Desc) : Nat := fld d 0x18 1
def roCompound (d : Desc) : Nat := fld d 0x19 1
def roCount (d : Desc) : Nat := fld d 0x1A 2
def roStride (d : Desc) : Nat := fld d 0x1C 4
def roDst (d : Desc) : Nat := fld d 0x20 5
def roA (d : Desc) : Nat := fld d 0x25 5
def roB (d : Desc) : Nat := fld d 0x2A 5
def roC (d : Desc) : Nat := fld d 0x2F 5

/-- Activations of an operation; its duration is 16 cycles for each (R254, R255). -/
def rowCost (op compound : Nat) : Nat :=
  match op with
  | 1 => 5
  | 2 => 5
  | 3 => 8
  | 4 => 8
  | 5 => 3
  | 6 => 6
  | 10 => nth [8, 8, 6, 6, 10, 10, 16, 16, 22] compound 0
  | _ => 2

/-- Number of source rows that an operation uses (R254, R255). -/
def rowSources (op compound : Nat) : Nat :=
  match op with
  | 5 => 1
  | 6 => 3
  | 7 => 1
  | 8 => 0
  | 9 => 0
  | 10 => if compound ≤ 3 then 2 else 3
  | _ => 2

/-- The bank of a column offset within its column: tile and bank. -/
def bankAt (off : Nat) : Nat := tileOf off * 32 + bankOf off

/-- The rows of repetition k as device addresses: destination and used sources. -/
def roRows (d : Desc) (k : Nat) : List Nat :=
  (roDst d :: [roA d, roB d, roC d].take (rowSources (roOp d) (roCompound d))).map fun a => a + k * roStride d

/-- Timing procedure of R262: the end cycle; free cycles by bank, the bus, the next start, the latest end. -/
def roEndAux (d : Desc) : Nat → Nat → List (Nat × Nat) → Nat → Nat → Nat → Nat
  | 0, _, _, _, _, last => last + 16
  | n + 1, k, free, bus, t, last =>
    let at0 := fun b => (assoc free b).getD 0
    let dst := bankAt ((roDst d + k * roStride d) % colBytes)
    let src := bankAt ((roA d + k * roStride d) % colBytes)
    if roOp d = 7 ∧ src ≠ dst then
      let s := max t (max (at0 src) bus)
      let free := assocSet free src (s + 32)
      let e := max ((assoc free dst).getD 0) (s + 36896) + 32
      roEndAux d n (k + 1) (assocSet free dst e) (s + 36896) (s + 8) (max last e)
    else
      let s := max t (at0 dst)
      let e := s + 16 * rowCost (roOp d) (roCompound d)
      roEndAux d n (k + 1) (assocSet free dst e) bus (s + 8) (max last e)

def roEnd (d : Desc) : Nat := roEndAux d (roCount d) 0 [] 0 16 0

/- Nominal durations (R157). -/

/-- The offset of the last beat in which a slot of the image carries a flow (R157, R181). -/
def lastSlotBeat (y : Sys) (i : Image) (flow : Nat) : Nat :=
  ((i.ports.flatMap fun p => (slotTable y i p).filterMap fun e =>
    if e.2.2.any (·.toNat == flow) then some (e.1 + e.2.1 - 1) else none)).foldl max 0

/-- Duration of a DMA move (R157). -/
def moveEnd (n col : Nat) (d : Desc) : Nat :=
  let src := moveAddr d 0x18
  let dst := moveAddr d 0x20
  let lines := mvRows d * ceilDiv (mvRowBytes d) 256
  if src.1 || dst.1 then fld d 0x3C 4 * 64
  else
    let a := whose n col src.2
    let b := whose n col dst.2
    if a == .remote || b == .remote then 160 + ceilDiv (mvRows d * mvRowBytes d) 750
    else if a == .buf && b == .buf then 12 + ceilDiv lines 8
    else 104 + ceilDiv lines 8 + (if mvTranspose d then 64 else 0)

/-- Duration of a gather or scatter (R157). -/
def gatherEnd (n col : Nat) (d : Desc) : Nat :=
  let dramSide := 104 + gaCount d * max (ceilDiv (gaElem d) 2048) 4
  let bufSide := 12 + gaCount d * ceilDiv (gaElem d) 2048
  match place n (gaBase d) with
  | .dram c _ => if c = col then dramSide else max (dramSide + 56) (160 + ceilDiv (gaCount d * gaElem d) 750)
  | _ => if whose n col (gaBase d) == .buf then bufSide
         else max (bufSide + 56) (160 + ceilDiv (gaCount d * gaElem d) 750)

/-- HALT of a step's lane program, counted from the issue cycle. -/
def stepHalt (y : Sys) (i : Image) (col : Nat) (d : Desc) (m : Nat) : Nat :=
  match laneProgram y i col (laneProgOf d) with
  | none => 0
  | some t => haltCycle (laneStart d m) (streamRows d) (rowArrival d m) t

/-- End cycle, counted from an issue in cycle 4 + k of the start beat (R157, R210, R217, R223). -/
def nominalEnd (y : Sys) (i : Image) (col : Nat) (d : Desc) (m k : Nat) : Nat :=
  let at0 := fun (beat c : Nat) => (beat - startOffset d) * 64 + c - (4 + k)
  match opOf d with
  | 1 =>
    if mmKeep d then 8 * mmX d + mmChunks d + 79 + m
    else
      let e := (mmTiles d - 1) * mmP d + 8 * mmX d + mmChunks d + 80 + 2 * m
        + (if !mmToVector d && (fmtOf (outFmt d)).scaled && blockAxis d == 1 then 32 else 0)
      if mmToVector d then max e (stepHalt y i col d m) else e
  | 2 =>
    let e := 412 + 2 * m + 384 * atMaxPages d
    if atEpilogue d then max e (stepHalt y i col d m) else e
  | 3 => stepHalt y i col d m
  | 4 => moveEnd y.dev.map.n col d
  | 5 => gatherEnd y.dev.map.n col d
  | 6 => gatherEnd y.dev.map.n col d
  | 7 => at0 (lastSlotBeat y i (flowOf d)) 63
  | 8 => at0 (lastBeat d) 16
  | 9 => at0 (lastBeat d) 28
  | 10 => roEnd d
  | 11 =>
    let mx := match i.pw with
      | some b => walkMax y (readPw y b) (walkIndex d)
      | none => 0
    160 + skQueries d * (192 + 160 * ceilDiv mx 256 + mx)
  | 12 => at0 (startOffset d + fld d 0x1C 4) 3
  | 13 => 0
  | _ => 168 + 64 * apHeads d * apCount d

/-- Release cycles by engine, counted from the issue cycle (R157, R217). -/
def nominalRelease (d : Desc) (_m e : Nat) : List (Nat × Nat) :=
  (enginesOf d).map fun g =>
    if g = engA then
      (match opOf d with
        | 1 => (g, if mmKeep d then 8 * mmX d + mmChunks d else (mmTiles d - 1) * mmP d + 8 * mmX d + mmChunks d)
        | 2 => (g, 140 + 384 * atMaxPages d)
        | _ => (g, e + 1))
    else (g, e + 1)

/- Operand ranges, as device addresses, first and last byte (R183, R486). -/

/-- Buffer range of a column, empty where its length is 0. -/
def bufRange (col a len : Nat) : List (Nat × Nat) := if len = 0 then [] else [(bufAddr col a, bufAddr col a + len - 1)]

/-- The hull of rows that lie a stride apart. -/
def hull (a rows stride len : Nat) : List (Nat × Nat) :=
  if rows = 0 ∨ len = 0 then [] else [(a, a + (rows - 1) * stride + len - 1)]

/-- An operand of a MATMUL: base, row stride in bytes, format, scale base, scale stride in bytes, whether it is transposed. -/
structure Operand where
  addr : Nat
  stride : Nat
  fmt : Nat
  scaleAt : Nat
  scaleStride : Nat
  transposed : Bool

/-- The warp operand (R159, R160). -/
def warpOperand (d : Desc) : Operand :=
  ⟨fld d 0x18 4, fld d 0x30 2 * 64, warpFmt d, fld d 0x24 4, fld d 0x3C 1 * 64, mmWarpT d⟩

/-- The weft operand (R159, R160). -/
def weftOperand (d : Desc) : Operand :=
  ⟨fld d 0x1C 4, fld d 0x32 2 * 64, weftFmt d, fld d 0x28 4, fld d 0x3C 1 * 64, mmWeftT d⟩

/-- Operand and scale ranges of a MATMUL as buffer offsets, first and last byte (R96, R160, R183). -/
def matmulRanges (d : Desc) : List (Nat × Nat) :=
  let side := fun (o : Operand) (n : Nat) =>
    let len := if o.transposed then fmtBytes o.fmt n else fmtBytes o.fmt (mmK d)
    hull o.addr (if o.transposed then mmK d else n) o.stride len
      ++ (if (fmtOf o.fmt).scaled then hull o.scaleAt n o.scaleStride (ceilDiv (mmK d) 32) else [])
  side (warpOperand d) (64 * mmU d) ++ side (weftOperand d) (64 * mmV d)

/-- The retained parts of a walked page below its FILL (R218). -/
def pageRanges (p : PageDesc) : List (Nat × Nat) :=
  if p.fill = 0 ∨ p.kind ≠ 0x20 then []
  else
    (p.kPart, p.kPart + 128 * p.fill - 1) :: (p.smPart, p.smPart + 4 * p.fill - 1)
      :: ((List.range 128).map fun j => (p.vPart + 256 * j, p.vPart + 256 * j + p.fill - 1))
      ++ ((List.range 128).map fun j => (p.smPart + 0x400 + 8 * j, p.smPart + 0x400 + 8 * j + ceilDiv p.fill 32 - 1))

/-- Retained input ranges of a step (R183, R210, R218, R223). -/
def inputRanges (y : Sys) (i : Image) (col : Nat) (d : Desc) (pages : List PageDesc) : List (Nat × Nat) :=
  match opOf d with
  | 1 => (matmulRanges d).map fun r => (bufAddr col r.1, bufAddr col r.2)
  | 2 => bufRange col (fld d 0x18 4) 0x2280 ++ pages.flatMap pageRanges
  | 3 => match laneProgram y i col (laneProgOf d) with
    | some t => (laneRanges (outFmt d) (laneA0 d) t false).map fun r => (bufAddr col r.1, bufAddr col r.2)
    | none => []
  | 4 => let s := moveAddr d 0x18
         if s.1 then [] else hull s.2 (mvRows d) (fld d 0x30 4) (mvRowBytes d)
  | 5 => (if gaLimit d = 0 then [] else [(gaBase d, gaBase d + gaLimit d - 1)]) ++ bufRange col (gaIndex d) (4 * gaCount d)
  | 6 => bufRange col (gaLocal d) (gaCount d * gaElem d)
  | 9 => bufRange col (fld d 0x30 4) (256 * flitsOf d)
         ++ (if flitsOf d = 0 then [] else [(flowAddr d, flowAddr d + 256 * flitsOf d - 1)])
  | 14 => bufRange col (fld d 0x18 4) (768 * apHeads d * apCount d) ++ bufRange col (fld d 0x1C 4) (128 * apHeads d * apCount d)
  | _ => []

/-- A kind that R183 retains. -/
def isRetained (d : Desc) : Bool := [1, 2, 3, 4, 5, 6, 9, 14].contains (opOf d)

/-- Where converted elements and their scales of a flat output lie: elements, then scales on the next 64 bytes (R182, R214). -/
def flatOut (col a fmt elems : Nat) : List (Nat × Nat) :=
  let n := fmtBytes fmt elems
  bufRange col a (if (fmtOf fmt).scaled then ceilDiv n 64 * 64 + ceilDiv elems 32 else n)

/-- Elements that a REDUCE combines (R182). -/
def reduceElems (d : Desc) : Nat := flitsOf d * 256 / (if warpFmt d = 0 then 4 else 2)

/-- Ranges of its own column's buffer that a step writes (R486). -/
def outputRanges (y : Sys) (i : Image) (col : Nat) (d : Desc) : List (Nat × Nat) :=
  let lane := fun (_ : Unit) => match laneProgram y i col (laneProgOf d) with
    | some t => (laneRanges (outFmt d) (laneA0 d) t true).map fun r => (bufAddr col r.1, bufAddr col r.2)
    | none => []
  let own := fun a => whose y.dev.map.n col a == .buf
  match opOf d with
  | 1 =>
    if mmKeep d then [] else if mmToVector d then lane ()
    else
      let rows := 64 * mmU d
      let cols := 64 * mmV d
      hull (bufAddr col (fld d 0x20 4)) rows (64 * fld d 0x34 2) (fmtBytes (outFmt d) cols)
        ++ (if (fmtOf (outFmt d)).scaled then
              (if blockAxis d = 0 then hull (bufAddr col (fld d 0x2C 4)) rows (64 * fld d 0x3D 1) (2 * mmV d)
               else hull (bufAddr col (fld d 0x2C 4)) cols (64 * fld d 0x3D 1) (2 * mmU d))
            else [])
  | 2 => bufRange col (fld d 0x20 4) 135168
         ++ (if atEpilogue d then lane () else if atFinal d then flatOut col (fld d 0x1C 4) (outFmt d) (128 * atQHeads d)
             else bufRange col (fld d 0x1C 4) (576 * atQHeads d))
  | 3 => lane ()
  | 4 => let t := moveAddr d 0x20
         if t.1 || !own t.2 then [] else hull t.2 (moveShape d).1 (fld d 0x34 4) (moveShape d).2
  | 5 => bufRange col (gaLocal d) (gaCount d * gaElem d)
  | 6 => if own (gaBase d) && gaLimit d != 0 then [(gaBase d, gaBase d + gaLimit d - 1)] else []
  | 8 => if own (flowAddr d) && flitsOf d != 0 then [(flowAddr d, flowAddr d + 256 * flitsOf d - 1)] else []
  | 9 => flatOut col (fld d 0x34 4) (outFmt d) (reduceElems d)
  | 11 => bufRange col (fld d 0x1C 4) (4 * skTopk d * skQueries d)
  | _ => []

/- Operand reads of the array (R96, R97, R100, R104, R111, R160). -/

/-- Bytes at an offset of a column's buffer, as stored. -/
def bufBytesAt (y : Sys) (col a n : Nat) : List Byte := y.getN (bufKey (siteOf y.dev col) a) n

/-- The byte at a buffer offset that a read of a step in an array cycle sees: as it was before the first write that came no earlier than
the read, else as it stands (R96). -/
def byteSeen (y : Sys) (site : Nat) (s : StepRun) (r a : Nat) : Byte :=
  match s.overwrites.find? fun o => decide (r ≤ o.1) && decide (o.2.1 ≤ a) && decide (a < o.2.1 + o.2.2.length) with
  | some o => nth o.2.2 (a - o.2.1) 0
  | none => y.get (bufKey site a)

/-- The array cycle of the read of chunk 0 of pass k: a transposed operand is read 8 cycles before the pass's own cycle 0, through
the transposer (R157, R160; DEDUCED, log 92). -/
def readStart (d : Desc) (o : Operand) (k : Nat) : Nat := k * mmP d + (if o.transposed then 0 else 8 * mmX d)

/-- Row r of an operand over the reduction elements, each with its block-scale code; `rd` reads bytes for a chunk. -/
def operandRow (rd : Nat → Nat → Nat → List Byte) (o : Operand) (w k r : Nat) : List Scaled :=
  let es := if o.transposed then
      (List.range k).map fun q =>
        if o.fmt = 7 then
          let b := (nth (rd (q / w) (o.addr + q * o.stride + r / 2) 1) 0 0).toNat
          (fmtOf 7).decode (if r % 2 = 0 then b % 16 else b / 16)
        else nth (decodeElems o.fmt (rd (q / w) (o.addr + q * o.stride + fmtBytes o.fmt r) (fmtBytes o.fmt 1))) 0 (.fin false 0 0)
    else (List.range (ceilDiv k w)).flatMap fun c =>
      decodeElems o.fmt (rd c (o.addr + r * o.stride + fmtBytes o.fmt (c * w)) (fmtBytes o.fmt (min w (k - c * w))))
  if (fmtOf o.fmt).scaled then
    let ss := (List.range (ceilDiv k 32)).flatMap fun b => rd (32 * b / w) (o.scaleAt + r * o.scaleStride + b) 1
    (List.zip (List.range k) es).map fun e => (e.2, (nth ss (e.1 / 32) 0).toNat)
  else es.map fun e => (e, 127)

/-- The reads of a step at a site in pass k for a row that lags by `skew`: chunk c in its array cycle (R104). -/
def passReader (y : Sys) (site : Nat) (s : StepRun) (o : Operand) (k skew c a n : Nat) : List Byte :=
  (List.range n).map fun i => byteSeen y site s (readStart s.desc o k + c + skew) (a + i)

/-- The warp rows of pass k; row i lags by its physical row (R102, R160). -/
def warpRows (y : Sys) (site : Nat) (s : StepRun) (k : Nat) : List (List Scaled) :=
  let o := warpOperand s.desc
  (List.range 64).map fun i => operandRow (passReader y site s o k (nth (y.core site).skew i 0)) o (passWidth s.desc) (mmK s.desc)
    (64 * (k / mmV s.desc) + i)

/-- The weft columns of pass k, read with physical row 0 (R98, R160). -/
def weftCols (y : Sys) (site : Nat) (s : StepRun) (k : Nat) : List (List Scaled) :=
  let o := weftOperand s.desc
  (List.range 64).map fun j => operandRow (passReader y site s o k 0) o (passWidth s.desc) (mmK s.desc) (64 * (k % mmV s.desc) + j)

/- Steps of an image in time. -/

/-- The place k of a step among those that share its start beat (R150). -/
def beatPlace (list : List Desc) (idx : Nat) : Nat :=
  let o := startOffset (nth list idx [])
  ((list.take idx).filter fun d => startOffset d == o).length

end Sys2Proof.Machine
end

