-- ==== Sys2Proof/Machine/Gating.lean ====
section
/-! DEFINITION. Gated cycles of array issue: bubbles and droop bursts, their counts, and how they move what the array does (R101,
R157, R451 to R454). -/

namespace Sys2Proof.Machine

/-- A cycle lies in a droop burst of a site (R454). -/
def inBurst (p : SitePower) (c : Nat) : Bool := p.gates.any fun g => decide (g.1 ≤ c) && decide (c ≤ g.2)

/-- Cycle c of a beat is a bubble under ratio r (R452). -/
def isBubble (r c : Nat) : Bool := decide (c * r / 64 < (c + 1) * r / 64)

/-- Release of engine A of a step in flight with the cycles by which it has been lengthened, if it has engine A, number 0 (R157). -/
def releaseA (s : StepRun) : Option Nat :=
  if s.op ≤ 2 ∧ s.done = false then (assoc s.release 0).map (· + s.lengthen) else none

/-- The cycle at which row 0 of tile t of a MATMUL reaches the drain path with no stall but those counted so far (R101, R104). -/
def tileDue (s : StepRun) (m t : Nat) : Nat := s.issueAt + rowArrival s.desc m (64 * t) + s.lengthen + s.tail

/-- Why the array is held in a cycle: a droop burst, a bubble, or a stall of R101, R107 or R162. -/
inductive Held where
  | burst | bubble | stall
  deriving DecidableEq, Repr

/-- A held cycle moves the release of engine A of a step that holds it; after the release it moves the last tile of a MATMUL until
its row 0 has reached its final aligned accumulation (R101, R452, R456). -/
def gateStep (why : Held) (m c : Nat) (s : StepRun) : StepRun :=
  match releaseA s with
  | some r =>
    if s.issueAt ≤ c ∧ c < r then
      { s with lengthen := s.lengthen + 1, droopCycles := s.droopCycles + b2n (why == .burst)
               bubbleCycles := s.bubbleCycles + b2n (why == .bubble) }
    else if s.op = 1 ∧ r ≤ c ∧ c + 1 + m ≤ tileDue s m (mmTiles s.desc - 1) then { s with tail := s.tail + 1 }
    else s
  | none => s

/-- A held cycle moves the delivery of a row that has not reached its final aligned accumulation, 1 + m cycles before it (R101,
R104). -/
def gateRow (m c due : Nat) : Nat := if c + 1 + m ≤ due then due + 1 else due

/-- What a held cycle does in a core. -/
def gateCore (why : Held) (c : Nat) (k : Core) : Core :=
  { k with steps := k.steps.map (gateStep why k.spareStage c)
           rows := k.rows.map fun r => (gateRow k.spareStage c r.1, r.2)
           draining := k.draining.map fun d => { d with rows := d.rows.map (gateRow k.spareStage c) } }

/-- The array of a core is held for n cycles from cycle c on: every step in it and behind it moves (R101). -/
def stallArray (c n : Nat) (k : Core) : Core := (List.range n).foldl (fun k i => gateCore .stall (c + i) k) k

/-- The passes in the array of a core wait for n cycles from cycle c on, while the rows in its drain path go on (R107). -/
def stallPasses (c n : Nat) (k : Core) : Core :=
  (List.range n).foldl (fun k i => { k with steps := k.steps.map (gateStep .stall k.spareStage (c + i)) }) k

/-- Counts the gated cycles of the present beat before cycle `upTo` and moves what they delay (R452 to R454). -/
def gateTo (upTo : Nat) (y : Sys) (site : Nat) : Sys :=
  let p := nth y.dev.power.sites site {}
  if !y.dev.boot.powered.contains site || (p.ratio == 0 && p.gates.isEmpty) then y
  else
    let b0 := y.dev.beat.wbc * 64
    let cs := (List.range (min 64 upTo)).filter fun c => decide (p.gatedCyc ≤ c)
    let burst := cs.filter fun c => inBurst p (b0 + c)
    let bubble := cs.filter fun c => isBubble p.ratio c && !burst.contains c
    let y := y.onSitePow site fun p => { p with
      droop := sat32 (p.droop + burst.length), bubble := sat32 (p.bubble + bubble.length), gatedCyc := max p.gatedCyc (min 64 upTo) }
    y.onCore site fun k =>
      (cs.filter fun c => burst.contains c || bubble.contains c).foldl
        (fun k c => gateCore (if burst.contains c then .burst else .bubble) (b0 + c) k) k

/-- The beat of a site ends: its gated cycles have been counted, and bursts that are over are forgotten. -/
def endGating (y : Sys) (site : Nat) : Sys :=
  let p := nth y.dev.power.sites site {}
  if p.gatedCyc = 0 && p.gates.isEmpty then y
  else
    let b0 := y.dev.beat.wbc * 64
    y.onSitePow site fun p => { p with gatedCyc := 0, gates := p.gates.filter fun g => decide (b0 + 64 ≤ g.2) }

end Sys2Proof.Machine
end

