-- ==== Sys2Proof/Machine/Routes.lean ====
section
/-! DEFINITION. The mesh: attached units, failed and cut-off routers, route tables and their hops (R301, R305, R307 to R310,
R323). -/

namespace Sys2Proof.Machine

/-- Grid column and row of a site (R21, R301). -/
def gridX (s : Nat) : Nat := s % 6
def gridY (s : Nat) : Nat := s / 6

/-- The site of a span port's router (R301). -/
def portSite (p : Nat) : Nat := if p < 6 then p else p + 6

/-- The mesh neighbour of a router through a port: 1 N, 2 S, 3 E, 4 W (R309). -/
def neighbour (s port : Nat) : Option Nat :=
  match port with
  | 1 => if gridY s < 2 then some (s + 6) else none
  | 2 => if 0 < gridY s then some (s - 6) else none
  | 3 => if gridX s < 5 then some (s + 1) else none
  | 4 => if 0 < gridX s then some (s - 1) else none
  | _ => none

/-- A router that has not failed but whose every mesh neighbour has (R307). -/
def cutOff (failed : List Nat) (s : Nat) : Bool :=
  !failed.contains s && ([1, 2, 3, 4].filterMap (neighbour s)).all failed.contains

/-- A router in service (R307). -/
def routerUsable (failed : List Nat) (s : Nat) : Bool := decide (s < 18) && !failed.contains s && !cutOff failed s

/-- Dimension order: east or west first, then north or south (R305). -/
def dimensionOrder (r d : Nat) : Nat :=
  if gridX r < gridX d then 3 else if gridX d < gridX r then 4
  else if gridY r < gridY d then 1 else if gridY d < gridY r then 2 else 0

/-- One step of the check of a route on tables: layer, and whether a hop that was not west has been made on it (R308). -/
def routeValid (failed : List Nat) (entry : Nat → Nat → Nat) (d : Nat) : Nat → Nat → List Nat → Bool → Bool → Bool
  | 0, r, _, _, _ => r == d
  | fuel + 1, r, seen, layer1, turned =>
    if r = d then entry r d % 8 == 0
    else
      let e := entry r d
      match neighbour r (e % 8) with
      | none => false
      | some n =>
        let sw := bitAt e 3 && !layer1
        let t := if sw then false else turned
        let west := e % 8 == 4
        if failed.contains n || seen.contains n || (west && t) then false
        else routeValid failed entry d fuel n (n :: seen) (layer1 || sw) (t || !west)

/-- A valid set of tables for the failed routers (R308). -/
def tablesValid (failed : List Nat) (entry : Nat → Nat → Nat) : Bool :=
  (List.range 18).all fun r => (List.range 18).all fun d =>
    !(routerUsable failed r && routerUsable failed d) || routeValid failed entry d 12 r [r] false false

/-- A preference of the search for tables: the order of the ports, and one hop (router, port) that it does without. -/
abbrev Preference := List Nat × Option (Nat × Nat)

/-- Where a router's port leads under a preference. -/
def hop (pref : Preference) (r p : Nat) : Option Nat := if pref.2 = some (r, p) then none else neighbour r p

/-- Hops from every router to a destination over routers in service, 99 where there is no way (R307, R308). -/
def hopsTo (failed : List Nat) (pref : Preference) (d : Nat) : List Nat :=
  (List.range 18).foldl (fun l _ => (List.range 18).map fun r =>
    if r = d then 0
    else if !routerUsable failed r then 99
    else 1 + (([1, 2, 3, 4].filterMap (hop pref r)).map fun n => nth l n 99).foldl min 98)
    (List.replicate 18 99)

/-- The first port of a preference that brings a packet nearer to its destination. -/
def nearerPort (hops : List Nat) (pref : Preference) (r : Nat) : Nat :=
  ((pref.1.find? fun p => match hop pref r p with
    | some n => nth hops n 99 + 1 == nth hops r 99
    | none => false).getD 0)

/-- The routers that a packet from a router leaves to the west after a hop that was not west. -/
def westTurns (ports : List Nat) (d : Nat) : Nat → Nat → Bool → List Nat
  | 0, _, _ => []
  | fuel + 1, r, turned =>
    if r = d then []
    else
      let p := nth ports r 0
      match neighbour r p with
      | none => []
      | some n => (if turned && p == 4 then [r] else []) ++ westTurns ports d fuel n (turned || p != 4)

/-- Shortest ways to a destination under a preference, changing layer where a route would turn west (R308). -/
def detourColumn (failed : List Nat) (d : Nat) (pref : Preference) : List Nat :=
  let hops := hopsTo failed pref d
  let ports := (List.range 18).map fun r => if r = d then 0 else nearerPort hops pref r
  let turns := ((List.range 18).filter (routerUsable failed)).flatMap fun s => westTurns ports d 12 s false
  (List.range 18).map fun r => nth ports r 0 + (if turns.contains r then 8 else 0)

/-- The entries for one destination form routes that meet R308. -/
def columnValid (failed : List Nat) (d : Nat) (col : List Nat) : Bool :=
  (List.range 18).all fun r =>
    !(routerUsable failed r && routerUsable failed d) || routeValid failed (fun a _ => nth col a 0) d 12 r [r] false false

/-- The preferences in the order in which they are tried: every way open first, then without one hop. -/
def preferences : List Preference :=
  let orders := [[4, 3, 2, 1], [4, 3, 1, 2], [1, 4, 3, 2], [2, 4, 3, 1]]
  (orders.map fun o => (o, none))
    ++ (List.range 18).flatMap fun r => [1, 2, 3, 4].flatMap fun p => orders.map fun o => (o, some (r, p))

/-- Tables around failed routers, per destination by the first preference that gives valid routes; as entries 18 * r + d. -/
def detourTables (failed : List Nat) : List Nat :=
  let cols := (List.range 18).map fun d =>
    detourColumn failed d ((preferences.find? fun p => columnValid failed d (detourColumn failed d p)).getD ([4, 3, 2, 1], none))
  (List.range 324).map fun i => nth (nth cols (i % 18) []) (i / 18) 0

/-- The entries that the worked example of R310 gives when router 3 alone has failed: router, destination, how much of the entry it
gives (16 with its LAYER_SWITCH bit, 8 its port only) and the entry. -/
def exampleEntries : List (Nat × Nat × Nat × Nat) :=
  [(0, 17, 16, 3), (1, 17, 16, 3), (2, 17, 16, 1), (8, 17, 16, 3), (9, 17, 16, 3), (10, 17, 16, 3), (11, 17, 16, 1), (2, 4, 16, 1),
   (8, 4, 16, 3), (9, 4, 16, 3), (10, 4, 16, 2), (4, 2, 16, 1), (10, 2, 16, 12), (9, 2, 8, 4), (8, 2, 8, 2)]

/-- Tables agree with the worked example of R310 where it applies. -/
def meetsExample (failed : List Nat) (entry : Nat → Nat → Nat) : Bool :=
  failed != [3] || exampleEntries.all fun e => entry e.1 e.2.1 % e.2.2.1 == e.2.2.2

/-- Follows the entries from a router: hops and whether the layer changes, or nothing when the destination is not reached in 12
hops. -/
def followRoute (entry : Nat → Nat → Nat) (d : Nat) : Nat → Nat → Option (Nat × Bool)
  | 0, r => if r = d then some (0, false) else none
  | fuel + 1, r =>
    if r = d then some (0, false)
    else (neighbour r (entry r d % 8)).bind fun n =>
      (followRoute entry d fuel n).map fun h => (h.1 + 1, h.2 || bitAt (entry r d) 3)

/-- Tables with which every router in service reaches every other past no failed router, whatever its turns (R307). -/
def routesRound (failed : List Nat) (entry : Nat → Nat → Nat) : Bool :=
  let entry := fun r d => if failed.contains r then 0 else entry r d
  let up := (List.range 18).filter (routerUsable failed)
  up.all fun r => up.all fun d => (followRoute entry d 12 r).isSome

/-- The device's own tables: dimension order with no failed router; else its free choice where that meets R308 and the worked example
of R310, and detours found by search where those meet R308. For six pairs of failed routers no tables can meet R308's turn rule
(routers 6 and 2, 3, 4, 14, 15 or 16, which leave router 0 or 12 one way in): there the free choice stands if it routes round the failed routers as R307
asks, and the detours if not (R307, R308; DEDUCED, log 20). -/
def ownTable (failed : List Nat) : Nat → Nat → Nat :=
  if failed.isEmpty then dimensionOrder
  else
    let free := fun r d => Config.ownRoute failed r d % 16
    let tabs := detourTables failed
    let detour := fun r d => nth tabs (18 * r + d) 0
    if tablesValid failed free && meetsExample failed free then free
    else if tablesValid failed detour then detour
    else if routesRound failed free then free else detour

/-- An entry of the routing tables: port [2:0], LAYER_SWITCH [3], from the set in force or the device's own (R308, R309). -/
def routeEntry (y : Sys) : Nat → Nat → Nat :=
  if cfg y 6 0 1 0 = 1 then fun r d => bits (cfg y 6 (8 + 18 * r + d) 1 0) 0 4 else ownTable y.dev.noc.failed

/-- A packet apart from what a router changes in it. -/
def packetId (p : Packet) : Packet := { p with layer := false, hdrCrc := 0, spoiled := false }

/-- The entry by which a router passes a packet on: of the tables in force before a swap where the packet was routed under them (R90,
R308). -/
def packetEntry (y : Sys) (r : Nat) (p : Packet) : Nat :=
  match y.dev.noc.kept.find? fun k => k.1 == packetId p with
  | some k => nth k.2 r 0
  | none => routeEntry y r p.dest

/-- The packets on their way, each with the entries for its destination at every router (R90; DEDUCED, log 20: a packet is routed when
it has left its source endpoint). -/
def routesUnderWay (y : Sys) : List (Packet × List Nat) :=
  let n := y.dev.noc
  n.out.map fun o => ((n.kept.find? fun k => k.1 == packetId o.2).getD
    (packetId o.2, (List.range 18).map fun r => routeEntry y r o.2.dest))

/-- HOST_TABLES: the set in force has ROUTE_MODE 1 (R309, R323). -/
def hostTables (y : Sys) : Bool := decide (cfg y 6 0 1 0 = 1)

/-- DETOUR: a route between two routers in service leaves by another port than dimension order (R305, R323; DEDUCED, log 57). -/
def detoured (y : Sys) : Bool :=
  let up := (List.range 18).filter (routerUsable y.dev.noc.failed)
  up.any fun r => up.any fun d => r != d && routeEntry y r d % 8 != dimensionOrder r d

/-- Hops of a route and its change of layer (R308). -/
def route (y : Sys) (s d : Nat) : Option (Nat × Bool) := followRoute (routeEntry y) d 12 s

/-- Cycles by which a request and its response exceed 14 hops (R310). -/
def routeExcess (y : Sys) (s d : Nat) : Nat :=
  let h := fun a b => match route y a b with
    | some r => r.1
    | none => 0
  3 * (h s d + h d s - 14)

/-- NOC_HOP_INFO of the selected pair (R323). -/
def hopInfo (y : Sys) : Nat :=
  let n := y.dev.noc
  if routerUsable n.failed n.hopSrc && routerUsable n.failed n.hopDst then
    match route y n.hopSrc n.hopDst with
    | some h => h.1 + 16 * b2n h.2 + 256 * (7 + 3 * h.1) + 2 ^ 16
    | none => 2 ^ 16
  else 0

end Sys2Proof.Machine
end

