-- ==== Sys2Proof/Machine/Shuttle.lean ====
section
/-! DEFINITION. The shuttle network: its nodes and stops, the flits of a message with their sideband, the ways of messages and the order
of their classes (R301, R309, R314 to R317, R321). -/

namespace Sys2Proof.Machine

/- Nodes and stops (R301, R314). -/

/-- The router, or the stop, by which the control complex sends to a place: port A to grid columns 0 to 2, port B to the others, and the
other port for every destination where one is unusable (R301, R314). -/
def ccRouter (failed : List Nat) (dest : Nat) : Nat :=
  let a := routerUsable failed 8
  let b := routerUsable failed 9
  if a && b then (if gridX dest < 3 then 8 else 9) else if a then 8 else 9

/-- The stop of a node for a message whose other end is at a site: 0 to 17 a site, 24 the control complex, 25 the span control unit
(R314; DEDUCED, log 50: the control complex receives a site's messages at the stop by which it sends to that site). -/
def nodeStop (failed : List Nat) (node site : Nat) : Nat := if node < 18 then node else if node = 24 then ccRouter failed site else 9

/-- The nodes that a message reaches: 31 is every core (R314). -/
def nodeTargets (dest : Nat) : List Nat := if dest = 31 then List.range 18 else [dest]

/- Messages and flits (R315, R316). -/

/-- A shuttle class by its number, and the cycles from head to tail that R316 allows it, where it names a bound. -/
def classBound (cls : Nat) : Option Nat := if cls < 3 then some 64 else none

/-- A message: class, source, destination, the source's incarnation and 8 to 32 bytes. -/
structure ShuttleMsg where
  cls : Nat
  src : Nat
  dest : Nat
  inc : Nat
  data : List Byte
  deriving DecidableEq, Repr

/-- One flit: 8 bytes of payload and a sideband of 40 bits. -/
structure ShuttleFlit where
  payload : List Byte
  sideband : BitVec 40
  deriving DecidableEq, Repr

/-- The bit that makes the parity of the low n bits of a number even. -/
def evenParity (n v : Nat) : Nat := ((List.range n).map fun i => bits v i 1).sum % 2

/-- Bits [23:0] of a flit's sideband: VALID, HEAD, TAIL, CLASS, DEST, SRC and INC. -/
def sidebandFields (m : ShuttleMsg) (head tail : Bool) : Nat :=
  1 + 2 * b2n head + 4 * b2n tail + 8 * m.cls + 2 ^ 6 * m.dest + 2 ^ 11 * m.src + 2 ^ 16 * m.inc

/-- PAR: a parity bit for each of the 8 bytes. -/
def payloadParity (p : List Byte) : Nat := ((List.range 8).map fun k => 2 ^ k * evenParity 8 (nth p k 0).toNat).sum

/-- The flits of a message, 1 to 4 (R315). -/
def messageFlits (m : ShuttleMsg) : List ShuttleFlit :=
  let ps := (chunks 8 m.data).map (padTo 8)
  (List.zip ps (List.range ps.length)).map fun p =>
    let f := sidebandFields m (p.2 == 0) (p.2 + 1 == ps.length)
    ⟨p.1, BitVec.ofNat 40 (f + 2 ^ 24 * payloadParity p.1 + 2 ^ 32 * evenParity 24 f)⟩

/-- A stop finds no parity error in a flit (R315, R317). -/
def flitSound (f : ShuttleFlit) : Bool :=
  let s := f.sideband.toNat
  bits s 24 8 == payloadParity f.payload && bits s 32 1 == evenParity 24 (bits s 0 24)

/-- The 32 bytes of a page descriptor (R205). -/
def pageDescBytes (p : PageDesc) : List Byte :=
  leBytes 1 p.kind ++ leBytes 1 p.source ++ leBytes 2 p.fill ++ leBytes 4 p.page ++ leBytes 5 p.kPart ++ leBytes 5 p.vPart ++ leBytes 5 p.smPart
    ++ [0] ++ leBytes 4 p.frame ++ List.replicate 4 0

/-- The two messages of a fault record (R315). -/
def faultMessages (src inc : Nat) (b : List Byte) : List ShuttleMsg := [⟨4, src, 24, inc, b.take 32⟩, ⟨4, src, 24, inc, b.drop 32⟩]

/-- The message that a link output begins next among those waiting: of the highest class, the oldest (R316, R317). -/
def nextMessage (l : List ShuttleMsg) : Option ShuttleMsg :=
  (List.range 7).findSome? fun c => l.find? fun m => m.cls == c

/-- The messages of records and page descriptors that are on the network, in the order in which each was sent (R205, R315, R317). -/
def messagesUnderWay (y : Sys) : List ShuttleMsg :=
  (((y.dev.host.stsOut.filter fun r => decide (r.src < 18)).map fun r => ⟨3, r.src, 24, r.inc, r.data⟩)
    ++ (y.dev.host.faultOut.filter fun r => decide (r.src < 18)).flatMap fun r => faultMessages r.src r.inc r.data)
    ++ (List.range 18).flatMap fun s => (y.core s).descOut.map fun p => ⟨2, 24, s, 0, pageDescBytes p⟩

/-- The stops from one to another by the entries of the tables, both included; none where they do not lead there (R309). -/
def stopsTo (entry : Nat → Nat → Nat) (d : Nat) : Nat → Nat → List Nat
  | 0, _ => []
  | fuel + 1, r =>
    if r = d then [r]
    else match neighbour r (entry r d % 8) with
      | none => []
      | some n => let l := stopsTo entry d fuel n; if l.isEmpty then [] else r :: l

/-- The stops that a message passes from a node to a node (R309, R314). -/
def messageWay (y : Sys) (src dest : Nat) : List Nat :=
  let failed := y.dev.noc.failed
  let stop := fun a b => nodeStop failed a (nodeStop failed b 0)
  stopsTo (routeEntry y) (stop dest src) 13 (stop src dest)

/- What a stop does (R317, R321). -/

/-- A shuttle message with a parity error is discarded and counted at the stop that finds it (R317). -/
def shuttleError (y : Sys) (stop : Nat) : Sys := y.onSiteNoc stop fun n => { n with shuttleErr := sat32 (n.shuttleErr + 1) }

/-- A lost message of class STATUS or FAULT, for the record of the next window (R492). -/
def lostMessage (fault : Bool) (y : Sys) (stop : Nat) : Sys :=
  (shuttleError y stop).onSiteNoc stop fun n =>
    if fault then { n with lostFault := n.lostFault + 1 } else { n with lostStatus := n.lostStatus + 1 }

/-- What happens to a message: a stop on its way that finds a parity error discards it; a stop that the message does not pass finds none
(R317). -/
def withParity (y : Sys) (src dest : Nat) (found : Option Site) (lost : Nat → Sys) (arrives : Sys) : Sys :=
  match found with
  | none => arrives
  | some s => if (messageWay y src dest).contains s.val then lost s else arrives

/-- A record that a core sent: its incarnation is checked at the control complex's stop, its parity on the way; one that the control
complex wrote itself is no message (R315, R317, R318, R321). -/
def recordArrives (y : Sys) (fault : Bool) (r : SentRecord) (found : Option Site) (arrives : Sys) : Sys :=
  if 18 ≤ r.src then arrives
  else withParity y r.src 24 found (lostMessage fault y) <|
    if siteInc y.dev r.src = some r.inc then arrives
    else y.onSiteNoc (ccRouter y.dev.noc.failed r.src) fun n => { n with staleDrops := sat32 (n.staleDrops + 1) }

end Sys2Proof.Machine
end

