-- ==== Sys2Proof/Machine/Issue.lean ====
section
/-! DEFINITION. The step sequencer: fetching, issue, missed starts, retention, reads and writes of a step, mesh requests, the
sluice, check faults and the start of a replay, projection of slack (R70, R149 to R152, R183, R247, R303, R321, R456, R457,
R478 to R491). -/

namespace Sys2Proof.Machine

/-- What a step is issued with. Its index is the place in the list, above bit 31 the core's count of runs begun, so that steps of two
runs that are in flight together are told apart (R78, R89). -/
structure StepCtx where
  site : Nat
  col : Nat
  part : Nat
  img : Image
  index : Nat
  d : Desc
  cyc : Nat
  replay : Bool

/-- Requester of a step's reads and writes. -/
def StepCtx.who (x : StepCtx) : Requester := .step x.col x.index

/-- START_OFFSET values of a step list up to an index, for the place of a step in its beat (R150). -/
def placeInBeat (y : Sys) (i : Image) (col idx : Nat) : Nat :=
  match i.secAt 1 col with
  | none => 0
  | some (a, _) =>
    let o := devField y (a + 64 * idx + 8) 5
    ((List.range idx).filter fun k => devField y (a + 64 * k + 8) 5 == o).length

/-- The next step of a column when this is its issue cycle: the stamp's beat has come, it is no hold beat, the partition
issues, and the core is neither fenced nor stopped (R46, R62, R150, R396, R420, R497). -/
def issueNow (y : Sys) (col cyc : Nat) : Option StepCtx :=
  match columnRun y col with
  | none => none
  | some (q, i, r) =>
    let site := siteOf y.dev col
    let c := y.core site
    let idx := c.nextIndex
    let draining := match nth y.dev.boot.disabling q .no with
      | .drain since => decide (since < y.dev.beat.wbc)
      | .no => false
      | _ => true
    if partState y.dev q ≠ .running || draining || y.dev.beat.holdActive || y.dev.noc.fenced.contains site || c.seqState == 3
      || y.dev.beat.clockStopped || y.dev.power.clocksStopped then none
    else match stepDesc y site i col idx with
      | none => none
      | some d =>
        if sbc y.dev = r.start + r.run * i.length + startOffset d ∧ cyc = 4 + placeInBeat y i col idx then
          some ⟨site, col, q, i, idx + 2 ^ 32 * c.epoch, d, cyc, false⟩
        else none

/-- STEP_DESCRIPTOR_FETCH: the next descriptor is read from DRAM ahead of its start beat (R150); an uncorrectable read stops the
partition as for a step (R280). -/
def stepDescriptorFetch (col : Nat) (y : Sys) : Sys :=
  match columnRun y col with
  | none => y
  | some (q, i, _) =>
    let site := siteOf y.dev col
    let c := y.core site
    let idx := c.nextIndex + c.fetched.length
    match i.secAt 1 col with
    | none => y
    | some (a, n) =>
      if !(partLive y.dev q) || n ≤ 64 * idx then y
      else match addrKey y.dev (a + 64 * idx) with
        | none => y
        | some k =>
          let r := readBank y k 64 (.step col idx)
          match r.1 with
          | .ok b => r.2.onCore site fun c => { c with fetched := c.fetched ++ [(idx, b)] }
          | .error _ => stopSite r.2 site 4

def execStepDescriptorFetch (col : Col) (s : State) : Host.Outcome State Fault Refusal := onSys (stepDescriptorFetch col) s

/-- A step holds an engine at a cycle (R151, R157): A of a MATMUL or ATTEND until its own release cycle with the lengthenings,
every other engine until the cycle after the step's end. -/
def holdsEngine (s : StepRun) (now g : Nat) : Bool :=
  s.release.any fun r => r.1 == g &&
    (if g = engA ∧ s.op ≤ 2 then decide (now < r.2 + s.lengthen)
     else match s.endAt with
      | none => !s.done
      | some t => decide (now ≤ t))

/-- An engine of a core is busy at a cycle (R151, R157). -/
def engineBusy (c : Core) (now g : Nat) : Bool := c.steps.any fun s => holdsEngine s now g

/-- Ages the retention: a step is retained until the second later step on one of its engines issues (R183). -/
def ageRetention (engines : List Nat) (now : Nat) (l : List StepRun) : List StepRun :=
  let aged := l.map fun s =>
    if (enginesOf s.desc).any engines.contains then
      { s with laterUses := s.laterUses + 1, ret := if 1 ≤ s.laterUses then { s.ret with live := false } else s.ret }
    else s
  aged.filter fun s => !s.done || s.ret.live || (enginesOf s.desc).any (holdsEngine s now)

/-- The record of a step that issues at a cycle. -/
def newStep (y : Sys) (x : StepCtx) (pages : List PageDesc) : StepRun :=
  let now := cycNow y.dev x.cyc
  let m := (y.core x.site).spareStage
  let e := nominalEnd y x.img x.col x.d m (x.cyc - 4)
  { index := x.index, run := (nth y.dev.sched.runs x.part {}).run, desc := x.d, op := opOf x.d, issueSbc := sbc y.dev,
    issueAt := now, firstIssue := now, nominalEnd := now + e, img := some x.img,
    feeds := if opOf x.d = 1 then matmulRanges x.d else [],
    release := (nominalRelease x.d m e).map fun r => (r.1, now + r.2),
    ret := { ranges := if isRetained x.d then inputRanges y x.img x.col x.d pages else [], live := isRetained x.d } }

/-- A missed start: recorded, the partition stops and an open hold is requested (R70, R185, R187). -/
def missedStart (y : Sys) (x : StepCtx) : Sys :=
  let s := { newStep y x [] with outcome := some 4, done := true, endAt := some (cycNow y.dev x.cyc), ret := {} }
  let y := y.onCore x.site fun c => { c with missed := sat16 (c.missed + 1), nextIndex := c.nextIndex + 1 }
  stopSite (recordStep y x.site s 0) x.site 6

/-- A step refused at its issue without any change (R186). -/
def refusedStep (y : Sys) (x : StepCtx) (walkErr : Nat) : Sys :=
  let s := { newStep y x [] with outcome := some 6, done := true, endAt := some (cycNow y.dev x.cyc), ret := {} }
  recordStep (y.onCore x.site fun c => { c with nextIndex := c.nextIndex + 1, lastStep := x.index % 2 ^ 24,
                                                fetched := assocDel c.fetched (x.index % 2 ^ 32) }) x.site s walkErr

/-- The start of a step: retention ages, flag sets are cleared, the step is in flight (R146, R150, R151, R183). -/
def beginStep (y : Sys) (x : StepCtx) (pages : List PageDesc) : Sys :=
  let now := cycNow y.dev x.cyc
  let s := newStep y x pages
  y.onCore x.site fun c =>
    { c with steps := ageRetention (enginesOf x.d) now c.steps ++ [s], fp := clearSets c.fp (stepCtrl x.d),
             nextIndex := c.nextIndex + 1, lastStep := x.index % 2 ^ 24, seqState := 1,
             fetched := assocDel c.fetched (x.index % 2 ^ 32) }

/- Reads and writes of a step. -/

/-- A bus error of a step in a cycle of the beat: it ends, a replay is abandoned, the partition stops (R280, R485, R491, R511). -/
def busError (y : Sys) (site i cyc : Nat) : Sys :=
  stopSite (endStep (abandonReplay y site 3) site i 3 0 cyc) site 4

/-- Cycles from a step's read of its column's memory to the data: 6 for the buffer tile, 56 or 104 for DRAM with the row open or closed
(R97, R235, R511). -/
def readLatency (y : Sys) (a : Nat) : Nat :=
  match place y.dev.map.n a with
  | .buf _ _ => 6
  | .dram c o => if (y.bank (bankId (siteOf y.dev c) (tileOf o) (bankOf o))).openRow = some (rowOf o) then 56 else 104
  | _ => 0

/-- Reads device bytes of one memory through its checker. -/
def readDev (y : Sys) (a n : Nat) (who : Requester) : Except Nat (List Byte) × Sys :=
  if n = 0 then (.ok [], y)
  else match addrKey y.dev a with
    | none => (.ok (List.replicate n 0), y)
    | some k => readBank y k n who

/-- A read of the control complex met uncorrectable data: a firmware fault is reported, and the partition whose column holds it stops as for
a step (R280; DEDUCED, log 94). -/
def ccFailed (y : Sys) (a : Nat) : Sys :=
  let y := firmwareRecord y 0 a
  match place y.dev.map.n a with
  | .dram c _ => if (partOf y c).isSome then stopSite y (siteOf y.dev c) 4 else y
  | .buf c _ => if (partOf y c).isSome then stopSite y (siteOf y.dev c) 4 else y
  | _ => y

/-- A read of the control complex for its own work, through the checker: whether the data is sound (R280). -/
def ccRead (y : Sys) (a n : Nat) : Bool × Sys :=
  let r := readDev y a n .control
  match r.1 with
  | .ok _ => (true, r.2)
  | .error _ => (false, firmwareRecord r.2 0 a)

/-- Reads bytes for a step and goes on with them, or ends the step with a bus error (R280). -/
def stepReads (y : Sys) (x : StepCtx) (a n : Nat) (f : Sys → List Byte → Sys) : Sys :=
  let r := readDev y a n x.who
  match r.1 with
  | .ok b => f r.2 b
  | .error _ => busError r.2 x.site x.index (x.cyc + readLatency y a)

/-- A step is still in flight. -/
def inFlight (y : Sys) (site i : Nat) : Bool := (liveStep (y.core site) i).isSome

/-- Writes into the column's own buffer, which do not pass the sluice (R482). -/
def bufWrite (y : Sys) (x : StepCtx) (a : Nat) (data : List Byte) : Sys :=
  let w := writeDev y a data (fullMask data) x.who none
  if w.1 then busError w.2 x.site x.index x.cyc else w.2

/-- The pieces of a range that lie within one line of `lim` bytes each: offset from the start, address, length. -/
def linePieces (lim : Nat) : Nat → Nat → Nat → Nat → List (Nat × Nat × Nat)
  | 0, _, _, _ => []
  | fuel + 1, off, a, len =>
    if len = 0 then []
    else
      let n := min len (lim - a % lim)
      (off, a, n) :: linePieces lim fuel (off + n) (a + n) (len - n)

/-- The pieces of a range by lines. -/
def byLines (lim a len : Nat) : List (Nat × Nat × Nat) := linePieces lim (len / lim + 2) 0 a len

/-- Lays data over a line by its mask. -/
def overlay (old : List Byte) (oldMask : List Bool) (at0 : Nat) (data : List Byte) : List Byte × List Bool :=
  (splice old at0 data, (List.range 256).map fun i => nth oldMask i false || (decide (at0 ≤ i) && decide (i < at0 + data.length)))

/-- Holds a write within one 256-byte line at the sluice: one entry for each line that a row or element writes; the largest
number of entries held is recorded (R482, R484). -/
def holdLine (y : Sys) (site i row a : Nat) (data : List Byte) : Sys :=
  let base := a / 256 * 256
  let fresh := (List.replicate 256 (0 : Byte), List.replicate 256 false)
  let y := y.onCore site fun c => onStep c i fun s =>
    if s.held.any fun h => h.addr == base && h.row == row then
      { s with held := s.held.map fun h =>
          if h.addr == base && h.row == row then
            let o := overlay h.data h.mask (a % 256) data
            { h with data := o.1, mask := o.2 }
          else h }
    else
      let o := overlay fresh.1 fresh.2 (a % 256) data
      { s with held := s.held ++ [⟨base, row, o.1, o.2⟩] }
  let n := ((y.core site).steps.map fun s => s.held.length).sum
  y.onSiteFault site fun f => { f with peak := max f.peak n }

/-- A write of a step for one of its rows or elements: its own buffer directly, host memory of an untimed move at once,
everything else at the sluice (R480, R482). -/
def stepWrite (y : Sys) (x : StepCtx) (host : Bool) (row a : Nat) (data : List Byte) : Sys :=
  if host then dwrRange y a data (.stepWrite x.col x.index)
  else y.each (byLines 256 a data.length) fun y p =>
    if !inFlight y x.site x.index then y
    else if whose y.dev.map.n x.col p.2.1 == .buf then bufWrite y x p.2.1 (slice data p.1 p.2.2)
    else holdLine y x.site x.index row p.2.1 (slice data p.1 p.2.2)

/- Mesh packets (R303, R321). -/

/-- Header bytes that HDR_CRC covers. -/
def packetHeader (p : Packet) : List Byte :=
  leBytes 1 p.kind ++ leBytes 1 (p.cls + b2n p.layer * 4) ++ leBytes 1 (p.dest + p.destEp * 32)
    ++ leBytes 1 (p.src + p.srcEp * 32) ++ leBytes 1 p.srcInc ++ leBytes 1 p.status ++ leBytes 2 p.tag ++ leBytes 8 p.addr
    ++ leBytes 4 p.len ++ leBytes 4 p.payCrc.toNat ++ leBytes 4 p.aux

/-- A packet with both its CRCs. -/
def sealPacket (p : Packet) : Packet :=
  let p := { p with payCrc := if p.len = 0 || p.payload.isEmpty then 0 else crc32c p.payload }
  { p with hdrCrc := crc32c (packetHeader p) }

/-- The router and endpoint that serve a device address. -/
def meshDest (d : Dev) (a : Nat) : Nat × Nat :=
  match place d.map.n a with
  | .dram c _ => (siteOf d c, 0)
  | .buf c _ => (siteOf d c, 1)
  | .spare k _ => ((spareSite d k).getD 0, 0)
  | _ => (0, 3)

/-- The payload that carries bytes: whole units of 64, the last filled with zeros beyond LEN (R303; DESIGN CHOICE, log 55). -/
def packetPayload (b : List Byte) : List Byte := padTo (ceilDiv b.length 64 * 64) b

/-- A request of a step's column at its router, of class STEP: kept until its response (R247, R303, R304, R492). -/
def meshRequest (y : Sys) (kind src srcInc a n : Nat) (payload : List Byte) (who : Requester) (pos : Nat) : Sys :=
  let t := meshDest y.dev a
  let tag := y.dev.noc.nextTag
  let p := sealPacket ⟨kind, 1, false, t.1, t.2, src, 2, srcInc, 0, tag, a, n, 0, packetPayload payload, 0, 0, false⟩
  y.onNoc fun x => { x with reqs := x.reqs ++ [⟨tag, p, false, who, pos⟩], out := x.out ++ [(src, p)],
                            nextTag := (tag + 1) % 65536 }

/-- Incarnation of a logical column (R321). -/
def colInc (d : Dev) (c : Nat) : Nat := (nth d.map.cols c {}).incarnation

/-- A remote read of a step (R247). -/
def meshRead1 (y : Sys) (x : StepCtx) (a n pos : Nat) : Sys :=
  meshRequest y 1 x.site (colInc y.dev x.col) a n [] x.who pos

/-- A step whose requests to another column go by routes of more than 14 hops is lengthened, once for each such column that it names
(R310; DEDUCED, log 20). -/
def detourStep (y : Sys) (x : StepCtx) (addrs : List Nat) : Sys :=
  let far := ((addrs.filter fun a => whose y.dev.map.n x.col a == .remote).map fun a => (meshDest y.dev a).1).eraseDups
  if far.isEmpty then y
  else y.onCore x.site fun k => onStep k x.index fun s => { s with lengthen := s.lengthen + (far.map (routeExcess y x.site)).sum }

/-- The step that a transfer belongs to. -/
def Transfer.step : Transfer → Option (Nat × Nat)
  | .host a => (match a.use with
    | .stepRead c i _ => some (c, i)
    | .stepWrite c i => some (c, i)
    | _ => none)
  | .mesh r => (match r.who with
    | .step c i => some (c, i)
    | _ => none)

/-- Requests of a step that have no answer yet. -/
def outstanding (y : Sys) (col i : Nat) : Nat :=
  (y.dev.noc.reqs.filter fun r => r.who == .step col i).length
    + (y.dev.host.accs.filter fun a => match a.use with
        | .stepRead c j _ => c == col && j == i
        | .stepWrite c j => c == col && j == i
        | _ => false).length
    + (y.dev.noc.pathReset.filter fun t => t.step == some (col, i)).length

/- Projection of slack (R456, R457). -/

/-- The issue cycle of a later step, from its stamp, HOLD_ACC and the holds of points closed or requested. -/
def startCycle (y : Sys) (q : Nat) (i : Image) (d : Desc) (k : Nat) : Nat :=
  let r := nth y.dev.sched.runs q {}
  let b := y.dev.beat
  let s := r.start + r.run * i.length + startOffset d
  let w0 := s + b.holdAcc
  let pts := b.points.filter fun p => decide (b.wbc < p.w)
  let w := pts.foldl (fun w p => if p.w ≤ w then w + (if p.closed then p.len else combined p.reqs) else w) w0
  w * 64 + 4 + k

/-- A hold for a shortfall of a projected release against a threatened start (R457). -/
def shortfallHold (y : Sys) (cause release threatened : Nat) : Sys :=
  if release < threatened then y
  else
    let short := release - threatened + 1
    if threatened / 64 < holdPointFor y then y
    else requestHold y cause (ceilDiv short 64 + cfg y 3 0x0D 1 2)

/- Check faults and replay (R478, R485 to R491). -/

/-- Two range lists overlap. -/
def rangesMeet (a b : List (Nat × Nat)) : Bool := a.any fun r => b.any (overlaps r)

/-- The consumers of a step: later steps issued before the fault whose inputs meet outputs of the step or of another consumer
(R486). -/
def consumers (y : Sys) (i : Image) (col : Nat) (p : StepRun) (later : List StepRun) : List StepRun :=
  (later.foldl (fun (acc : List StepRun × List (Nat × Nat)) s =>
    if rangesMeet s.ret.ranges acc.2 then (acc.1 ++ [s], acc.2 ++ outputRanges y i col s.desc) else acc)
    ([], outputRanges y i col p.desc)).1

/-- Conditions of R486 on a member of a replay set. -/
def replayable (s : StepRun) : Bool :=
  s.ret.live && !s.ret.disabled && decide (replayClass s.desc ≤ 1) && isRetained s.desc

/-- A fault record about a check fault of a step. -/
def checkRecord (y : Sys) (site : Nat) (s : StepRun) (r : Replay) (outcome replay flags attempts : Nat) : Sys :=
  faultRec y { stepFault y site s
    { cls := r.cls, replay := replay, location := r.location, detail := r.detail, count := r.count, residual := r.residual,
      outcome := outcome, flags := flags } with replays := attempts }

/-- Ends a member with OUTCOME CHECK_FAIL. -/
def failMember (site attempts : Nat) (y : Sys) (i : Nat) : Sys :=
  endStep (y.onCore site fun c => onStep c i fun s => { s with replays := attempts }) site i 2 0 0

/-- A replay that is not permitted: members fail, the partition stops, an open hold is requested (R490). -/
def replayRefused (y : Sys) (site : Nat) (p : StepRun) (members : List StepRun) (r : Replay) : Sys :=
  let y := y.onSiteFault site fun f => { f with replayFail := sat32 (f.replayFail + 1) }
  let y := checkRecord y site p r 2 4 5 0
  stopSite (y.each (p :: members) fun y s => failMember site 0 y s.index) site 4

/-- A member stops: its work and its held writes are discarded, its accumulators restored (R485, R487). -/
def stopMember (site p : Nat) (y : Sys) (i : Nat) : Sys :=
  match liveStep (y.core site) i with
  | none => y
  | some s =>
    let y := y.onSiteFault site fun f => { f with discards := sat32 (f.discards + s.held.length) }
    y.onCore site fun c =>
      let c := onStep c i fun s => { s with held := [], checksDue := 0, endAt := none, release := [], nextWork := 0,
                                            inbox := [], flags := 0, flagsDue := [], lines := [], stale := false, lengthen := 0, tail := 0, displaced := 0, droopCycles := 0, bubbleCycles := 0,
                                            ret := if s.index = p then s.ret else { s.ret with ranges := [] }, member := true }
      let c := if c.vec.step = some i then { c with vec := {} } else c
      let c := match c.attend with
        | some a => if a.step = i then { c with attend := none } else c
        | none => c
      let c := { c with tiles := c.tiles.filter (·.index != i), drained := c.drained.filter (·.index != i),
                        draining := c.draining.filter (·.tile.index != i)
                        rows := if s.op = 1 ∨ s.op = 2 then [] else c.rows }
      match s.ret.acc, s.ret.accCheck with
      | some a, some k => { c with acc := a, accK := k.1, accL := k.2.1, accG := k.2.2.1, accRange := k.2.2.2, accKept := true }
      | _, _ => c

/-- The step that would issue next on a column. -/
def nextStep (y : Sys) (col : Nat) : Option (Nat × Image × Nat × Desc) :=
  match columnRun y col with
  | none => none
  | some (q, i, _) =>
    let site := siteOf y.dev col
    let idx := (y.core site).nextIndex
    (stepDesc y site i col idx).map fun d => (q, i, idx, d)

/-- Starts a permitted replay in the cycle of the fault (R487, R488). -/
def startReplay (y : Sys) (site col : Nat) (i : Image) (p : StepRun) (members : List StepRun) (r : Replay) (now : Nat) : Sys :=
  let y := y.each ((p :: members).map (·.index)) (stopMember site p.index)
  let y := y.onSiteFault site fun f => { f with replays := sat32 (f.replays + 1) }
  let y := y.onCore site fun c => { c with replay := some { r with attempt := r.attempt + 1, reissued := [], failed := false } }
  let m := (y.core site).spareStage
  let done := (p :: members).foldl (fun t s =>
    let e := nominalEnd y i col s.desc m 0
    let e := if s.op = 9 then max e (32 + flitsOf s.desc) else e
    max t (now + 2 + (s.firstIssue - p.firstIssue) + e + 32)) 0
  match nextStep y col with
  | some (q, i, idx, d) => shortfallHold y 2 done (startCycle y q i d (placeInBeat y i col idx))
  | none => y

/-- A check fault of a step (R478, R486 to R491). -/
def checkFault (y : Sys) (site i cyc cls location detail count : Nat) (residual : F32) : Sys :=
  let c := y.core site
  match liveStep c i with
  | none => y
  | some p =>
    let now := cycNow y.dev cyc
    let col := (colAt y.dev site).getD 0
    let later := c.steps.filter fun s => decide (p.issueAt < s.issueAt) && decide (s.issueAt < now)
    let cs := match p.img with
      | some img => consumers y img col p later
      | none => []
    let bare : Replay := ⟨now, i, [], 0, [], false, cls, location, detail, count, residual⟩
    match c.replay with
    | some r =>
      if r.members.any (·.1 == i) then y.onCore site fun c => { c with replay := some { r with failed := true } }
      else
        replayRefused (abandonReplay y site 5) site p (cs.filter fun s => !s.done && !(r.members.any (·.1 == s.index))) bare
    | none =>
      match columnRun y col with
      | none => replayRefused y site p (cs.filter fun s => !s.done) bare
      | some (_, img, _) =>
        let r : Replay := { bare with members := (i, 0) :: cs.map fun s => (s.index, s.issueAt - p.issueAt) }
        let few := if replayClass p.desc = 0 then decide (cs.length ≤ 1) else cs.isEmpty
        if few && replayable p && cs.all fun s => replayable s && !s.done then startReplay y site col img p cs r now
        else replayRefused y site p (cs.filter fun s => !s.done) r

/- Ends (R152, R158). -/

/-- A step reaches its last output write or engine action (R152, R157). -/
def markEnd (y : Sys) (site i cyc : Nat) : Sys :=
  let t := cycNow y.dev cyc
  y.onCore site fun c => onStep { c with reads := if (liveStep c i).any (·.op == 4) then c.reads.filter (·.1 != .dma) else c.reads } i fun s =>
    { s with endAt := some t, late := s.late || decide (s.nominalEnd < t) }

end Sys2Proof.Machine
end

