-- ==== Sys2Proof/Machine/Advance.lean ====
section
/-! DEFINITION. What a core does by itself as its cycles pass: operand reads and their check, results formed anew after an overwrite,
the rows of the drain path, flags as they are formed; and the issue of a step, which first brings the core to its cycle (R70, R96 to
R107, R137 to R146, R151, R160, R278, R280, R488, R511). -/

namespace Sys2Proof.Machine

/-- The context of a step in flight, with the image that it was issued from (R89). -/
def liveCtx (y : Sys) (site i cyc : Nat) : Option StepCtx :=
  match liveStep (y.core site) i, colAt y.dev site with
  | some s, some col => match s.img with
    | some img => some ⟨site, col, (partOf y col).getD 0, img, i, s.desc, cyc, s.member⟩
    | none => (columnRun y col).map fun r => ⟨site, col, r.1, r.2.1, i, s.desc, cyc, s.member⟩
  | _, _ => none

/- Results (R96, R106, R160, R161). -/

/-- The accumulators of a core. -/
def coreAccs (c : Core) : Accs := ⟨c.acc, c.accK, c.accL, c.accG, c.accRange⟩

/-- Sets the accumulators of a core. -/
def setAccs (c : Core) (a : Accs) : Core := { c with acc := a.c, accK := a.k, accL := a.l, accG := a.g, accRange := a.range }

/-- The passes of a MATMUL, one after another: tile k is (k / V, k mod V); only the first may continue, from `a0`. Each with the flags it
raises, by cycle from its own cycle 0 (R160, R161). -/
def passes (y : Sys) (site : Nat) (s : StepRun) (a0 : Accs) : List (Accs × List Nat) :=
  (List.range (mmTiles s.desc)).map fun k =>
    runPass (ieeeMode s.desc) (passWidth s.desc) (if k = 0 ∧ mmContinue s.desc = true then a0 else Accs.zero)
      (warpRows y site s k) (weftCols y site s k)

/-- The tiles of a MATMUL. -/
def passTiles (s : StepRun) (ps : List (Accs × List Nat)) : List Tile :=
  (List.zip (List.range (mmTiles s.desc)) ps).map fun t =>
    ⟨s.index, t.1 / mmV s.desc, t.1 % mmV s.desc, t.1, t.2.1.c, t.2.1.k, t.2.1.l, t.2.1.g, t.2.1.range⟩

/-- The flags of a MATMUL by array cycle: those of chunk t in row i of pass k in the cycle of that accumulation (R104, R146). -/
def passFlags (m : Nat) (s : StepRun) (ps : List (Accs × List Nat)) : List (Nat × Nat) :=
  (List.zip (List.range (mmTiles s.desc)) ps).flatMap fun t =>
    ((List.zip (List.range t.2.2.length) t.2.2).filter fun f => f.2 != 0).map fun f =>
      (t.1 * mmP s.desc + 8 * mmX s.desc + f.1 + 17 + m, f.2)

/-- Accumulators with which a continuing MATMUL began, as its retention keeps them (R183). -/
def startAccs (s : StepRun) : Accs :=
  match s.ret.acc, s.ret.accCheck with
  | some a, some k => ⟨a, k.1, k.2.1, k.2.2.1, k.2.2.2⟩
  | _, _ => Accs.zero

/-- A MATMUL whose passes are in the array or behind it, or whose tiles drain. -/
def runsPasses (s : StepRun) : Bool := s.op == 1 && !s.done && !s.release.isEmpty

/-- The results of one MATMUL formed anew from what its reads saw; the tile that it keeps goes on to the next one (R96, R161). -/
def reform (site : Nat) (r : Sys × Option Accs) (s : StepRun) : Sys × Option Accs :=
  if !runsPasses s then r
  else
    let y := r.1
    let a0 := r.2.getD (startAccs s)
    let ps := passes y site s a0
    let last := ((ps.getLast?).map Prod.fst).getD Accs.zero
    let ts := passTiles s ps
    let swap := fun (t : Tile) => if t.index = s.index then nth ts t.t t else t
    let due := (passFlags (y.core site).spareStage s ps).filter fun f => decide (s.arrayCycle (y.core site).now ≤ f.1)
    let y := y.onCore site fun c =>
      { onStep (setAccs c last) s.index (fun s => { s with
          stale := false, flagsDue := due
          ret := if mmContinue s.desc then { s.ret with acc := some a0.c, accCheck := some (a0.k, a0.l, a0.g, a0.range) } else s.ret }) with
        tiles := c.tiles.map swap, draining := c.draining.map fun d => { d with tile := swap d.tile } }
    (y, if mmKeep s.desc then some last else none)

/-- After a write into operands that are being read, the results of the MATMULs in flight are formed anew (R96). -/
def reformStale (y : Sys) (site : Nat) : Sys :=
  if (y.core site).steps.any fun s => runsPasses s && s.stale then
    ((y.core site).steps.foldl (reform site) (y, none)).1
  else y

/- Lines of the feeders (R94, R97 to R100, R160, R211, R212). -/

/-- A line, or a part of one, that a feeder reads: the array cycle in which its first vector is due, its buffer offset and length. -/
structure LineRead where
  cycle : Nat
  at0 : Nat
  len : Nat

/-- The line reads of a stretch of operand elements whose chunks of `u` bytes are due from a cycle on, one a cycle. -/
def lineReads (start u at0 len : Nat) : List LineRead :=
  (byLines 256 at0 len).map fun p => ⟨start + p.1 / u, p.2.1, p.2.2⟩

/-- The line reads of queue q of one side of a MATMUL in pass k: its row's lines, or, of a transposed operand, every 64th stored row's
part of the tile (R97, R160). -/
def operandLines (d : Desc) (o : Operand) (tile k skew q : Nat) : List LineRead :=
  let w := passWidth d
  if o.transposed then
    (List.range (ceilDiv (mmK d - q) 64)).flatMap fun b =>
      lineReads (readStart d o k + (64 * b + q) / w + skew) 256 (o.addr + (64 * b + q) * o.stride + fmtBytes o.fmt (64 * tile)) (fmtBytes o.fmt 64)
  else lineReads (readStart d o k + skew) (fmtBytes o.fmt w) (o.addr + (64 * tile + q) * o.stride) (fmtBytes o.fmt (mmK d))

/-- The scale lines of queue q of one side of a MATMUL in pass k; a scale byte serves 32 elements (R100). -/
def operandScales (d : Desc) (o : Operand) (tile k skew q : Nat) : List LineRead :=
  if (fmtOf o.fmt).scaled then
    (byLines 256 (o.scaleAt + (64 * tile + q) * o.scaleStride) (ceilDiv (mmK d) 32)).map fun p =>
      ⟨readStart d o k + skew + p.1 * 32 / passWidth d, p.2.1, p.2.2⟩
  else []

/-- The staging half of descriptor k (R212). -/
def stageAt (d : Desc) (k : Nat) : Nat := fld d 0x20 4 + 67584 * (k % 2)

/-- The line reads of queue q in window k of an ATTEND: query rows in the score passes, key slots and value rows as staged, and their
scales (R211, R212, R217). -/
def windowLines (d : Desc) (skew : Nat) (side : FeederSide) (k q : Nat) : List LineRead :=
  let pass := fun p lag (at0 len : Nat) => (⟨140 + 384 * k + 64 * p + lag, at0, len⟩ : LineRead)
  let half := stageAt d k
  match side with
  | .warp => if q < atQHeads d then (List.range 4).map fun p => pass p skew (fld d 0x18 4 + 128 * q) 128 else []
  | .weft => ((List.range 4).map fun p => pass p 0 (half + 128 * (64 * p + q)) 128)
      ++ (List.range 2).map fun u => pass (4 + u) 0 (half + 0x8000 + 256 * (64 * u + q)) 256
  | .warpScale => if q < atQHeads d then (List.range 4).map fun p => pass p skew (fld d 0x18 4 + 0x2000 + 4 * q) 4 else []
  | .weftScale => ((List.range 4).map fun p => pass p 0 (half + 0x10000 + 4 * (64 * p + q)) 4)
      ++ (List.range 2).map fun u => pass (4 + u) 0 (half + 0x10400 + 8 * (64 * u + q)) 8

/-- Every line read of a queue of a step, in order; an idle slot of an ATTEND has none (R97, R217). -/
def queueLines (skews : List Nat) (s : StepRun) (side : FeederSide) (q : Nat) : List LineRead :=
  let d := s.desc
  let skew := nth skews q 0
  if s.op = 1 then
    (List.range (mmTiles d)).flatMap fun k => match side with
      | .warp => operandLines d (warpOperand d) (k / mmV d) k skew q
      | .weft => operandLines d (weftOperand d) (k % mmV d) k 0 q
      | .warpScale => operandScales d (warpOperand d) (k / mmV d) k skew q
      | .weftScale => operandScales d (weftOperand d) (k % mmV d) k 0 q
  else if s.op = 2 then
    ((List.range (atMaxPages d)).filter fun k => (s.pages[k]?.map PageDesc.kind) != some 0x22).flatMap fun k => windowLines d skew side k q
  else []

/-- Lines that a queue has asked for in commands of its own. -/
def askedLines (s : StepRun) (side : FeederSide) (q : Nat) : List FeedLine :=
  s.lines.filter fun l => l.side == side && l.queue == q

/-- The cycle in which a line is due to be read, with the stalls so far (R101, R104). -/
def lineDue (s : StepRun) (r : LineRead) : Nat := s.issueAt + r.cycle + s.lengthen

/-- A line whose read has not been granted is due: the array waits for it (R101). -/
def waitsForLine (skews : List Nat) (s : StepRun) (now : Nat) : Bool :=
  s.lines.any fun l => l.granted.isNone && (l.side == .warp || l.side == .weft) &&
    (match (queueLines skews s l.side l.queue)[l.n]? with
      | some r => decide (lineDue s r ≤ now)
      | none => false)

/-- The reads of a MATMUL that no command of a feeder names, whose data arrives in the array cycles from `lo` to before `hi`, and that
touch a word with an error: with the cycle of arrival, 6 after the read, in order (R97, R275, R511). -/
def faultyReads (y : Sys) (site : Nat) (s : StepRun) (lo hi : Nat) : List (Nat × LineRead) :=
  let skews := (y.core site).skew
  let all := [FeederSide.warp, .weft, .warpScale, .weftScale].flatMap fun side => (List.range 64).flatMap fun q =>
    (queueLines skews s side q).drop (askedLines s side q).length
  let hits := all.filter fun r => decide (lo ≤ r.cycle + 6) && decide (r.cycle + 6 < hi) &&
    !(errsIn y.dev.prot.bufErr 8 (bufKey site r.at0) r.len).isEmpty
  let byTime := fun (l : List LineRead) (r : LineRead) => l.takeWhile (fun q => decide (q.cycle ≤ r.cycle)) ++ r :: l.dropWhile fun q => decide (q.cycle ≤ r.cycle)
  (hits.foldl byTime []).map fun r => (lineDue s r + 6, r)

/- The drain path (R104, R107, R137 to R144, R160, R162). -/

/-- Values of a drained tile after strikes: (row, column, bits), rows 0 to 63. -/
def strikeTile (t : Tile) (us : List (Nat × Nat × W32)) : Tile :=
  { t with c := us.foldl (fun c u => if u.1 < 64 ∧ u.2.1 < 64 then upd c (64 * u.1 + u.2.1) (· ^^^ u.2.2) else c) t.c }

/-- Struck converted elements: strikes with rows 64 to 127 hit the converter's output of row - 64. -/
def convStrike (us : List (Nat × Nat × W32)) (i j enc : Nat) : Nat :=
  us.foldl (fun e u => if u.1 = 64 + i ∧ u.2.1 = j then Nat.xor e u.2.2.toNat else e) enc

/-- The output of a drained tile has blocks along its columns (R141). -/
def columnBlocks (d : Desc) : Bool := blockAxis d == 1 && (fmtOf (outFmt d)).scaled

/-- A block of a drained tile on its way through the converter: its scale place, its elements as (row, column). -/
abbrev TileBlock := Nat × List (Nat × Nat)

/-- The blocks of which row i of a drained tile has elements: its two, or the 64 of its group of 32 rows (R137, R141, R160). -/
def rowBlocks (d : Desc) (t : Tile) (i : Nat) : List TileBlock :=
  let so := fld d 0x2C 4
  let ss := 64 * fld d 0x3D 1
  if columnBlocks d then
    let h := i / 32
    (List.range 64).map fun j => (so + (64 * t.v + j) * ss + 2 * t.u + h, (List.range 32).map fun k => (32 * h + k, j))
  else
    (List.range 2).map fun h => (so + (64 * t.u + i) * ss + 2 * t.v + h, (List.range 32).map fun j => (i, 32 * h + j))

/-- A converted element: row, column, ordinal, encoding, whether its check fails. -/
structure ConvElem where
  row : Nat
  col : Nat
  ord : Nat
  enc : Nat
  bad : Bool

/-- A converted block: its scale place, code, elements, flags. -/
structure ConvBlock where
  scaleAt : Nat
  code : Nat
  elems : List ConvElem
  flags : Nat

/-- Converts a block of a drained tile; the drain index of R143 is the tile's own (R138, R139, R143, R479). -/
def convTileBlock (d : Desc) (t : Tile) (us : List (Nat × Nat × W32)) (b : TileBlock) : ConvBlock :=
  let vs := b.2.map fun p => (t.t * 4096 + 64 * p.1 + p.2, nth t.c (64 * p.1 + p.2) 0)
  let g := convertGroup (convOf d) vs
  let f := fmtOf (outFmt d)
  let elems := (List.zip b.2 (List.zip vs g.2.1)).map fun e =>
    let enc := convStrike us e.1.1 e.1.2 e.2.2 % 2 ^ f.width
    (⟨e.1.1, e.1.2, e.2.1.1, enc, !elementPasses e.2.1.2 g.1 f e.2.2 enc⟩ : ConvElem)
  ⟨b.1, g.1, elems, g.2.2⟩

/-- Scale bytes are written with this row: its own, or those of its group with the group's last row (R141). -/
def scalesWith (d : Desc) (i : Nat) : Bool := (fmtOf (outFmt d)).scaled && (!columnBlocks d || i % 32 == 31)

/-- Row i of a drained tile passes the converter and is written with its scale bytes; its flags are raised, and a failed element is a
check fault (R141, R145, R160, R479). -/
def writeTileRow (y : Sys) (x : StepCtx) (t : Tile) (us : List (Nat × Nat × W32)) (i : Nat) : Sys :=
  let d := x.d
  let bs := (rowBlocks d t i).map (convTileBlock d t us)
  let es := (bs.flatMap ConvBlock.elems).filter fun e => e.row == i
  let enc := fun j => ((es.find? fun e => e.col == j).map ConvElem.enc).getD 0
  let y := if columnBlocks d && i % 32 != 0 then y
    else raiseFlags y x.site x.index .cvt (bs.foldl (fun f b => Nat.lor f b.flags) 0)
  let a := fld d 0x20 4 + (64 * t.u + i) * fld d 0x34 2 * 64 + fmtBytes (outFmt d) (64 * t.v)
  let y := bufWrite y x (bufAddr x.col a) (packElems (outFmt d) ((List.range 64).map enc))
  let y := if scalesWith d i then y.each bs fun y b => bufWrite y x (bufAddr x.col b.scaleAt) (leBytes 1 b.code) else y
  match es.find? ConvElem.bad with
  | some e => checkFault y x.site x.index x.cyc 3 (e.ord % 2 ^ 32) (outFmt d) 0 0
  | none => y

/-- The cycle in which row i of a tile in the drain path is written, or reaches the vector unit: its own, or with blocks along the columns
the cycles that begin one after the last row of its group of 32 (R104, R141). -/
def rowAt (desc : Desc) (r : Drain) (i : Nat) : Nat :=
  if columnBlocks desc && !mmToVector desc then nth r.rows (32 * (i / 32) + 31) 0 + 1 + i % 32 else nth r.rows i 0

/-- A DMA move that writes its column's buffer at the crossbar's full rate in a cycle: its first line lands when its fixed latency has
passed (R157). -/
def movesInto (y : Sys) (col : Nat) (s : StepRun) (now : Nat) : Bool :=
  let d := s.desc
  let n := y.dev.map.n
  let own := fun a => whose n col a == .buf
  let src := if s.op = 4 then (moveAddr d 0x18).2 else gaBase d
  let into := (s.op == 4 && !(moveAddr d 0x20).1 && !(moveAddr d 0x18).1 && own (moveAddr d 0x20).2) || s.op == 5
  !s.done && into && decide (s.issueAt + (if own src then 12 else 104) ≤ now) &&
    decide (now ≤ s.nominalEnd + s.lengthen + ceilDiv s.displaced 8)

/-- A line write of a writer above the DMA engine takes a place of a DMA move that writes in the cycle (R95, R158, R311). -/
def displaceMoves (y : Sys) (site now : Nat) : Sys :=
  match colAt y.dev site with
  | none => y
  | some col =>
    if (y.core site).steps.any fun s => movesInto y col s now then
      y.onCore site fun c => { c with steps := c.steps.map fun s => if movesInto y col s now then { s with displaced := s.displaced + 1 } else s }
    else y

/-- The next row of the tile at the front of the drain path takes its way: to the vector unit's rows, or through the converter to the
buffer (R107, R160, R162). -/
def deliverRow (y : Sys) (x : StepCtx) (r : Drain) (now : Nat) : Sys :=
  let t := strikeTile r.tile r.strikes
  let i := r.next
  if mmToVector x.d then
    y.onCore x.site fun c =>
      if c.vec.step = some x.index ∧ c.vec.halted = false then { c with rows := c.rows ++ [(now, (t.c.drop (64 * i)).take 64)] } else c
  else writeTileRow (displaceMoves y x.site now) x t r.strikes i

/-- Rows of the drain path that are due by a cycle take their way; a tile whose last row has gone waits for its comparison (R104, R107,
R118). -/
def deliverRows (site now : Nat) : Nat → Sys → Sys
  | 0, y => y
  | fuel + 1, y =>
    match (y.core site).draining with
    | [] => y
    | r :: rest =>
      if 64 ≤ r.next then
        deliverRows site now fuel (y.onCore site fun c => { c with draining := rest, drained := c.drained ++ [strikeTile r.tile r.strikes] })
      else match liveCtx y site r.tile.index 0 with
        | none => deliverRows site now fuel (y.onCore site fun c => { c with draining := rest })
        | some x =>
          let due := rowAt x.d r r.next
          if now < due then y
          else
            let y := y.onCore site fun c => { c with draining := { r with next := r.next + 1 } :: rest }
            deliverRows site now fuel (deliverRow y { x with cyc := due - y.dev.beat.wbc * 64 } r due)

/-- Rows of the drain path up to a cycle. -/
def deliverTo (y : Sys) (site now : Nat) : Sys := deliverRows site now (66 * (y.core site).draining.length) y

/-- The reads of a MATMUL up to a cycle pass the checker; rows that are due before an error's cycle take their way first; an
uncorrectable read ends the step in the cycle in which its data would have arrived (R278, R280, R511). -/
def checkFeeds (site now : Nat) (y : Sys) (s : StepRun) : Sys :=
  let hi := s.arrayCycle now + 1
  let y := if (errsIn y.dev.prot.bufErr 8 (bufKey site 0) bufBytes).isEmpty then y
    else y.each (faultyReads y site s s.fed hi) fun y r =>
      if !inFlight y site s.index then y
      else
        let y := deliverTo y site r.1
        let k := checkBuf y (bufKey site r.2.at0) r.2.len (.step ((colAt y.dev site).getD 0) s.index)
        match k.1 with
        | some _ => busError k.2 site s.index (r.1 - y.dev.beat.wbc * 64)
        | none => k.2
  y.onCore site fun c => onStep c s.index fun s => { s with fed := hi }

/-- Flags of MATMULs formed before an array cycle are raised (R146). -/
def formFlags (y : Sys) (site now : Nat) : Sys :=
  y.each ((y.core site).steps.filter fun s => !s.done && !s.flagsDue.isEmpty) fun y s =>
    let t := s.arrayCycle now
    let y := raiseFlags y site s.index .mx ((s.flagsDue.filter fun f => decide (f.1 < t)).foldl (fun a f => Nat.lor a f.2) 0)
    y.onCore site fun c => onStep c s.index fun s => { s with flagsDue := s.flagsDue.filter fun f => decide (t ≤ f.1) }

/-- Brings the array and the drain path of a core to a cycle. -/
def settleCore (y : Sys) (site now : Nat) : Sys :=
  let y := reformStale y site
  let y := y.each ((y.core site).steps.filter runsPasses) (checkFeeds site now)
  let y := formFlags (deliverTo y site now) site now
  y.onCore site fun c => { c with now := max c.now now }

/-- Brings a core to a cycle of the present beat: held cycles are counted, then the array and the drain path go on (R101, R104). -/
def advanceCore (cyc : Nat) (y : Sys) (site : Nat) : Sys := settleCore (gateTo cyc y site) site (cycNow y.dev cyc)

/- Issue (R70, R151, R488). -/

/-- The core at its issue cycle: its descriptor is read, where it was not fetched ahead, and the core is brought to the cycle (R150,
R280). -/
def coreAtIssue (y : Sys) (x : StepCtx) : Sys :=
  advanceCore x.cyc (if (y.core x.site).fetched.isEmpty then stepDescriptorFetch x.col y else y) x.site

/-- The common issue of a step kind: the core is brought to the cycle; the step has its own OPCODE, its engines are free and no replay
runs, else it is a missed start (R70, R151, R488). -/
def issueAny (op col cyc : Nat) (go : Sys → StepCtx → Sys) (y : Sys) : Sys :=
  match issueNow y col cyc with
  | none => y
  | some x =>
    if opOf x.d ≠ op then y
    else
      let y := coreAtIssue y x
      if (issueNow y col cyc).isNone then y
      else
        let c := y.core x.site
        if c.replay.isSome || (enginesOf x.d).any (engineBusy c (cycNow y.dev cyc)) then missedStart y x
        else go y x

/-- The issue of a step kind without further conditions. -/
def issueStep (op col cyc : Nat) (run : Sys → StepCtx → Sys) : Sys → Sys :=
  issueAny op col cyc fun y x => run (beginStep y x []) x

end Sys2Proof.Machine
end

