-- ==== Sys2Proof/Machine/ArraySteps.lean ====
section
/-! DEFINITION. Commands of the matrix array and of the buffer tile: MATMUL, the feeders, line reads and writes, tile drains, the
check comparison (R94 to R101, R106, R107, R114 to R118, R159 to R162, R278). -/

namespace Sys2Proof.Machine

/- MATMUL (R159 to R162). -/

/-- The lane program of a step starts on a clear vector unit, in a cycle of its own (R162, R166, R217). -/
def startLane (y : Sys) (x : StepCtx) (startAt : Nat) : Sys :=
  y.onCore x.site fun c => { c with
    vec := { step := some x.index, startAt := startAt, prog := laneWords y x.img x.col (laneProgOf x.d), a := laneA0 x.d, toCome := streamRows x.d }
    rows := [] }

/-- MATMUL: all passes on what its reads see so far; drained tiles wait for the drain path, a kept tile stays (R96, R106, R160,
R161). -/
def runMatmul (y : Sys) (x : StepCtx) : Sys :=
  match liveStep (y.core x.site) x.index with
  | none => y
  | some s =>
    let c0 := y.core x.site
    let ps := passes y x.site s (coreAccs c0)
    let last := ((ps.getLast?).map Prod.fst).getD Accs.zero
    let y := y.onCore x.site fun c =>
      onStep { setAccs c last with accKept := mmKeep x.d, tiles := if mmKeep x.d then c.tiles else c.tiles ++ passTiles s ps } x.index fun s => { s with
        checksDue := if mmKeep x.d then 0 else mmTiles x.d
        fed := 0, overwrites := [], flagsDue := passFlags c0.spareStage s ps
        ret := if mmContinue x.d then
            { s.ret with acc := some c0.acc, accCheck := some (c0.accK, c0.accL, c0.accG, c0.accRange) }
          else s.ret }
    if mmToVector x.d then startLane y x (cycNow y.dev x.cyc) else y

def execMatmul (col : Col) (cyc : Nat) (s : State) : Host.Outcome State Fault Refusal := onSys (issueStep 1 col cyc runMatmul) s

/- Feeders and banks (R94 to R97). -/

/-- Bank of a buffer line (R94). -/
def lineBank (l : Nat) : Nat := Nat.xor (bits l 0 6) (bits l 6 6)

/-- The step whose next line a queue asks for: the first in flight on the array that has one left (R97). -/
def feedStep (c : Core) (side : FeederSide) (q : Nat) : Option (StepRun × LineRead) :=
  c.steps.findSome? fun s =>
    if s.op ≤ 2 ∧ s.done = false ∧ s.release ≠ [] then
      ((queueLines c.skew s side q)[(askedLines s side q).length]?).map fun r => (s, r)
    else none

/-- Vectors of a line in their queue at a cycle: those that have entered, 6 cycles after the grant, and have not been issued, 8 cycles
after they were due to be read (R97, R104). -/
def vectorsIn (skews : List Nat) (s : StepRun) (now : Nat) (l : FeedLine) : Nat :=
  match l.granted, (queueLines skews s l.side l.queue)[l.n]? with
  | some g, some r => if g + 6 ≤ now then 4 - min 4 (now + 1 - (lineDue s r + 8)) else 0
  | _, _ => 0

/-- Vectors of a line that its queue has made room for and that have not entered. -/
def vectorsDue (now : Nat) (l : FeedLine) : Nat :=
  match l.granted with
  | some g => if g + 6 ≤ now then 0 else 4
  | none => 4

/-- The occupancy of a feeder queue, and with the vectors on their way (R95, R97). -/
def queueFill (c : Core) (now : Nat) (side : FeederSide) (q : Nat) : Nat × Nat :=
  let each1 := fun (f : StepRun → FeedLine → Nat) => ((c.steps.filter fun s => !s.done).map fun s => ((askedLines s side q).map (f s)).sum).sum
  let occ := each1 fun s l => vectorsIn c.skew s now l
  (occ, occ + each1 fun _ l => vectorsDue now l)

/-- FEEDER_LINE_REQUEST: a queue of 16 vectors with room for four asks for the next line of its operand; a block-scale feeder asks
without a queue of vectors (R97, R100; DESIGN CHOICE, log 19). -/
def feederLineRequest (col : Nat) (side : FeederSide) (q cyc : Nat) (y : Sys) : Sys :=
  let site := siteOf y.dev col
  let y := advanceCore cyc y site
  let c := y.core site
  let room := side == .warpScale || side == .weftScale || decide ((queueFill c (cycNow y.dev cyc) side q).2 ≤ 12)
  match feedStep c side q with
  | none => y
  | some p =>
    if 64 ≤ q || !room then y
    else y.onCore site fun c =>
      { onStep c p.1.index (fun s => { s with lines := s.lines ++ [⟨side, q, (askedLines s side q).length, none⟩] }) with
        reads := c.reads ++ [(.feeder side q, p.2.at0 / 256)] }

def execFeederLineRequest (col : Col) (side : FeederSide) (queue : Timed Nat) (s : State) : Host.Outcome State Fault Refusal :=
  onSys (feederLineRequest col side queue.val queue.cyc) s

/-- Priority of a waiting read; the lowest is served (R95). -/
def readRank (c : Core) (now : Nat) : LineReader → Nat
  | .feeder .warpScale _ => 0
  | .feeder .weftScale _ => 0
  | .feeder .weft q => 1 + (queueFill c now .weft q).1 * 256 + q
  | .feeder .warp q => 1 + (queueFill c now .warp q).1 * 256 + 128 + q
  | .channel => 10000
  | .dma => 10001
  | .scrubber => 10002

/-- The read that a bank serves in a cycle (R95). -/
def grantedRead (c : Core) (now bank : Nat) : Option (LineReader × Nat) :=
  (c.reads.filter fun r => lineBank r.2 == bank).foldl (fun m r => match m with
    | none => some r
    | some b => if readRank c now r.1 < readRank c now b.1 then some r else some b) none

/-- The step whose line of a queue waits for its grant, with that line. -/
def waitingLine (c : Core) (side : FeederSide) (q : Nat) : Option (StepRun × FeedLine) :=
  c.steps.findSome? fun s => if s.done then none else ((askedLines s side q).find? fun l => l.granted.isNone).map fun l => (s, l)

/-- A line that is granted late holds the array from the cycle in which it was due; the stall is counted (R101). -/
def grantLineTo (now : Nat) (p : StepRun × FeedLine) (c : Core) : Core :=
  let late := match (queueLines c.skew p.1 p.2.side p.2.queue)[p.2.n]? with
    | some r => now - lineDue p.1 r
    | none => 0
  let c := onStep c p.1.index fun s => { s with lines := s.lines.map fun l => if l == p.2 then { l with granted := some now } else l }
  if p.2.side == .warp || p.2.side == .weft then
    { stallArray (now - late) late c with feedStall := sat32 (c.feedStall + late) }
  else c

/-- Bits struck in a line: position p is bit p mod 72 of word p / 72, and positions from 2,304 on lie in no line (R275). -/
def strikeLine (y : Sys) (site line : Nat) (ps : List Nat) : Sys :=
  y.onProt fun p => { p with bufErr := (ps.filter fun i => decide (i < 2304)).foldl (fun e i => strike e (bufKey site (line * 256 + 8 * (i / 72 % 32))) [i % 72]) p.bufErr }

/-- The reads that a bank has served in a cycle of its own. -/
def bankServed (c : Core) (now bank : Nat) : Bool := c.bankReads.1 == now && c.bankReads.2.contains bank

/-- Notes that a bank has served a read in a cycle (R95). -/
def serveBank (now bank : Nat) (c : Core) : Core :=
  { c with bankReads := (now, if c.bankReads.1 = now then bank :: c.bankReads.2 else [bank]) }

/-- BUFFER_BANK_READ_GRANT: a bank that has served no read in the cycle serves the first of its waiting reads; a feeder's line passes the
checker, and its error reaches the step 6 cycles later; a position from 2,304 on strikes the queue entry that the line enters, whose
parity fails (R95, R97, R101, R275, R278, R280, R283, R478, R511). -/
def bufferBankReadGrant (col bank : Nat) (upset : List Nat) (cyc : Nat) (y : Sys) : Sys :=
  let site := siteOf y.dev col
  let y := advanceCore cyc y site
  let c := y.core site
  let now := cycNow y.dev cyc
  match grantedRead c now bank with
  | none => y
  | some r =>
    if bankServed c now bank then y
    else
      let y := y.onCore site fun c => serveBank now bank { c with reads := c.reads.erase r }
      let y := strikeLine y site r.2 upset
      match r.1 with
      | .feeder side q => (match waitingLine c side q with
        | none => y
        | some p =>
          let k := checkBuf y (bufKey site (r.2 * 256)) 256 (.step col p.1.index)
          match k.1 with
          | some _ => busError k.2 site p.1.index (cyc + 6)
          | none =>
            let y := k.2.onCore site (grantLineTo now p)
            match upset.find? fun i => decide (2304 ≤ i) with
            | some i => checkFault y site p.1.index (cyc + 6) 0x0B (i - 2304) 2 0 0
            | none => y)
      | _ => y

def execBufferBankReadGrant (col : Col) (bank : Timed Nat) (upset : List Nat) (s : State) : Host.Outcome State Fault Refusal :=
  onSys (bufferBankReadGrant col bank.val upset bank.cyc) s

/-- The engine whose step a line writer serves. -/
def writerEngine : LineWriter → Nat
  | .drain => engA | .vector => engV | .channel => engD | .dma => engD | .writeBack => engA

/-- Priority of a line writer; the lowest goes first (R95, R278). -/
def writerRank : LineWriter → Nat
  | .drain => 0 | .vector => 1 | .channel => 2 | .dma => 3 | .writeBack => 4

/-- The write that gives way when a line write reaches the crossbar in a cycle: of 8 writes, or of two in one bank, the one of the lowest
priority, the later of equals; and the writes accepted then (R95). -/
def crossbar (taken : List (LineWriter × Nat)) (w : LineWriter) (bank : Nat) : Option LineWriter × List (LineWriter × Nat) :=
  let rivals := if taken.any fun t => t.2 == bank then taken.filter fun t => t.2 == bank else if taken.length < 8 then [] else taken
  match rivals.foldl (fun (m : Option (LineWriter × Nat)) t => match m with
      | none => some t
      | some b => if writerRank b.1 ≤ writerRank t.1 then some t else some b) none with
  | none => (none, taken ++ [(w, bank)])
  | some l => if writerRank w < writerRank l.1 then (some l.1, taken.erase l ++ [(w, bank)]) else (some w, taken)

/-- A line write that gives way is made in a later cycle; of a DMA move it is a displaced write (R95, R158). -/
def displaced (y : Sys) (site : Nat) (w : Option LineWriter) : Sys :=
  if w = some .dma then
    y.onCore site fun c => { c with steps := c.steps.map fun s =>
      if s.done = false ∧ 4 ≤ s.op ∧ s.op ≤ 6 then { s with displaced := s.displaced + 1 } else s }
  else y

/-- BUFFER_LINE_WRITE: the crossbar writes the masked bytes of a line; reads from the next cycle on see it (R95, R96, R158, R184,
R279). -/
def bufferLineWrite (col : Nat) (w : LineWriter) (a : Nat) (data : List Byte) (mask : List Bool) (cyc : Nat) (y : Sys) : Sys :=
  let site := siteOf y.dev col
  let room := 256 - a % 256
  if bufBytes ≤ a then y
  else
    let y := advanceCore cyc y site
    let now := cycNow y.dev cyc
    let c := y.core site
    let x := crossbar (if c.lineWrites.1 = now then c.lineWrites.2 else []) w (lineBank (a / 256))
    let y := displaced (y.onCore site fun c => { c with lineWrites := (now, x.2) }) site x.1
    let who := match (c.steps.filter fun s => !s.done && (enginesOf s.desc).contains (writerEngine w)).getLast? with
      | some s => Requester.step col s.index
      | none => .control
    let r := writeDev y (bufAddr col a) (data.take room) (mask.take room) who none
    if r.1 then (match who with
      | .step _ i => busError r.2 site i cyc
      | _ => r.2) else r.2

def execBufferLineWrite (col : Col) (writer : LineWriter) (addr : Timed Nat) (data : List Byte) (mask : List Bool) (s : State) :
    Host.Outcome State Fault Refusal := onSys (bufferLineWrite col writer addr.val data mask addr.cyc) s

/-- BUFFER_WRITE_BACK: the first queued corrected line of a column is written back (R278). -/
def bufferWriteBack (col : Nat) (y : Sys) : Sys :=
  let site := siteOf y.dev col
  match y.dev.prot.writeBacks.find? fun w => w.site == site with
  | none => y
  | some w =>
    let lo := bufKey site (w.line * 256)
    y.onProt fun p => { p with
      writeBacks := p.writeBacks.erase w
      bufErr := p.bufErr.filter fun e => !(decide (lo ≤ e.1) && decide (e.1 < lo + 256) && decide (e.2.length ≤ 1)) }

def execBufferWriteBack (col : Col) (s : State) : Host.Outcome State Fault Refusal := onSys (bufferWriteBack col) s

/- Drains (R107, R137 to R144, R160). -/

/-- A tile begins to drain: its row 0 is delivered when it is due and 64 cycles after the tile before it began; the array waits for that
gap, and the stall is counted (R104, R107). -/
def beginDrain (due : Nat) (t : Tile) (us : List (Nat × Nat × W32)) (c : Core) : Core :=
  let start := match c.lastDrain with
    | some l => max due (l + 64)
    | none => due
  let wait := start - due
  { stallPasses (due - 1 - c.spareStage) wait c with
    tiles := c.tiles.drop 1
    draining := c.draining ++ [⟨t, us, (List.range 64).map (start + ·), 0⟩]
    lastDrain := some start
    drainStall := sat32 (c.drainStall + wait) }

/-- TILE_DRAIN: the next completed tile drains when its row 0 is due and the drain path has its gap of 64 cycles; before that, or while the
array waits for a line, the command does nothing. The rows that are due take their way (R101, R104, R106, R107). -/
def tileDrain (col : Nat) (us : List (Nat × Nat × W32)) (cyc : Nat) (y : Sys) : Sys :=
  let site := siteOf y.dev col
  let y := advanceCore cyc y site
  let c := y.core site
  let now := cycNow y.dev cyc
  match c.tiles with
  | [] => y
  | t :: rest =>
    match liveStep c t.index with
    | none => y.onCore site fun c => { c with tiles := rest }
    | some s =>
      let due := tileDue s c.spareStage t.t
      let open1 := match c.lastDrain with
        | some l => decide (l + 64 ≤ now)
        | none => true
      if now < due || !open1 || waitsForLine c.skew s now then y
      else deliverTo (y.onCore site (beginDrain due t us)) site now

def execTileDrain (col : Col) (upset : List (Nat × Nat × W32)) (cyc : Nat) (s : State) : Host.Outcome State Fault Refusal :=
  onSys (tileDrain col upset cyc) s

/-- The drained row that stood before a full input stream has waited up to a cycle: the rows behind it have waited with it, the array has
been held, and the stall is counted (R101, R107, R162). -/
def chargeWait (c : Core) (now : Nat) : Core :=
  match c.rows with
  | [] => c
  | r :: _ =>
    let wait := now - r.1
    { stallPasses r.1 wait c with
      rows := c.rows.map fun r => (r.1 + wait, r.2)
      draining := c.draining.map fun d => { d with rows := d.rows.map (· + wait) }
      drainStall := sat32 (c.drainStall + wait) }

/-- DRAIN_ROW_ENTER_STREAM: the next drained row that has reached the vector unit enters the input stream when it has room; its wait
stalls the array; rows after HALT are dropped (R107, R162). -/
def drainRowEnterStream (col cyc : Nat) (y : Sys) : Sys :=
  let site := siteOf y.dev col
  let now := cycNow y.dev cyc
  (advanceCore cyc y site).onCore site fun c =>
    match c.rows with
    | [] => c
    | r :: rest =>
      if c.vec.halted || c.vec.step.isNone then { c with rows := rest }
      else if now < r.1 || decide (16 ≤ c.vec.stream.length) then c
      else
        let c := chargeWait c now
        { c with rows := c.rows.drop 1, vec := { c.vec with stream := c.vec.stream ++ [r.2], toCome := c.vec.toCome - 1 } }

def execDrainRowEnterStream (col : Col) (cyc : Nat) (s : State) : Host.Outcome State Fault Refusal :=
  onSys (drainRowEnterStream col cyc) s

/-- ARRAY_CHECK_COMPARE: the oldest drained tile is compared, or skipped for range; a failure raises a check fault (R115,
R116, R118). -/
def arrayCheckCompare (col cyc : Nat) (y : Sys) : Sys :=
  let site := siteOf y.dev col
  let y := advanceCore cyc y site
  let c := y.core site
  match c.drained with
  | [] => y
  | t :: rest =>
    let y := y.onCore site fun c => { onStep c t.index (fun s => { s with checksDue := s.checksDue - 1 }) with drained := rest }
    match liveStep (y.core site) t.index with
    | none => y
    | some s =>
      if t.range then
        y.onCore site fun c => { onStep c t.index (fun s => { s with checkSkipped := true }) with checkSkipped := sat32 (c.checkSkipped + 1) }
      else
        let r := compareTile (checkTol s.desc) t
        let y := y.onCore site fun c => { c with checkCount := sat32 (c.checkCount + 1),
                                                 checkFail := if r.fails = 0 then c.checkFail else sat32 (c.checkFail + 1) }
        if r.fails = 0 then y else checkFault y site t.index cyc 1 r.location 0 r.fails r.residual

def execArrayCheckCompare (col : Col) (cyc : Nat) (s : State) : Host.Outcome State Fault Refusal :=
  onSys (arrayCheckCompare col cyc) s

end Sys2Proof.Machine
end

