-- ==== Sys2Proof/Machine/Beat.lean ====
section
/-! DEFINITION. Beat time: boundaries, markers, alignment, holds, ledger, standby (R43 to R75, R92). -/

namespace Sys2Proof.Machine

/- Boundaries. -/

/-- Tokens that a layer's throttle adds at a beat boundary: budget B, and whether it is halved or stopped (R271, R465). -/
def tokenStep (b : Nat) (l : LayerState) : LayerState :=
  let rate := b * 65536 / 31250
  let rate := if l.halved then rate / 2 else rate
  if l.noTokens then l else { l with tokens := min (l.tokens + rate) (b / 8 * 65536) }

/-- ROW_BUDGET of a layer, 0 to 11 (R475). -/
def rowBudget (y : Sys) (l : Nat) : Nat := cfg y 4 (0x10 + 4 * l) 4 (2 ^ 20)

/-- WBC and HOLD_ACC at a beat boundary (R44, R45). -/
def beatAdvance (b : Beat) : Beat :=
  let w := b.wbc + 1
  let h := isHoldBeat b w
  { b with wbc := w, holdAcc := if h then b.holdAcc + 1 else b.holdAcc, holdActive := h }

/-- A point that can no longer act: it is over and its confirmation time is long past (R62, R66). -/
def HoldPoint.over (p : HoldPoint) (w : Nat) : Bool := p.closed && !p.covers w && decide (p.w + 1024 < w)

/-- Partitions that an open hold held run again once none is in force, and the power state follows (R67, R396, R397). -/
def releaseHeld (y : Sys) : Sys :=
  if openHold y.dev.beat then y
  else settlePower (y.each (List.range 4) fun y q => if partState y.dev q = .held then setPart y q .running else y)

/-- What a port does at a beat boundary: a pause begins, and partitions stop for a loss (R346, R348). -/
def portBoundary (y : Sys) (p : Nat) : Sys :=
  let x := y.port p
  let y := if x.holdIdle && portCarries x then
      setPort (y.onPort p fun x => { x with wasDegraded := x.state == .degraded, pauseSince := y.dev.beat.wbc, holdIdle := false }) p .paused
    else y
  if x.lossStop then
    (y.each (allParts y) fun y q =>
      match runImage y.dev q with
      | some i => if i.ports.contains p && partLive y.dev q then faultStop y q else y
      | none => y).onPort p fun x => { x with lossStop := false }
  else y

/-- The mirror that the master sends (R71). -/
def mirrorNow (y : Sys) : MirrorData :=
  let b := y.dev.beat
  { wbc := b.wbc, holdAcc := b.holdAcc, term := b.term, masterId := b.masterId, ledger := b.ledger
    routes := if y.dev.sched.haveActive then y.getN (setKey y.dev.sched.bank (secOff y y.dev.sched.bank 7)) 1168 else []
    fwSession := y.dev.fw.sendSession, fwRound := y.dev.fw.sendRound, fwProgress := y.dev.fw.progress }

/-- The bytes of a mirror, in an order of the model's own: R71 says what they hold and no rule how (DESIGN CHOICE, log 47). -/
def mirrorBytes (m : MirrorData) : List Byte :=
  leBytes 8 m.wbc ++ leBytes 8 m.holdAcc ++ leBytes 1 m.term ++ leBytes 1 0 ++ leBytes 2 m.masterId ++ leBytes 4 m.ledger.length
    ++ (m.ledger.flatMap fun e => leBytes 4 e.index ++ leBytes 8 e.holdWbc ++ leBytes 2 e.holdLen ++ leBytes 8 e.sbcAtHold
      ++ leBytes 2 e.leadId ++ leBytes 1 e.leadInc ++ leBytes 1 e.leadCause ++ leBytes 4 e.reqCount ++ leBytes 8 e.releaseWbc
      ++ leBytes 1 e.term)
    ++ leBytes 4 m.routes.length ++ m.routes ++ leBytes 4 m.fwSession ++ leBytes 4 m.fwRound
    ++ (m.fwProgress.flatMap fun f => leBytes 2 f.id ++ leBytes 1 f.fwState ++ leBytes 4 f.round ++ leBytes 4 f.detail
      ++ leBytes 4 f.missing.length ++ f.missing.flatMap fun k => leBytes 4 k)

/-- The MIRROR flits of a mirror for the partner of the standby port (R71, R327; DESIGN CHOICE, log 47). -/
def mirrorFlits (y : Sys) (p : Nat) (m : MirrorData) : List Flit :=
  let b := mirrorBytes m
  (List.range (ceilDiv b.length 256)).map fun k =>
    mkFlit y.dev 3 (y.port p).pId false 0xFF k (padTo 256 ((b.drop (256 * k)).take 256))

/-- EPOCH_BOUNDARY: in a beat whose WBC has bits [19:0] zero, a holdover counts one more boundary, and the master's mirror waits for the
data slots of the standby port (R44, R55, R71, R326). -/
def epochBoundary (y : Sys) : Sys :=
  if y.dev.beat.wbc % 2 ^ 20 ≠ 0 then y
  else
    let y := y.onBeat fun b => { b with holdEpochs := if b.holdover then b.holdEpochs + 1 else b.holdEpochs }
    let p := beatPort y 3
    if y.dev.beat.role = .master ∧ p < 12 then
      let m := mirrorNow y
      (y.onBeat fun b => { b with mirrorOut := some m }).onPort p fun x =>
        { x with mgmt := x.mgmt ++ (mirrorFlits y p m).map fun f => (y.dev.beat.wbc, f) }
    else y

def execEpochBoundary (s : State) : Host.Outcome State Fault Refusal := onSys epochBoundary s

/- Markers. -/

/-- Term a is ahead of term b by 1 to 127, modulo 256 (R74). -/
def termAhead (a b : Nat) : Bool :=
  let x := (a + 256 - b % 256) % 256
  decide (1 ≤ x) && decide (x ≤ 127)

/-- The incarnation table's entry of a device (R343). -/
def incOf (d : Dev) (id : Nat) : Nat := (assoc d.span.incs id).getD 0

/-- A record or flit with a stale incarnation (R343). -/
def isStale (d : Dev) (id inc : Nat) : Bool := incOf d id == 0 || incOf d id != inc

/-- Counts a stale discard at a port (R343). -/
def countStale (y : Sys) (p : Nat) : Sys := y.onPort p fun x => { x with stale := sat32 (x.stale + 1) }

/-- The generation that was active at a beat (R91). -/
def genAt (y : Sys) (w : Nat) : Nat :=
  match y.dev.beat.genHistory.find? fun g => decide (g.1 ≤ w) with
  | some g => g.2
  | none => 0

/-- A device that follows markers (R48). -/
def follows (b : Beat) : Bool := b.role == .member || b.role == .standby

/-- WBC takes another value: the beats at which the generations became active are counted anew with it (R51, R56, R91). -/
def setWbc (w : Nat) (b : Beat) : Beat :=
  { b with wbc := w, genHistory := b.genHistory.map fun g => (g.1 + w - b.wbc, g.2) }

/-- A member takes a marker on its active upstream port: it holds WBC at MARK_WBC + D, counts matches and takes the phase
error; a beat without a marker leaves the count of matches as it is (R51, R53, R55; DEDUCED, log 15). -/
def takeMarker (y : Sys) (p : Nat) (m : Marker) : Sys :=
  let dly := (y.port p).delay
  y.onBeat fun b =>
    let expect := m.wbc + dly
    let total : Int := ((expect : Int) - b.wbc) * 1024 + m.phase
    let b := { b with
      term := m.term, masterId := m.masterId, hop := m.hop + 1
      lastMarker := some b.wbc, lastAcc := m.holdAcc, lastMarkWbc := m.wbc, lastD := dly
      phaseErr := max (-128) (min 127 total)
      phaseBad := if 64 < total ∨ total < -64 then b.phaseBad + 1 else 0
      matched := if b.wbc = expect ∧ m.holdActive = false then b.matched + 1 else 0 }
    setWbc expect b

/-- SET_MISMATCH: an open hold is requested, once while the flag is set, whether or not the member is aligned (R91; DEDUCED, log 15). -/
def setMismatch (y : Sys) (m : Marker) : Sys :=
  let own := genAt y m.wbc
  if m.setGen != own % 65536 && !y.dev.beat.setMismatch then
    let y := y.onBeat fun b => { b with setMismatch := true }
    requestHold (event y 0x0107 (leBytes 2 m.setGen ++ leBytes 4 own)) 9 0
  else y

/-- The ports on which a member may follow markers (R54, R74, R84). -/
def upstreamPorts (y : Sys) : List Nat := [beatPort y 0, beatPort y 1, beatPort y 2].filter fun p => decide (p < 12)

/-- The member moves to another upstream port (R54). -/
def switchUpstream (y : Sys) (p : Nat) : Sys :=
  event (y.onBeat fun b => { b with upstream := p }) 0x0108 (leBytes 1 p)

/-- Holdover ends at a marker that agrees with the member's count (R54). -/
def leaveHoldover (y : Sys) (p : Nat) : Sys :=
  let y := y.onBeat fun b => { b with holdover := false, holdEpochs := 0 }
  let y := event y 0x0101 (leBytes 1 0)
  if y.dev.beat.upstream = p then y else switchUpstream y p

/-- A marker shows a newer term of another master than the one followed so far: its standby, which a device with a secondary
upstream port follows there (R73, R74; DEDUCED, log 15). -/
def standbyRules (y : Sys) (m : Marker) : Bool :=
  termAhead m.term y.dev.beat.term && y.dev.beat.term != 0 && m.masterId != y.dev.beat.masterId && decide (beatPort y 2 < 12)

/-- BEAT_MARKER on a port that carries traffic (R49, R51, R54, R74, R75, R91, R343). -/
def beatMarker (p : Nat) (m : Marker) (y : Sys) : Sys :=
  let y := wakePort y p
  let b := y.dev.beat
  if !portCarries (y.port p) then y
  else if isStale y.dev m.srcId m.srcInc then countStale y p
  else if b.role = .lone then y
  else if b.role = .master then
    if termAhead m.term b.term then
      let y := y.onBeat fun b => { b with role := .member, term := m.term, masterId := m.masterId, upstream := p, hop := m.hop + 1
                                          lastMarker := some b.wbc, aligned := b.aligned }
      event y 0x0106 (leBytes 1 m.term ++ leBytes 2 m.masterId)
    else y
  else
    let y := y.onPort p fun x => { x with markAt := if termAhead b.term m.term then x.markAt else some b.wbc }
    let y := if beatPort y 3 = p then y.onBeat fun b => { b with lastStandbyMarker := some b.wbc } else y
    if termAhead b.term m.term then y
    else if !(upstreamPorts y).contains p && b.upstream != p then y
    else
      let y := if b.upstream != beatPort y 2 && standbyRules y m then
          switchUpstream (y.onBeat fun b => { b with term := m.term, masterId := m.masterId }) (beatPort y 2)
        else y
      let own := p == b.upstream || p == beatPort y 0 || p == beatPort y 1
      let y := if b.holdover && own && m.wbc + (y.port p).delay == b.wbc then leaveHoldover y p else y
      if y.dev.beat.upstream = p then setMismatch (takeMarker y p m) m else y

def execBeatMarker (port : Port) (m : Marker) (s : State) : Host.Outcome State Fault Refusal := onSys (beatMarker port m) s

/-- MEMBER_ALIGNED: after 64 consecutive matches the member takes HOLD_ACC from the last marker (R53). -/
def memberAligned (y : Sys) : Sys :=
  let b := y.dev.beat
  if follows b && !b.aligned && !b.lossNow && decide (64 ≤ b.matched) then
    y.onBeat fun b => { b with aligned := true, holdAcc := b.lastAcc + (b.wbc - b.lastMarkWbc - b.lastD) }
  else y

def execMemberAligned (s : State) : Host.Outcome State Fault Refusal := onSys memberAligned s

/-- MARKERS_MISSING: the member moves to its other upstream port if that carries valid markers, or enters holdover (R54; the first
4 beats count from the beat in which it took its role, DEDUCED, log 15). -/
def markersMissing (y : Sys) : Sys :=
  let b := y.dev.beat
  if follows b && b.upstream != 15 && !b.holdover && decide ((b.lastMarker.getD 0) + 4 ≤ b.wbc) then
    let ok := fun p => p != b.upstream && decide (p < 12) && portCarries (y.port p)
      && decide (b.wbc ≤ ((y.port p).markAt.getD 0) + 1) && (y.port p).markAt.isSome
    match [beatPort y 1, beatPort y 0].find? ok with
    | some p => switchUpstream y p
    | none => event (y.onBeat fun b => { b with holdover := true, holdEpochs := 0 }) 0x0101 (leBytes 1 1)
  else y

def execMarkersMissing (s : State) : Host.Outcome State Fault Refusal := onSys markersMissing s

/-- HOLDOVER_EXPIRY (R55). -/
def holdoverExpiry (y : Sys) : Sys :=
  if y.dev.beat.holdover && decide (2 ≤ y.dev.beat.holdEpochs) then lossOfAlignment y 1 else y

def execHoldoverExpiry (s : State) : Host.Outcome State Fault Refusal := onSys holdoverExpiry s

/-- PHASE_ERROR_EXCESS: more than 4 core cycles on 4 consecutive markers (R55). -/
def phaseErrorExcess (y : Sys) : Sys :=
  if follows y.dev.beat && decide (4 ≤ y.dev.beat.phaseBad) then lossOfAlignment y 3 else y

def execPhaseErrorExcess (s : State) : Host.Outcome State Fault Refusal := onSys phaseErrorExcess s

/- Beat load (R56, R92). -/

/-- A lone device or master outside of RUNNING and HELD takes a beat load (R56; DEDUCED, log 16). -/
def loadAllowed (d : Dev) : Bool := (d.beat.role == .lone || d.beat.role == .master) && !anyLive d

/-- A write of BEAT_LOAD_CTRL (R6, R56, R92). -/
def beatLoadCtrl (v : W32) (y : Sys) : Sys :=
  let y := y.onBeat fun b => { b with loadRefused := b.loadRefused && !v.getLsbD 1 }
  if v.getLsbD 0 then
    if loadAllowed y.dev then y.onBeat fun b => { b with loadPending := some (b.loadLo + b.loadHi * 2 ^ 32), loadAt := b.wbc }
    else y.onBeat fun b => { b with loadRefused := true }
  else y

def execBeatLoadCtrlWrite (value : W32) (s : State) : Host.Outcome State Fault Refusal := onSys (beatLoadCtrl value) s

/-- BEAT_LOAD_EFFECT, at a boundary after the order: the value becomes WBC, HOLD_ACC becomes zero, and SBC is valid unless the device
has lost alignment; a load that R56 no longer allows is refused (R55, R56, R92). -/
def beatLoadEffect (d : Dev) (b : Beat) : Beat :=
  match b.loadPending with
  | some v =>
    if b.wbc ≤ b.loadAt then b
    else if loadAllowed d then { setWbc v b with holdAcc := 0, aligned := !b.lossNow, loadPending := none }
    else { b with loadPending := none, loadRefused := true }
  | none => b

def execBeatLoadEffect (s : State) : Host.Outcome State Fault Refusal :=
  onSys (fun y => y.onBeat (beatLoadEffect y.dev)) s

/-- A read of a _LO register latches the matching _HI register (R92). -/
def beatLatch (which : BeatCount) (b : Beat) : Beat :=
  match which with
  | .wbc => { b with latchWbc := bits b.wbc 32 24 }
  | .sbc => { b with latchSbc := bits (b.wbc - b.holdAcc) 32 24 }
  | .holdAcc => { b with latchAcc := bits b.holdAcc 32 24 }

def execBeatCountLoRead (which : BeatCount) (s : State) : Host.Outcome State Fault Refusal :=
  onSys (fun y => y.onBeat (beatLatch which)) s

/- Hold records (R58 to R67). -/

/-- A record received within the previous 1,024 beats with the same kind, identifier, incarnation and sequence (R61). -/
def isDuplicate (b : Beat) (kind id inc seq : Nat) : Bool :=
  b.recent.any fun r => r.1 == kind && r.2.1 == id && r.2.2.1 == inc && r.2.2.2.1 == seq && decide (b.wbc ≤ r.2.2.2.2 + 1024)

/-- Remembers a record for the test of duplicates. -/
def remember (y : Sys) (kind id inc seq : Nat) : Sys :=
  y.onBeat fun b => { b with recent := (kind, id, inc, seq, b.wbc) :: b.recent }

/-- A record that names a hold point less than 64 beats ahead (R63). -/
def holdLate (y : Sys) : Sys := lossOfAlignment (y.onBeat fun b => { b with holdLate := true }) 4

/-- HOLD_REQUEST: dropped as stale or duplicate, late, or combined and forwarded (R61 to R63). -/
def holdRequest (p : Nat) (r : HoldRec) (y : Sys) : Sys :=
  let y := wakePort y p
  if isStale y.dev r.reqId r.reqInc then countStale y p
  else if isDuplicate y.dev.beat 2 r.reqId r.reqInc r.reqSeq then y
  else if r.holdWbc < y.dev.beat.wbc + 64 then holdLate y
  else
    let y := remember y 2 r.reqId r.reqInc r.reqSeq
    let y := y.onBeat fun b => reclose (addRequest b r.holdWbc ⟨r.reqId, r.reqInc, r.reqSeq, r.holdLen, r.cause⟩) r.holdWbc
    floodRec y (some p) ⟨1, holdBytes 2 r⟩

def execHoldRequest (port : Port) (r : HoldRec) (s : State) : Host.Outcome State Fault Refusal := onSys (holdRequest port r) s

/-- HOLD_POINT_CLOSE at WBC W - 64: the combined length is fixed; the master writes its ledger entry and sends the
confirmation, and a standby writes its own copy of the entry (R62, R63, R65, R66, R72). -/
def holdPointClose (w : Nat) (y : Sys) : Sys :=
  let b := y.dev.beat
  match b.points.find? fun p => p.w == w && !p.closed with
  | none => y
  | some p =>
    if b.wbc + 64 < w || p.reqs.isEmpty then y
    else
      let master := b.role == .master
      let e := ledgerEntry b p b.ledgerNext
      let y := y.onBeat fun b => { b with points := b.points.map fun x =>
        if x.w == w then { x with closed := true, len := combined x.reqs, confirmed := master || x.confirmed,
                                  index := if master then some e.index else x.index } else x }
      let y := if master || b.role == .standby then y.onBeat fun b => ledgerPut b e else y
      if master then
        let r : HoldRec := ⟨e.leadCause, e.index % 65536, y.dev.span.deviceId, y.dev.span.selfInc, b.term, w, e.holdLen, e.index, b.wbc⟩
        sendRecNow (remember y 3 r.reqId r.reqInc r.reqSeq) ⟨1, holdBytes 3 r⟩
      else y

def execHoldPointClose (w : Nat) (s : State) : Host.Outcome State Fault Refusal := onSys (holdPointClose w) s

/-- HOLD_POINT_START at WBC W: a closed point begins; an open hold puts running partitions in HELD (R62, R67, R396). -/
def holdPointStart (w : Nat) (y : Sys) : Sys :=
  if y.dev.beat.wbc < w || !(y.dev.beat.points.any fun p => p.w == w && p.closed && !p.started) then y
  else
    let y := y.onBeat fun b => { b with points := b.points.map fun p => if p.w == w && p.closed then { p with started := true } else p }
    if openHold y.dev.beat then
      settlePower (y.each (List.range 4) fun y q => if partState y.dev q = .running then setPart y q .held else y)
    else y

def execHoldPointStart (w : Nat) (s : State) : Host.Outcome State Fault Refusal := onSys (holdPointStart w) s

/-- LEDGER_MISMATCH at a hold point (R66, R72). -/
def ledgerMismatch (y : Sys) (w : Nat) : Sys :=
  event (y.onBeat fun b => { b with ledgerMismatch := true }) 0x0103 (leBytes 8 w)

/-- The device's own combined value for a hold point. -/
def ownLen (b : Beat) (w : Nat) : Option Nat := (b.points.find? fun x => x.w == w).map fun x => combined x.reqs

/-- A point takes its confirmation. -/
def confirmPoint (r : HoldRec) (b : Beat) : Beat :=
  { b with points := b.points.map fun x => if x.w == r.holdWbc then { x with confirmed := true, index := some r.ledgerIndex } else x }

/-- A standby's own entry of a point takes the index of the confirmation (R72). -/
def standbyLedger (r : HoldRec) (b : Beat) : Beat :=
  match b.points.find? fun x => x.w == r.holdWbc with
  | some x => if b.role = .standby then ledgerPut b (ledgerEntry b x r.ledgerIndex) else b
  | none => b

/-- What a confirmation does on a device that takes it. -/
def takeConfirmation (r : HoldRec) (y : Sys) : Sys :=
  let own := ownLen y.dev.beat r.holdWbc
  let z := y.onBeat fun b => standbyLedger r (confirmPoint r b)
  if own = some r.holdLen then z else requestHold (ledgerMismatch z r.holdWbc) 7 0

/-- HOLD_CONFIRMATION: compared with the device's own combined value and forwarded; a standby keeps its own ledger (R61,
R66, R72; exempt from R63's test, DEDUCED, log 15). -/
def holdConfirmation (p : Nat) (r : HoldRec) (y : Sys) : Sys :=
  let y := wakePort y p
  if isStale y.dev r.reqId r.reqInc then countStale y p
  else if isDuplicate y.dev.beat 3 r.reqId r.reqInc r.reqSeq then y
  else takeConfirmation r (floodRec (remember y 3 r.reqId r.reqInc r.reqSeq) (some p) ⟨1, holdBytes 3 r⟩)

def execHoldConfirmation (port : Port) (r : HoldRec) (s : State) : Host.Outcome State Fault Refusal :=
  onSys (holdConfirmation port r) s

/-- The open point that a release names: by its ledger index, else the earliest unreleased one (R67; DEDUCED, log 15). -/
def releasedPoint (b : Beat) (index : Nat) : Option HoldPoint :=
  let opens := b.points.filter fun p => p.closed && p.len == 0 && p.release.isNone
  match opens.find? fun p => p.index == some index with
  | some p => some p
  | none => opens[0]?

/-- An open hold ends at a beat (R67); the ledger takes RELEASE_WBC (R65). -/
def applyRelease (y : Sys) (index w : Nat) : Sys :=
  match releasedPoint y.dev.beat index with
  | none => y
  | some p => y.onBeat fun b => { b with
      points := b.points.map fun x => if x.w == p.w then { x with release := some w } else x
      ledger := b.ledger.map fun e => if e.holdWbc == p.w then { e with releaseWbc := w } else e }

/-- HOLD_RELEASE: late, or applied and forwarded (R61, R63, R67). -/
def holdRelease (p : Nat) (r : HoldRec) (y : Sys) : Sys :=
  let y := wakePort y p
  if isStale y.dev r.reqId r.reqInc then countStale y p
  else if isDuplicate y.dev.beat 4 r.reqId r.reqInc r.reqSeq then y
  else if r.holdWbc < y.dev.beat.wbc + 64 then holdLate y
  else
    let y := floodRec (remember y 4 r.reqId r.reqInc r.reqSeq) (some p) ⟨1, holdBytes 4 r⟩
    applyRelease y r.ledgerIndex r.holdWbc

def execHoldRelease (port : Port) (r : HoldRec) (s : State) : Host.Outcome State Fault Refusal := onSys (holdRelease port r) s

/-- CONFIRM_MISSING: no confirmation by W + P (R66). -/
def confirmMissing (w : Nat) (y : Sys) : Sys :=
  let late := fun (p : HoldPoint) => p.w == w && p.closed && !p.confirmed && !p.missing && decide (w + propBeats y ≤ y.dev.beat.wbc)
  if y.dev.beat.points.any late then
    let y := y.onBeat fun b => { b with confirmMissing := true, points := b.points.map fun p => if p.w == w then { p with missing := true } else p }
    event y 0x0104 (leBytes 8 w)
  else y

def execConfirmMissing (w : Nat) (s : State) : Host.Outcome State Fault Refusal := onSys (confirmMissing w) s

/- Standby (R71 to R73). -/

/-- The first hold point on which a standby's own ledger and the mirror's differ: an entry that both should hold, from the standby's
first index on and up to the mirror's last, is missing in one of them or has another field (R72; DEDUCED, log 15). -/
def ledgerDiff (a b : List LedgerEntry) : Option Nat :=
  match a.map LedgerEntry.index, b.map LedgerEntry.index with
  | i :: is, k :: ks =>
    let lo := is.foldl min i
    let hi := ks.foldl max k
    let inBoth := fun (l : List LedgerEntry) => l.filter fun e => decide (lo ≤ e.index) && decide (e.index ≤ hi)
    ((inBoth b).find? fun e => !a.contains e).map LedgerEntry.holdWbc
      <|> ((inBoth a).find? fun e => !b.contains e).map LedgerEntry.holdWbc
  | _, _ => none

/-- MIRROR arrives at a standby: a difference sets LEDGER_MISMATCH, and the standby's copy prevails (R71, R72). -/
def mirrorArrive (m : MirrorData) (y : Sys) : Sys :=
  if y.dev.beat.role ≠ .standby then y
  else
    let y := y.onBeat fun b => { b with mirror := some m }
    let y := y.onFw fun f => { f with sendSession := m.fwSession, sendRound := m.fwRound, progress := m.fwProgress }
    match ledgerDiff y.dev.beat.ledger m.ledger with
    | some w => ledgerMismatch y w
    | none => y

def execMirror (m : MirrorData) (s : State) : Host.Outcome State Fault Refusal := onSys (mirrorArrive m) s

/-- STANDBY_MARKERS_MISSING: 4 beats without the master's markers on the standby port (R73). -/
def standbyMarkersMissing (b : Beat) : Beat :=
  if b.role = .standby ∧ (b.lastStandbyMarker.getD 0) + 4 ≤ b.wbc then { b with takeover := true } else b

def execStandbyMarkersMissing (s : State) : Host.Outcome State Fault Refusal := onSys (fun y => y.onBeat standbyMarkersMissing) s

/-- The term after a term; 0 means none (R73). -/
def nextTerm (t : Nat) : Nat := if 255 ≤ t then 1 else t + 1

/-- STANDBY_TAKEOVER at the next epoch boundary; a standby in holdover stays in it (R73; DEDUCED, log 15). -/
def standbyTakeover (y : Sys) : Sys :=
  let b := y.dev.beat
  if b.role = .standby ∧ b.takeover = true ∧ b.wbc % 2 ^ 20 = 0 then
    let t := nextTerm b.term
    let id := y.dev.span.deviceId
    event (y.onBeat fun b => { b with role := .master, term := t, masterId := id, hop := 0, takeover := false, upstream := 15 })
      0x0105 (leBytes 1 t)
  else y

def execStandbyTakeover (s : State) : Host.Outcome State Fault Refusal := onSys standbyTakeover s

end Sys2Proof.Machine
end

