-- ==== Sys2Proof/Machine/SelfTest.lean ====
section
/-! DEFINITION. The checker self-test: the 147 vectors of an RS codec, the 111 of a SEC-DED checker, what each must answer, and the
comparison with what the checkers answered (R287 to R289). -/

namespace Sys2Proof.Machine

/-- A self-test vector: data bytes, and the errors injected as position and XOR; a position counts bytes of a DRAM codeword or bits of a
buffer word (R288). -/
structure TestVector where
  data : List Byte
  errors : List (Nat × Nat)

/-- Data bytes 0 to 63 that count up (sets C to G of the RS codec). -/
def countingBytes : List Byte := (List.range 64).map (BitVec.ofNat 8 ·)

/-- Vectors of one set: the errors for each k below a number. -/
def vectorSet (data : List Byte) (n : Nat) (errors : Nat → List (Nat × Nat)) : List TestVector :=
  (List.range n).map fun k => ⟨data, errors k⟩

/-- The vectors of the RS codec of a DRAM tile, sets A to G in order (R288). -/
def rsVectors : List TestVector :=
  vectorSet (List.replicate 64 0) 1 (fun _ => []) ++ vectorSet (List.replicate 64 0xFF) 1 (fun _ => [])
    ++ vectorSet countingBytes 1 (fun _ => []) ++ vectorSet countingBytes 72 (fun k => [(k, 0x5A)])
    ++ vectorSet countingBytes 36 (fun k => [(k, 0xA5), (k + 36, 0x3C)])
    ++ vectorSet countingBytes 24 (fun k => [(k, 0xFF), (k + 24, 0xFF), (k + 48, 0xFF)])
    ++ vectorSet countingBytes 12 (fun k => (List.range 6).map fun j => (k + 12 * j, 0x81))

/-- Data word of sets C to E of a SEC-DED checker. -/
def testWord : List Byte := [0xEF, 0xCD, 0xAB, 0x89, 0x67, 0x45, 0x23, 0x01]

/-- The vectors of the SEC-DED logic of a buffer tile, sets A to E in order (R288). -/
def secVectors : List TestVector :=
  vectorSet (List.replicate 8 0) 1 (fun _ => []) ++ vectorSet (List.replicate 8 0xFF) 1 (fun _ => [])
    ++ vectorSet testWord 1 (fun _ => []) ++ vectorSet testWord 72 (fun k => [(k, 1)])
    ++ vectorSet testWord 36 (fun k => [(k, 1), (k + 36, 1)])

/-- The outcome that a vector must give by its number of errors: 0 clean, 1 correctable, 2 uncorrectable (R274, R275, R288). -/
def expectedOutcome (dram : Bool) (v : TestVector) : Nat :=
  let n := v.errors.length
  if n = 0 then 0 else if n ≤ (if dram then 2 else 1) then 1 else 2

/-- The vectors of a checker. -/
def vectorsOf (dram : Bool) : List TestVector := if dram then rsVectors else secVectors

/-- An answer is the one expected: the outcome; the reported positions of a correctable vector; the corrected data, unless it is
uncorrectable; the all-zero check bytes of the RS codec's set A (R288). -/
def answerRight (a : CheckerAnswer) : Bool :=
  match (vectorsOf a.dram)[a.vector]? with
  | none => true
  | some v =>
    let e := expectedOutcome a.dram v
    a.outcome == e && (e != 1 || a.positions == v.errors.map Prod.fst) && (e == 2 || a.data == v.data)
      && (!a.dram || a.vector != 0 || a.check == List.replicate 8 0)

/-- The sites with a checker that failed a vector (R289). -/
def failedSites (answers : List CheckerAnswer) : List Nat :=
  (List.range 18).filter fun s => answers.any fun a => a.site.val == s && !answerRight a

end Sys2Proof.Machine
end

