-- ==== Sys2Proof/Machine/LineCode.lean ====
section
/-! DEFINITION. The line output of a span port in a beat: scrambled blocks, RS(544,514) codewords, symbols over the active lanes and Gray-coded
PAM4 levels (R324 to R326). What R324 takes from IEEE Std 802.3 is PRESUMED (PRESUMED, log 96). -/

namespace Sys2Proof.Machine

/- The field GF(2^10) of x^10 + x^3 + 1 and its code (R324; PRESUMED, log 96). -/

/-- Times x. -/
def gfDouble (a : Nat) : Nat := if 512 ≤ a then (2 * a) ^^^ 0x409 else 2 * a

/-- The product of two elements. -/
def gfMul (a b : Nat) : Nat :=
  ((List.range 10).foldl (fun (r : Nat × Nat) i => (if b.testBit i then r.1 ^^^ r.2 else r.1, gfDouble r.2)) (0, a)).1

/-- The generator polynomial with roots x^0 to x^29, highest coefficient first and without its leading 1. -/
def rsGenerator : List Nat :=
  (((List.range 30).foldl (fun (r : List Nat × Nat) _ =>
    (List.zipWith (· ^^^ ·) (r.1 ++ [0]) (0 :: r.1.map (gfMul r.2)), gfDouble r.2)) ([1], 1)).1).drop 1

/-- One symbol enters the division by the generator; the remainder stands highest coefficient first. -/
def rsStep (rem : List Nat) (m : Nat) : List Nat :=
  List.zipWith (fun a g => a ^^^ gfMul (m ^^^ rem.headD 0) g) (rem.drop 1 ++ [0]) rsGenerator

/-- A codeword: its message symbols and 30 parity symbols. -/
def rsEncode (msg : List Nat) : List Nat := msg ++ msg.foldl rsStep (List.replicate 30 0)

/- Scrambling and blocks (R324, R325). -/

/-- The bits of bytes, the least significant bit of each first. -/
def lineBits (b : List Byte) : List Bool := b.flatMap fun x => (List.range 8).map x.getLsbD

/-- One bit of the self-synchronous scrambler x^58 + x^39 + 1; the state holds the last 58 bits sent, the newest in bit 0. -/
def scrambleBit (state : Nat) (d : Bool) : Bool × Nat :=
  let b := (d ^^ state.testBit 38) ^^ state.testBit 57
  (b, (2 * state + b2n b) % 2 ^ 58)

/-- Bits through the scrambler from a state. -/
def scramble (state : Nat) : List Bool → List Bool
  | [] => []
  | d :: ds => let r := scrambleBit state d; r.1 :: scramble r.2 ds

/-- The blocks of 257 bits of a beat: a flag bit, 1 in the first only, and 32 scrambled bytes (R325). -/
def lineBlocks (state : Nat) (bytes : List Byte) : List Bool :=
  let bs := chunks 256 (scramble state (lineBits bytes))
  (List.zip bs (List.range bs.length)).flatMap fun b => (b.2 == 0) :: b.1

/-- A number from its bits, the first the least significant. -/
def bitsNat (l : List Bool) : Nat := l.foldr (fun b n => b2n b + 2 * n) 0

/-- The symbols of a beat's codewords: 20 blocks are the 514 message symbols of one (R325). -/
def lineSymbols (state : Nat) (bytes : List Byte) : List Nat :=
  (chunks 514 ((chunks 10 (lineBlocks state bytes)).map bitsNat)).flatMap rsEncode

/- A port's beat (R325, R326). -/

/-- Bytes of a beat's codewords on 4 and on 3 lanes. -/
def lineBytes (lanes : Nat) : Nat := if lanes = 4 then 6400 else 4480

/-- Bits of PRBS-31, x^31 + x^28 + 1, from the last 31 bits, the newest in bit 0 (R337; PRESUMED, log 96). -/
def prbsBits : Nat → Nat → List Bool
  | 0, _ => []
  | n + 1, state =>
    let b := state.testBit 30 ^^ state.testBit 27
    b :: prbsBits n ((2 * state + b2n b) % 2 ^ 31)

/-- The flits of a port's data slots: while it qualifies they carry a PRBS-31 payload (R337; PRESUMED, log 96). -/
def slotFlits (d : Dev) (p : Nat) (x : PortS) : List Flit :=
  if x.state = .qualifying then
    (List.range (if x.lanes = 15 then 22 else 15)).map fun s =>
      mkFlit d 0 0x7FF false 0xFF 0
        ((chunks 8 (prbsBits 2048 (Config.prbsState p d.beat.wbc s % 2 ^ 31))).map fun b => BitVec.ofNat 8 (bitsNat b))
  else x.txData

/-- The bytes that a port sends in the beat: its flits at consecutive offsets of 272 bytes, then filler (R326). -/
def beatBytes (d : Dev) (p : Nat) (x : PortS) (lanes : Nat) : List Byte :=
  let flits := padTo 272 x.txCtrl ++ (slotFlits d p x).flatMap flitBytes
  flits ++ (List.range (lineBytes lanes - flits.length)).map fun i => Config.lineFiller p d.beat.wbc (flits.length + i)

/-- The symbols of a port's codeword stream in the beat, with the 272 filler symbols of a port on 3 lanes (R325). -/
def portSymbols (d : Dev) (p : Nat) (x : PortS) (lanes : Nat) : List Nat :=
  lineSymbols (Config.scramblerState p d.beat.wbc % 2 ^ 58) (beatBytes d p x lanes)
    ++ if lanes = 4 then [] else (List.range 272).map fun i => Config.fillerSymbol p d.beat.wbc i % 1024

/-- Symbols over the active lanes: symbol k goes to the (k mod L)-th of them, and an inactive lane carries none (R325). -/
def stripe (active : List Nat) (sym : List Nat) : List (List Nat) :=
  (List.range 4).map fun l =>
    match active.idxOf? l with
    | none => []
    | some j => ((List.zip sym (List.range sym.length)).filter fun s => s.2 % active.length == j).map Prod.fst

/-- The symbols that each lane of a port carries in the beat; none on a port in electrical idle or without a control flit (R325, R334, R338). -/
def portLanes (d : Dev) (p : Nat) : List (List Nat) :=
  let x := nth d.span.ports p {}
  let active := (List.range 4).filter fun l => bitAt x.lanes l
  if x.idleElectric || x.txCtrl.isEmpty then List.replicate 4 [] else stripe active (portSymbols d p x active.length)

/-- The symbols that each lane of a half of the host link carries in the beat: its 25 flits in the framing of a port on 4 lanes (R350,
R353). -/
def halfLanes (d : Dev) (h : Nat) : List (List Nat) :=
  let x := nth d.host.halves h {}
  if x.state ≠ 2 then List.replicate 4 []
  else stripe [0, 1, 2, 3] (lineSymbols (Config.scramblerState (12 + h) d.beat.wbc % 2 ^ 58) (halfFlits x).flatten)

/-- The PAM4 level of two bits, Gray-coded: 00, 01, 11 and 10 are the levels 0 to 3 (R324; PRESUMED, log 96). -/
def pam4Level (b : Nat) : Nat := b ^^^ (b / 2)

/-- The five levels of a symbol, its low bits first (R324). -/
def symbolLevels (s : Nat) : List Nat := (List.range 5).map fun k => pam4Level (bits s (2 * k) 2)

end Sys2Proof.Machine
end

