-- ==== Sys2Proof/Machine/Lane.lean ====
section
/-! DEFINITION. The vector unit: the 25 lane instructions on the step's lane program, their arithmetic and their checks (R162,
R166 to R171, R478, R479). -/

namespace Sys2Proof.Machine

/- Arithmetic of one lane. A result comes with its flags (R145). -/

/-- SAT_MODE of a step and two values. -/
abbrev LaneFn2 := Bool → F32 → F32 → F32 × Nat

/-- Rounds an exact real given as sign, significand and exponent; a zero significand gives +0. -/
def roundPos (neg : Bool) (m : Nat) (e : Int) (ieee : Bool) : F32 × Nat :=
  if m = 0 then (0, 0) else round32 neg m e ieee

/-- A zero with a sign. -/
def zero32 (neg : Bool) : F32 := if neg then 0x80000000 else 0

/-- An infinity with a sign. -/
def inf32 (neg : Bool) : F32 := toF32 (.inf neg)

/-- The value 1.0. -/
def one32 : F32 := 0x3F800000

/-- Changes the sign of a value. -/
def negNum : Num → Num
  | .nan => .nan
  | .inf s => .inf !s
  | .fin s m e => .fin (!s) m e

/-- a + b of R168. -/
def addNum (ieee : Bool) (a b : Num) : F32 × Nat :=
  match a, b with
  | .nan, _ => (nan32, 0)
  | _, .nan => (nan32, 0)
  | .inf s, .inf t => if s = t then (inf32 s, 0) else (nan32, 8)
  | .inf s, _ => (inf32 s, 0)
  | _, .inf t => (inf32 t, 0)
  | .fin s m e, .fin t n g => match exactSum (.fin s m e) (.fin t n g) with
    | some r => round32 r.1 r.2.1 r.2.2 ieee
    | none => (zero32 (m == 0 && n == 0 && s && t), 0)

def laneAddFn : LaneFn2 := fun ieee a b => addNum ieee (f32 a) (f32 b)

def laneSubFn : LaneFn2 := fun ieee a b => addNum ieee (f32 a) (negNum (f32 b))

/-- The exact product of two values, or its special outcome (R168). -/
def mulNum (a b : Num) : Num × Nat :=
  match a, b with
  | .nan, _ => (.nan, 0)
  | _, .nan => (.nan, 0)
  | .inf s, .inf t => (.inf (s != t), 0)
  | .inf s, .fin t n _ => if n = 0 then (.nan, 8) else (.inf (s != t), 0)
  | .fin s m _, .inf t => if m = 0 then (.nan, 8) else (.inf (s != t), 0)
  | .fin s m e, .fin t n g => (.fin (s != t) (m * n) (e + g), 0)

/-- Rounds an exact value; a zero keeps its sign. -/
def roundNum (ieee : Bool) : Num → F32 × Nat
  | .nan => (nan32, 0)
  | .inf s => (inf32 s, 0)
  | .fin s m e => if m = 0 then (zero32 s, 0) else round32 s m e ieee

def laneMulFn : LaneFn2 := fun ieee a b =>
  let p := mulNum (f32 a) (f32 b)
  let r := roundNum ieee p.1
  (r.1, Nat.lor p.2 r.2)

/-- FMA: a NaN operand gives NaN; otherwise the exact product and the addend are rounded once (R168). -/
def laneFmaFn (ieee : Bool) (a b c : F32) : F32 × Nat :=
  if isNan (f32 a) || isNan (f32 b) || isNan (f32 c) then (nan32, 0)
  else
    let p := mulNum (f32 a) (f32 b)
    let r := addNum ieee p.1 (f32 c)
    (r.1, Nat.lor p.2 r.2)

/-- a > b for values that are not NaN; zeros are equal. -/
def numGt (a b : Num) : Bool :=
  match a, b with
  | .nan, _ => false
  | _, .nan => false
  | .inf s, .inf t => !s && t
  | .inf s, .fin _ _ _ => !s
  | .fin _ _ _, .inf t => t
  | .fin s m e, .fin t n g =>
    let l := min e g
    decide (termInt l (.fin t n g) < termInt l (.fin s m e))

/-- MAX and MIN: NaN when either operand is NaN; max(+0, -0) is +0 and min(+0, -0) is -0 (R168). -/
def laneMaxFn : LaneFn2 := fun _ a b =>
  let x := f32 a
  let y := f32 b
  if isNan x || isNan y then (nan32, 0)
  else if numGt x y then (a, 0)
  else if numGt y x then (b, 0)
  else (if isNeg x then b else a, 0)

def laneMinFn : LaneFn2 := fun _ a b =>
  let x := f32 a
  let y := f32 b
  if isNan x || isNan y then (nan32, 0)
  else if numGt x y then (b, 0)
  else if numGt y x then (a, 0)
  else (if isNeg x then a else b, 0)

/-- CMPGT: 1.0 where a > b, else +0, also for NaN (R168). -/
def laneCmpgtFn : LaneFn2 := fun _ a b => (if numGt (f32 a) (f32 b) then one32 else 0, 0)

/-- A value with every NaN made canonical (R129). -/
def canon (v : F32) : F32 := if isNan (f32 v) then nan32 else v

def laneAbsFn (v : F32) : F32 := canon (v &&& 0x7FFFFFFF)

def laneNegFn (v : F32) : F32 := canon (v ^^^ 0x80000000)

/-- SEL: a where c is neither zero nor NaN, else b (R167). -/
def laneSelFn (a b c : F32) : F32 := canon (if isZero (f32 c) || isNan (f32 c) then b else a)

/-- SCALE: a × 2^imm; beyond 2^±1000 the rounded result no longer depends on imm (R168). -/
def laneScaleFn (ieee : Bool) (imm : Int) (a : F32) : F32 × Nat :=
  match f32 a with
  | .fin s m e => roundNum ieee (.fin s m (e + max (-1000) (min 1000 imm)))
  | x => roundNum ieee x

/- Correctly rounded functions (R169). An irrational result is a fraction with 192 bits cut off below and a last bit set,
which rounds as the exact result does: no binary32 operand has a result nearer to a rounding boundary. -/

/-- ln 2 as a multiple of 2^-192. -/
def ln2x : Nat := 4350955369971217654477563090224794165364344896676135745069

/-- Sum of y^k / k! from a term on, in units of 2^-192. -/
def expSeries (y : Nat) : Nat → Nat → Nat → Nat
  | 0, _, _ => 0
  | fuel + 1, k, t => t + expSeries y fuel (k + 1) (t * y / 2 ^ 192 / k)

/-- 2^f for a fraction f in units of 2^-192. -/
def exp2Frac (f : Nat) : Nat := expSeries (f * ln2x / 2 ^ 192) 60 1 (2 ^ 192)

/-- EXP2 (R169). -/
def laneExp2Fn (ieee : Bool) (v : F32) : F32 × Nat :=
  match f32 v with
  | .nan => (nan32, 0)
  | .inf s => (if s then 0 else inf32 false, 0)
  | .fin s m e =>
    if m = 0 then (one32, 0)
    else if lg m e < -60 then round32 false (if s then 2 ^ 80 - 1 else 2 ^ 80 + 1) (-80) ieee
    else
      let x : Int := (if s then -1 else 1) * (shiftInt m (min e 200 + 192) : Nat)
      let n := max (-400) (min 300 (x / (2 ^ 192 : Nat)))
      let f := (x % (2 ^ 192 : Nat)).toNat
      if f = 0 then round32 false 1 n ieee
      else round32 false (2 * exp2Frac f + 1) (n - 193) ieee

/-- Sum of z^(2k+1) / (2k+1) from a power on, in units of 2^-192. -/
def atanhSeries (z2 : Nat) : Nat → Nat → Nat → Nat
  | 0, _, _ => 0
  | fuel + 1, k, p => p / k + atanhSeries z2 fuel (k + 2) (p * z2 / 2 ^ 192)

/-- log2 of t, 1 ≤ t < 2, both in units of 2^-192. -/
def log2Frac (t : Nat) : Nat :=
  let z := (t - 2 ^ 192) * 2 ^ 192 / (t + 2 ^ 192)
  2 * atanhSeries (z * z / 2 ^ 192) 62 1 z * 2 ^ 192 / ln2x

/-- LOG2 (R169). -/
def laneLog2Fn (ieee : Bool) (v : F32) : F32 × Nat :=
  match f32 v with
  | .nan => (nan32, 0)
  | .inf s => if s then (nan32, 8) else (inf32 false, 0)
  | .fin s m e =>
    if m = 0 then (inf32 true, 8)
    else if s then (nan32, 8)
    else
      let k := lg m e
      let t := shiftInt m (e - k + 192)
      if t = 2 ^ 192 then roundPos (decide (k < 0)) k.natAbs 0 ieee
      else
        let r := k * (2 ^ 192 : Nat) + log2Frac t
        round32 (decide (r < 0)) (if r < 0 then 2 * r.natAbs - 1 else 2 * r.natAbs + 1) (-193) ieee

/-- RCP (R169): the quotient with a last bit for its remainder. -/
def laneRcpFn (ieee : Bool) (v : F32) : F32 × Nat :=
  match f32 v with
  | .nan => (nan32, 0)
  | .inf s => (zero32 s, 0)
  | .fin s m e =>
    if m = 0 then (inf32 s, 8)
    else
      let q := 2 ^ 80 / m
      round32 s (2 * q + (if 2 ^ 80 % m = 0 then 0 else 1)) (-81 - e) ieee

/-- Integer square root by bits, from a bit downwards. -/
def isqrtAux (n : Nat) : Nat → Nat → Nat
  | 0, r => r
  | b + 1, r => isqrtAux n b (if (r + 2 ^ b) * (r + 2 ^ b) ≤ n then r + 2 ^ b else r)

/-- Integer square root of a number below 2^(2b). -/
def isqrt (b n : Nat) : Nat := isqrtAux n b 0

/-- RSQ (R169): the root of the quotient with a last bit for what is cut off. -/
def laneRsqFn (ieee : Bool) (v : F32) : F32 × Nat :=
  match f32 v with
  | .nan => (nan32, 0)
  | .inf s => if s then (nan32, 8) else (0, 0)
  | .fin s m e =>
    if m = 0 then (inf32 s, 8)
    else if s then (nan32, 8)
    else
      let odd := e % 2 = 1
      let n := if odd then 2 * m else m
      let h := (if odd then e - 1 else e) / 2
      let r := isqrt 81 (2 ^ 160 / n)
      round32 false (2 * r + (if r * r * n = 2 ^ 160 then 0 else 1)) (-81 - h) ieee

/-- RMAX: NaN when any lane is NaN, otherwise the largest, +0 preferred (R170). -/
def laneRmaxFn : List F32 → F32
  | [] => 0
  | v :: vs => vs.foldl (fun a b => (laneMaxFn false a b).1) (canon v)

/- Running the program. -/

/-- What a lane instruction runs with: the step, its program position and its fields. -/
structure LaneCtx where
  x : StepCtx
  pc : Nat
  ins : LaneIns

/-- Lanes of a vector register (R166). -/
def vreg (u : VecUnit) (r : Nat) : List F32 := (assoc u.v r).getD (List.replicate 256 0)

/-- Writes a vector register. -/
def setV (u : VecUnit) (r : Nat) (l : List F32) : VecUnit := { u with v := assocSet u.v r l }

/-- The position after an instruction: a loop body that ends runs again or is left (R167). -/
def laneNext (pc : Nat) : List (Nat × Nat × Nat) → Nat × List (Nat × Nat × Nat)
  | [] => (pc, [])
  | (s, e, n) :: r => if pc = e then (if 1 < n then (s, (s, e, n - 1) :: r) else laneNext pc r) else (pc, (s, e, n) :: r)

/-- The unit goes on to the next instruction. -/
def advance (u : VecUnit) : VecUnit :=
  let n := laneNext (u.pc + 1) u.loops
  { u with pc := n.1, loops := n.2 }

/-- The instruction that the vector unit of a column would issue, when it has the given OP. -/
def laneCtx (y : Sys) (col cyc op : Nat) : Option LaneCtx :=
  let site := siteOf y.dev col
  let u := (y.core site).vec
  match u.step with
  | none => none
  | some i =>
    if u.halted || decide (cycNow y.dev cyc < u.startAt) then none
    else match u.prog[u.pc]?, liveCtx y site i cyc with
      | some w, some x => if (laneIns w).op = op then some ⟨x, u.pc, laneIns w⟩ else none
      | _, _ => none

/-- The vector unit of a core changed. -/
def onVec (y : Sys) (site : Nat) (f : VecUnit → VecUnit) : Sys := y.onCore site fun c => { c with vec := f c.vec }

/-- A fault of the unit's own check: LOCATION holds the instruction index and the lane, CLASS_DETAIL the OP (R478, R495). -/
def vectorFault (y : Sys) (k : LaneCtx) (lane : Nat) : Sys :=
  checkFault y k.x.site k.x.index k.x.cyc 2 (bits k.pc 0 12 + bits lane 0 8 * 4096) k.ins.op 0 0

/-- A parity fault of a register entry or of the input stream (R283, R478, R495). -/
def registerFault (y : Sys) (k : LaneCtx) (entry : Nat) : Sys := checkFault y k.x.site k.x.index k.x.cyc 0x0B (entry % 2 ^ 32) 1 0 0

/-- The fault of an instruction that physics struck. -/
def upsetFault (y : Sys) (k : LaneCtx) : Option Upset → Sys
  | none => y
  | some (.lane l) => vectorFault y k l
  | some (.entry e) => registerFault y k e

/-- Runs the current instruction of a column when it has the given OP: its cost, its effect, the next position, then the
fault of its check when physics struck it in a lane (R167, R478). -/
def laneRun (op : Nat) (col cyc : Nat) (upset : Option Upset) (f : Sys → LaneCtx → Sys) (y : Sys) : Sys :=
  match laneCtx y col cyc op with
  | none => y
  | some k =>
    let y := onVec y k.x.site fun u => advance { u with cycles := u.cycles + laneCost op }
    upsetFault (f y k) k upset

/-- The fault of an instruction that has no lanes. -/
def anyLane (b : Bool) : Option Upset := if b then some (.lane 0) else none

/-- An arithmetic instruction: new lanes and flags from the registers (R168 to R170). -/
def laneArith (f : LaneCtx → VecUnit → List (F32 × Nat)) (y : Sys) (k : LaneCtx) : Sys :=
  let rs := f k (y.core k.x.site).vec
  let y := onVec y k.x.site fun u => setV u k.ins.vd (rs.map Prod.fst)
  raiseFlags y k.x.site k.x.index .vec (rs.foldl (fun a r => Nat.lor a r.2) 0)

/-- SAT_MODE of the step. -/
def LaneCtx.ieee (k : LaneCtx) : Bool := ieeeMode k.x.d

/-- Lane-wise function of VA. -/
def lane1 (f : LaneCtx → F32 → F32 × Nat) : Sys → LaneCtx → Sys :=
  laneArith fun k u => (vreg u k.ins.va).map (f k)

/-- Lane-wise function of VA and VB. -/
def lane2 (f : LaneFn2) : Sys → LaneCtx → Sys :=
  laneArith fun k u => List.zipWith (f k.ieee) (vreg u k.ins.va) (vreg u k.ins.vb)

/-- Lane-wise function of VA, VB and VC. -/
def lane3 (f : LaneCtx → F32 → F32 → F32 → F32 × Nat) : Sys → LaneCtx → Sys :=
  laneArith fun k u => List.zipWith (fun (a : F32 × F32) c => f k a.1 a.2 c) (List.zip (vreg u k.ins.va) (vreg u k.ins.vb)) (vreg u k.ins.vc)

/-- HALT ends the program; rows left in the stream or still to reach it are dropped, and a row that waited has stalled the
array up to here (R162, R167). -/
def runHalt (y : Sys) (k : LaneCtx) : Sys :=
  let now := cycNow y.dev k.x.cyc
  y.onCore k.x.site fun c =>
    let c := if 16 ≤ c.vec.stream.length then chargeWait c now else c
    { c with rows := [], vec := { c.vec with halted := true, stream := [] } }

def execLaneHalt (col : Col) (upset : Bool) (cyc : Nat) (s : State) : Host.Outcome State Fault Refusal :=
  onSys (laneRun 0x00 col cyc (anyLane upset) runHalt) s

/-- LOOP opens a loop over the next IMM[31:16] instructions, IMM[15:0] times (R167). -/
def runLoop (y : Sys) (k : LaneCtx) : Sys :=
  onVec y k.x.site fun u =>
    { u with loops := (k.pc + 1, k.pc + 1 + bits k.ins.imm 16 16, bits k.ins.imm 0 16) :: u.loops }

def execLaneLoop (col : Col) (upset : Bool) (cyc : Nat) (s : State) : Host.Outcome State Fault Refusal :=
  onSys (laneRun 0x01 col cyc (anyLane upset) runLoop) s

/-- Sets an address register, 32 bits (R166). -/
def setA (u : VecUnit) (r : Nat) (v : Nat) : VecUnit := { u with a := u.a.set r (v % 2 ^ 32) }

def execLaneSeta (col : Col) (upset : Bool) (cyc : Nat) (s : State) : Host.Outcome State Fault Refusal :=
  onSys (laneRun 0x02 col cyc (anyLane upset) fun y k => onVec y k.x.site fun u => setA u k.ins.areg k.ins.imm) s

def execLaneAdda (col : Col) (upset : Bool) (cyc : Nat) (s : State) : Host.Outcome State Fault Refusal :=
  onSys (laneRun 0x03 col cyc (anyLane upset) fun y k =>
    onVec y k.x.site fun u => setA u k.ins.areg (nth u.a k.ins.areg 0 + k.ins.imm)) s

/-- LD: 256 values in the format MOD through the tile's checker, widened exactly (R167, R280). -/
def runLd (y : Sys) (k : LaneCtx) : Sys :=
  let a := nth (y.core k.x.site).vec.a k.ins.areg 0
  let n := fmtBytes k.ins.fmt 256
  stepReads y k.x (bufAddr k.x.col a) n fun y bs =>
    onVec y k.x.site fun u => setA (setV u k.ins.vd ((decodeElems k.ins.fmt bs).map widenExact)) k.ins.areg (a + n)

def execLaneLd (col : Col) (upset : Option Upset) (cyc : Nat) (s : State) : Host.Outcome State Fault Refusal :=
  onSys (fun y => laneRun 0x08 col cyc upset runLd (advanceCore cyc y (siteOf y.dev col))) s

/-- Converts element values in element order, in blocks of 32: scale codes, encodings, flags (R137 to R140). -/
def convertRun (c : Conv) (first : Nat) (vs : List F32) : List (Nat × List (F32 × Nat × Nat)) × Nat :=
  let bs := chunks 32 (List.zip ((List.range vs.length).map (first + ·)) vs)
  let gs := bs.map fun b => (b, convertGroup c b)
  (gs.map fun g => (g.2.1, List.zip (g.1.map Prod.snd) (List.zip (g.1.map Prod.fst) g.2.2.1)),
   gs.foldl (fun a g => Nat.lor a g.2.2.2) 0)

/-- Strikes one encoding: the free value makes it another one. -/
def strikeEnc (w free enc : Nat) : Nat := (enc + 1 + free % (2 ^ w - 1)) % 2 ^ w

/-- A run of converted blocks as written: the struck element (by ordinal) replaced, and the first element whose check fails
(R479). -/
def checkRun (f : Fmt) (struck : Option Nat) (free : Nat) (bs : List (Nat × List (F32 × Nat × Nat))) :
    List Nat × Option Nat :=
  let out := bs.flatMap fun b => b.2.map fun e =>
    (e.2.1, if struck = some e.2.1 then strikeEnc f.width free e.2.2 else e.2.2, e.1, b.1, e.2.2)
  (out.map fun o => o.2.1,
   (out.find? fun o => !elementPasses o.2.2.1 o.2.2.2.1 f o.2.2.2.2 o.2.1).map fun o => o.1)

/-- ST: the store converter's 256 elements at A[AREG], its scale bytes at A[AREG xor 1], the converter's check (R167, R171,
R479). `upset` strikes the element of a lane, or an entry that ST reads. -/
def runSt (upset : Option Upset) (y : Sys) (k : LaneCtx) : Sys :=
  let site := k.x.site
  let u := (y.core site).vec
  let c := convOf k.x.d
  let f := fmtOf c.fmt
  let first := 256 * u.stOrd
  let r := convertRun c first (vreg u k.ins.vd)
  let lane := match upset with
    | some (.lane l) => some (first + l % 256)
    | _ => none
  let fy := if lane.isSome then y.takeFree else (0, y)
  let o := checkRun f lane fy.1 r.1
  let a := nth u.a k.ins.areg 0
  let j := Nat.xor k.ins.areg 1
  let sc := nth u.a j 0
  let y := onVec fy.2 site fun u =>
    let u := { setA u k.ins.areg (a + fmtBytes c.fmt 256) with stOrd := u.stOrd + 1 }
    if f.scaled then setA u j (sc + 8) else u
  let y := raiseFlags y site k.x.index .cvt r.2
  let y := y.each (byLines 256 a (fmtBytes c.fmt 256)) fun y _ => displaceMoves y site (cycNow y.dev k.x.cyc)
  let y := bufWrite y k.x (bufAddr k.x.col a) (packElems c.fmt o.1)
  let y := if f.scaled && inFlight y site k.x.index then bufWrite y k.x (bufAddr k.x.col sc) (r.1.flatMap fun b => leBytes 1 b.1) else y
  match o.2, upset with
  | some e, _ => checkFault y site k.x.index k.x.cyc 3 (e % 2 ^ 32) c.fmt 0 0
  | none, some (.entry e) => registerFault y k e
  | none, _ => y

def execLaneSt (col : Col) (upset : Option Upset) (cyc : Nat) (s : State) : Host.Outcome State Fault Refusal :=
  onSys (fun y => laneRun 0x09 col cyc none (runSt upset) (advanceCore cyc y (siteOf y.dev col))) s

/-- Rows that an IN takes: 4, or those that remain (R162, R167). -/
def inRows (u : VecUnit) : Nat := min 4 (u.stream.length + u.toCome)

/-- IN takes its rows from the stream. -/
def runIn (y : Sys) (k : LaneCtx) : Sys :=
  onVec y k.x.site fun u =>
    let n := inRows u
    let l := (u.stream.take n).flatMap fun r => (r ++ List.replicate (64 - r.length) 0).take 64
    { setV u k.ins.vd ((l ++ List.replicate (256 - l.length) 0).take 256) with stream := u.stream.drop n }

/-- IN waits while rows that it takes are not present: the command then changes nothing; its upset is one of the input stream's parity
(R162, R167, R478). -/
def laneInCmd (col cyc : Nat) (upset : Bool) (y : Sys) : Sys :=
  let u := (y.core (siteOf y.dev col)).vec
  if u.stream.length < inRows u then y else laneRun 0x0A col cyc (if upset then some (.entry 0) else none) runIn y

def execLaneIn (col : Col) (upset : Bool) (cyc : Nat) (s : State) : Host.Outcome State Fault Refusal :=
  onSys (laneInCmd col cyc upset) s

def execLaneSplat (col : Col) (upset : Option Upset) (cyc : Nat) (s : State) : Host.Outcome State Fault Refusal :=
  onSys (laneRun 0x0B col cyc upset fun y k =>
    onVec y k.x.site fun u => setV u k.ins.vd (List.replicate 256 (canon (BitVec.ofNat 32 k.ins.imm)))) s

def execLaneAdd (col : Col) (upset : Option Upset) (cyc : Nat) (s : State) : Host.Outcome State Fault Refusal :=
  onSys (laneRun 0x10 col cyc upset (lane2 laneAddFn)) s

def execLaneSub (col : Col) (upset : Option Upset) (cyc : Nat) (s : State) : Host.Outcome State Fault Refusal :=
  onSys (laneRun 0x11 col cyc upset (lane2 laneSubFn)) s

def execLaneMul (col : Col) (upset : Option Upset) (cyc : Nat) (s : State) : Host.Outcome State Fault Refusal :=
  onSys (laneRun 0x12 col cyc upset (lane2 laneMulFn)) s

def execLaneFma (col : Col) (upset : Option Upset) (cyc : Nat) (s : State) : Host.Outcome State Fault Refusal :=
  onSys (laneRun 0x13 col cyc upset (lane3 fun k => laneFmaFn k.ieee)) s

def execLaneMax (col : Col) (upset : Option Upset) (cyc : Nat) (s : State) : Host.Outcome State Fault Refusal :=
  onSys (laneRun 0x14 col cyc upset (lane2 laneMaxFn)) s

def execLaneMin (col : Col) (upset : Option Upset) (cyc : Nat) (s : State) : Host.Outcome State Fault Refusal :=
  onSys (laneRun 0x15 col cyc upset (lane2 laneMinFn)) s

def execLaneAbs (col : Col) (upset : Option Upset) (cyc : Nat) (s : State) : Host.Outcome State Fault Refusal :=
  onSys (laneRun 0x16 col cyc upset (lane1 fun _ a => (laneAbsFn a, 0))) s

def execLaneNeg (col : Col) (upset : Option Upset) (cyc : Nat) (s : State) : Host.Outcome State Fault Refusal :=
  onSys (laneRun 0x17 col cyc upset (lane1 fun _ a => (laneNegFn a, 0))) s

def execLaneScale (col : Col) (upset : Option Upset) (cyc : Nat) (s : State) : Host.Outcome State Fault Refusal :=
  onSys (laneRun 0x18 col cyc upset (lane1 fun k a => laneScaleFn k.ieee (sext 32 k.ins.imm) a)) s

def execLaneCmpgt (col : Col) (upset : Option Upset) (cyc : Nat) (s : State) : Host.Outcome State Fault Refusal :=
  onSys (laneRun 0x19 col cyc upset (lane2 laneCmpgtFn)) s

def execLaneSel (col : Col) (upset : Option Upset) (cyc : Nat) (s : State) : Host.Outcome State Fault Refusal :=
  onSys (laneRun 0x1A col cyc upset (lane3 fun _ a b c => (laneSelFn a b c, 0))) s

def execLaneExp2 (col : Col) (upset : Option Upset) (cyc : Nat) (s : State) : Host.Outcome State Fault Refusal :=
  onSys (laneRun 0x20 col cyc upset (lane1 fun k => laneExp2Fn k.ieee)) s

def execLaneLog2 (col : Col) (upset : Option Upset) (cyc : Nat) (s : State) : Host.Outcome State Fault Refusal :=
  onSys (laneRun 0x21 col cyc upset (lane1 fun k => laneLog2Fn k.ieee)) s

def execLaneRcp (col : Col) (upset : Option Upset) (cyc : Nat) (s : State) : Host.Outcome State Fault Refusal :=
  onSys (laneRun 0x22 col cyc upset (lane1 fun k => laneRcpFn k.ieee)) s

def execLaneRsq (col : Col) (upset : Option Upset) (cyc : Nat) (s : State) : Host.Outcome State Fault Refusal :=
  onSys (laneRun 0x23 col cyc upset (lane1 fun k => laneRsqFn k.ieee)) s

/-- RSUM: group_sum over the 256 lanes, to every lane (R170). -/
def runRsum (k : LaneCtx) (u : VecUnit) : List (F32 × Nat) :=
  List.replicate 256 (groupSum (vreg u k.ins.va) k.ieee)

def execLaneRsum (col : Col) (upset : Option Upset) (cyc : Nat) (s : State) : Host.Outcome State Fault Refusal :=
  onSys (laneRun 0x28 col cyc upset (laneArith runRsum)) s

/-- RMAX: the largest lane, to every lane (R170). -/
def runRmax (k : LaneCtx) (u : VecUnit) : List (F32 × Nat) := List.replicate 256 (laneRmaxFn (vreg u k.ins.va), 0)

def execLaneRmax (col : Col) (upset : Option Upset) (cyc : Nat) (s : State) : Host.Outcome State Fault Refusal :=
  onSys (laneRun 0x29 col cyc upset (laneArith runRmax)) s

end Sys2Proof.Machine
end

