-- ==== Sys2Proof/Machine/Steps.lean ====
section
/-! DEFINITION. LANE, DMA, span-flow, REDUCE, WAIT and HINT steps; the end and the completion of a step, the sluice's release,
and the records that travel to the control complex (R152, R157, R158, R165, R173 to R187, R216, R333, R480 to R485). -/

namespace Sys2Proof.Machine

/-- LANE: the lane program starts at the issue cycle (R166, R173). -/
def execLane (col : Col) (cyc : Nat) (s : State) : Host.Outcome State Fault Refusal := 
  onSys (issueStep 3 col cyc fun y x => startLane y x (cycNow y.dev x.cyc)) s

/- Moves (R174 to R176). -/

/-- A piece that a move reads at once: its row, or its block when transposing; source, length, destination. -/
structure MovePiece where
  row : Nat
  src : Nat
  len : Nat
  dst : Nat

/-- Blocks along the rows of a transposing move (R175). -/
def mvAcross (d : Desc) : Nat := mvRowBytes d / mvElem d / 64

/-- Pieces of a move without transposition: by lines of the destination, or by host lines of a host source. -/
def plainPieces (d : Desc) : List MovePiece :=
  let s := moveAddr d 0x18
  let t := moveAddr d 0x20
  (List.range (mvRows d)).flatMap fun r =>
    let a := s.2 + r * fld d 0x30 4
    let b := t.2 + r * fld d 0x34 4
    if s.1 then (byLines 128 a (mvRowBytes d)).map fun p => ⟨r, p.2.1, p.2.2, b + p.1⟩
    else (byLines 256 b (mvRowBytes d)).map fun p => ⟨r, a + p.1, p.2.2, p.2.1⟩

/-- Pieces of one 64 × 64 block of a transposing move. -/
def blockPieces (d : Desc) (b : Nat) : List MovePiece :=
  let s := moveAddr d 0x18
  let e := mvElem d
  (List.range 64).flatMap fun i =>
    let a := s.2 + (64 * (b / mvAcross d) + i) * fld d 0x30 4 + 64 * (b % mvAcross d) * e
    (byLines (if s.1 then 128 else 256) a (64 * e)).map fun p => ⟨b, p.2.1, p.2.2, 0⟩

def mvBlocks (d : Desc) : Nat := mvRows d / 64 * mvAcross d

def movePieces (d : Desc) : List MovePiece :=
  if mvTranspose d then (List.range (mvBlocks d)).flatMap (blockPieces d) else plainPieces d

/-- Writes the transpose of a block (R175). -/
def writeBlock (y : Sys) (x : StepCtx) (b : Nat) (bytes : List Byte) : Sys :=
  let d := x.d
  let t := moveAddr d 0x20
  let e := mvElem d
  y.each (List.range 64) fun y j =>
    let row := 64 * (b % mvAcross d) + j
    stepWrite y x t.1 row (t.2 + row * fld d 0x34 4 + 64 * (b / mvAcross d) * e)
      ((List.range 64).flatMap fun i => slice bytes ((64 * i + j) * e) e)

/-- Reads pieces one after another through their checkers; none when one of them ends the step (R280). -/
def readAll (y : Sys) (x : StepCtx) (l : List (Nat × Nat)) : Option (List Byte) × Sys :=
  l.foldl (fun r p => match r.1 with
    | none => r
    | some bs =>
      let k := readDev r.2 p.1 p.2 x.who
      match k.1 with
      | .ok b => (some (bs ++ b), k.2)
      | .error _ => (none, busError k.2 x.site x.index (x.cyc + readLatency y p.1))) (some [], y)

/-- A piece of a remote or host source arrives: written at once, or with its block once that is complete (R175, R511). -/
def movePieceArrives (y : Sys) (x : StepCtx) (pos : Nat) (bytes : List Byte) : Sys :=
  let d := x.d
  let ps := movePieces d
  match ps[pos]? with
  | none => y
  | some p =>
    if mvTranspose d then
      let box := ((liveStep (y.core x.site) x.index).map StepRun.inbox).getD [] ++ [(pos, bytes)]
      let need := (List.range ps.length).filter fun k => (ps[k]?.map MovePiece.row) == some p.row
      let setBox := fun (y : Sys) l => y.onCore x.site fun c => onStep c x.index fun s => { s with inbox := l }
      if need.all fun k => (assoc box k).isSome then
        writeBlock (setBox y (box.filter fun q => !need.contains q.1)) x p.row (need.flatMap fun k => (assoc box k).getD [])
      else setBox y box
    else stepWrite y x (moveAddr d 0x20).1 p.row p.dst bytes

/-- The lines of the column's own buffer that a move reads wait at their banks (R95). -/
def askLines (y : Sys) (x : StepCtx) : Sys :=
  let s := moveAddr x.d 0x18
  match place y.dev.map.n s.2 with
  | .buf c a => if s.1 || c != x.col then y else
      y.onCore x.site fun k => { k with reads := k.reads ++ (List.range (mvRows x.d)).flatMap fun r =>
        (byLines 256 (a + r * fld x.d 0x30 4) (mvRowBytes x.d)).map fun p => (LineReader.dma, p.2.1 / 256) }
  | _ => y

/-- DMA_MOVE: local pieces move at once; remote and host pieces are asked for, and move as they come (R174 to R176, R247). -/
def runMove (y : Sys) (x : StepCtx) : Sys :=
  let d := x.d
  let s := moveAddr d 0x18
  let t := moveAddr d 0x20
  let y := detourStep (askLines y x) x (([s, t].filter fun m => !m.1).map Prod.snd)
  let ask := fun (f : Sys → MovePiece → Nat → Sys) =>
    let ps := movePieces d
    y.each (List.zip ps (List.range ps.length)) fun y p => f y p.1 p.2
  if s.1 then ask fun y p pos => drd y p.src p.len (.stepRead x.col x.index pos)
  else if whose y.dev.map.n x.col s.2 == .remote then ask fun y p pos => meshRead1 y x p.src p.len pos
  else if mvTranspose d then
    y.each (List.range (mvBlocks d)) fun y b =>
      if !inFlight y x.site x.index then y
      else
        let r := readAll y x ((blockPieces d b).map fun p => (p.src, p.len))
        match r.1 with
        | some bytes => writeBlock r.2 x b bytes
        | none => r.2
  else
    y.each (plainPieces d) fun y p =>
      if inFlight y x.site x.index then stepReads y x p.src p.len fun y b => stepWrite y x t.1 p.row p.dst b else y

def execDmaMove (col : Col) (cyc : Nat) (s : State) : Host.Outcome State Fault Refusal := onSys (issueStep 4 col cyc runMove) s

/- Gathers and scatters (R177, R178). -/

/-- Counts a skipped element (R178). -/
def skipElem (y : Sys) (x : StepCtx) : Sys :=
  y.onCore x.site fun c => onStep c x.index fun s => { s with limitSkip := true, count := s.count + 1 }

/-- The pieces of element n of a gather or scatter: offset and length, by lines of its destination. -/
def elemPieces (dst len : Nat) : List (Nat × Nat) := (byLines 256 dst len).map fun p => (p.1, p.2.2)

/-- One element of a gather; a remote piece k of element n is asked for as position 64 n + k. -/
def gatherElem (y : Sys) (x : StepCtx) (n idx : Nat) : Sys :=
  let d := x.d
  let e := gaElem d
  let dst := bufAddr x.col (gaLocal d + n * e)
  let src := gaBase d + idx * e
  if gaLimit d < idx * e + e then stepWrite (skipElem y x) x false n dst (List.replicate e 0)
  else if whose y.dev.map.n x.col (gaBase d) == .remote then
    let ps := elemPieces dst e
    y.each (List.zip ps (List.range ps.length)) fun y p => meshRead1 y x (src + p.1.1) p.1.2 (64 * n + p.2)
  else
    y.each (elemPieces dst e) fun y p =>
      if inFlight y x.site x.index then stepReads y x (src + p.1) p.2 fun y b => stepWrite y x false n (dst + p.1) b else y

/-- A remote piece of a gather arrives. -/
def gatherPieceArrives (y : Sys) (x : StepCtx) (pos : Nat) (bytes : List Byte) : Sys :=
  let dst := bufAddr x.col (gaLocal x.d + pos / 64 * gaElem x.d)
  match (elemPieces dst (gaElem x.d))[pos % 64]? with
  | some p => stepWrite y x false (pos / 64) (dst + p.1) bytes
  | none => y

/-- One element of a scatter. -/
def scatterElem (y : Sys) (x : StepCtx) (n idx : Nat) : Sys :=
  let d := x.d
  let e := gaElem d
  let src := bufAddr x.col (gaLocal d + n * e)
  let dst := gaBase d + idx * e
  if gaLimit d < idx * e + e then skipElem y x
  else
    y.each (elemPieces dst e) fun y p =>
      if inFlight y x.site x.index then stepReads y x (src + p.1) p.2 fun y b => stepWrite y x false n (dst + p.1) b else y

/-- A gather or scatter: the index list, then the elements in index order (R177). -/
def runIndexed (elem : Sys → StepCtx → Nat → Nat → Sys) (y : Sys) (x : StepCtx) : Sys :=
  let n := gaCount x.d
  stepReads (detourStep y x [gaBase x.d]) x (bufAddr x.col (gaIndex x.d)) (4 * n) fun y bs =>
    y.each (List.zip (List.range n) ((chunks 4 bs).map leNat)) fun y p =>
      if inFlight y x.site x.index then elem y x p.1 p.2 else y

def runGather : Sys → StepCtx → Sys := runIndexed gatherElem

def runScatter : Sys → StepCtx → Sys := runIndexed scatterElem

def execDmaGather (col : Col) (cyc : Nat) (s : State) : Host.Outcome State Fault Refusal := onSys (issueStep 5 col cyc runGather) s

def execDmaScatter (col : Col) (cyc : Nat) (s : State) : Host.Outcome State Fault Refusal := onSys (issueStep 6 col cyc runScatter) s

/-- Data of a remote or host read reaches a step. -/
def stepData (y : Sys) (x : StepCtx) (pos : Nat) (bytes : List Byte) : Sys :=
  if opOf x.d = 4 then movePieceArrives y x pos bytes
  else if opOf x.d = 5 then gatherPieceArrives y x pos bytes
  else y

/- Span flows (R179, R181). -/

/-- Arms the flow of a step; a reissued REDUCE keeps the flits placed before (R181, R487). -/
def armFlow (send reduce : Bool) (y : Sys) (x : StepCtx) : Sys :=
  let d := x.d
  let r := nth y.dev.sched.runs x.part {}
  if x.replay then y
  else y.onCore x.site fun c => { c with
    flows := c.flows ++ [⟨flowOf d, send, x.index, flowAddr d, flitsOf d, [], r.start + r.run * x.img.length + lastBeat d, reduce, 0, 0⟩] }

def execSpanSend (col : Col) (cyc : Nat) (s : State) : Host.Outcome State Fault Refusal :=
  onSys (issueStep 7 col cyc (armFlow true false)) s

def execSpanRecv (col : Col) (cyc : Nat) (s : State) : Host.Outcome State Fault Refusal :=
  onSys (issueStep 8 col cyc (armFlow false false)) s

def execReduce (col : Col) (cyc : Nat) (s : State) : Host.Outcome State Fault Refusal :=
  onSys (issueStep 9 col cyc (armFlow false true)) s

/- REDUCE's combination (R182, R216). -/

/-- x × a + y × b, exact, rounded once, with special operands as for FMA (R216). -/
def mergeSum (ieee : Bool) (a ca b cb : F32) : F32 × Nat :=
  if isNan (f32 a) || isNan (f32 ca) || isNan (f32 b) || isNan (f32 cb) then (nan32, 0)
  else
    let p := mulNum (f32 a) (f32 ca)
    let q := mulNum (f32 b) (f32 cb)
    let r := addNum ieee p.1 q.1
    (r.1, Nat.lor (Nat.lor p.2 q.2) r.2)

/-- Merges two partial records of 144 words (R215, R216). -/
def mergeRecord (ieee : Bool) (a b : List F32) : List F32 × Nat :=
  let mA := nth a 0 0
  let mB := nth b 0 0
  let m := (laneMaxFn ieee mA mB).1
  if f32 m = .inf true then (inf32 true :: List.replicate 143 0, 0)
  else
    let part := fun v => let s := laneSubFn ieee v m; let e := laneExp2Fn ieee s.1; (e.1, Nat.lor s.2 e.2)
    let cA := part mA
    let cB := part mB
    let l := mergeSum ieee (nth a 1 0) cA.1 (nth b 1 0) cB.1
    let os := List.zipWith (fun p q => mergeSum ieee p cA.1 q cB.1) ((a.drop 16).take 128) ((b.drop 16).take 128)
    (m :: l.1 :: List.replicate 14 0 ++ os.map Prod.fst,
     os.foldl (fun f o => Nat.lor f o.2) (Nat.lor (Nat.lor cA.2 cB.2) l.2))

/-- The combined elements of a REDUCE and their flags: 0 SUM, 1 MAX, 2 SOFTMAX_MERGE (R182). -/
def combine (redOp : Nat) (ieee : Bool) (loc rcv : List F32) : List F32 × Nat :=
  if redOp = 2 then
    let rs := List.zipWith (mergeRecord ieee) (chunks 144 loc) (chunks 144 rcv)
    (rs.flatMap Prod.fst, rs.foldl (fun f r => Nat.lor f r.2) 0)
  else
    let rs := List.zipWith (fun a b => if redOp = 0 then accumulate a b ieee else laneMaxFn ieee a b) loc rcv
    (rs.map Prod.fst, rs.foldl (fun f r => Nat.lor f r.2) 0)

/-- Writes converted elements at a buffer offset with their scales on the next 64 bytes, and raises a converter check fault
(R182, R214, R479). -/
def writeFlat (y : Sys) (x : StepCtx) (a : Nat) (vs : List F32) : Sys :=
  let c := convOf x.d
  let f := fmtOf c.fmt
  let r := convertRun c 0 vs
  let o := checkRun f none 0 r.1
  let y := raiseFlags y x.site x.index .cvt r.2
  let y := stepWrite y x false 0 (bufAddr x.col a) (packElems c.fmt o.1)
  let y := if f.scaled then
      stepWrite y x false 0 (bufAddr x.col (a + ceilDiv (fmtBytes c.fmt vs.length) 64 * 64)) (r.1.flatMap fun b => leBytes 1 b.1)
    else y
  match o.2 with
  | some e => checkFault y x.site x.index x.cyc 3 (e % 2 ^ 32) c.fmt 0 0
  | none => y

/-- Combines the received and the local partials of a REDUCE (R182). -/
def runReduce (y : Sys) (x : StepCtx) : Sys :=
  let d := x.d
  let n := 256 * flitsOf d
  let r := readAll y x [(bufAddr x.col (fld d 0x30 4), n), (flowAddr d, n)]
  match r.1 with
  | none => r.2
  | some bs =>
    let vals := fun b => (decodeElems (warpFmt d) b).map widenExact
    let k := combine (fld d 0x2C 1) (ieeeMode d) (vals (bs.take n)) (vals (bs.drop n))
    writeFlat (raiseFlags r.2 x.site x.index .vec k.2) x (fld d 0x34 4) k.1

/- WAIT and HINT (R165). -/

def execWait (col : Col) (cyc : Nat) (s : State) : Host.Outcome State Fault Refusal :=
  onSys (issueStep 12 col cyc fun y _ => y) s

/-- HINT ends at its issue; its heavy phase begins with its lead (R165, R157). -/
def runHint (y : Sys) (x : StepCtx) : Sys := markEnd y x.site x.index x.cyc

def execHint (col : Col) (cyc : Nat) (s : State) : Host.Outcome State Fault Refusal := onSys (issueStep 13 col cyc runHint) s

/- Ends (R152, R157, R158). -/

/-- A member of a replay that has been stopped and not yet issued again (R487). -/
def awaitsReissue (c : Core) (i : Nat) : Bool := c.replay.any fun r => r.members.any (·.1 == i) && !r.reissued.contains i

/-- All the work of a step is done at a cycle, so that it may end: its nominal end with its lengthenings has passed, a lane program has
halted, the last flit of a flow has been sent by cycle 63 or presented by cycle 16, 28 for a REDUCE (R157, R158, R202). -/
def readyToEnd (y : Sys) (x : StepCtx) (s : StepRun) (now : Nat) : Bool :=
  let c := y.core x.site
  let timed := decide (s.nominalEnd + s.lengthen + s.tail + ceilDiv s.displaced 8 ≤ now)
  let halted := c.vec.step == some s.index && c.vec.halted
  let moved := fun (cyc : Nat) => match c.flows.find? fun f => f.index == s.index with
    | some f => decide (f.flits ≤ flitsMoved c s.index) && decide (f.lastAt * 64 + cyc ≤ now)
    | none => timed
  outstanding y x.col s.index == 0 && s.inbox.isEmpty && !awaitsReissue c s.index &&
    match s.op with
    | 1 => timed && !c.tiles.any (·.index == s.index) && !c.draining.any (·.tile.index == s.index)
        && !waitsForLine c.skew s now && (!mmToVector s.desc || halted)
    | 2 => timed && !s.waitPrep && !waitsForLine c.skew s now && (match c.attend with
        | some a => decide (a.step ≠ s.index) || decide (atMaxPages s.desc ≤ a.next)
        | none => false) && (!atEpilogue s.desc || halted)
    | 3 => timed && halted
    | 4 => isHostMove s.desc || timed
    | 7 => moved 63
    | 8 => moved 16
    | 9 => moved 28
    | 10 => timed && s.nextWork == 0
    | 11 => timed && !s.waitPrep && s.nextWork == 0
    | 14 => timed && !s.waitPrep
    | _ => timed

/-- Ends a step: its core is brought to the cycle and its flags are formed; a REDUCE combines first; a flow is no longer armed; the end of
a SKETCH or APPEND triggers the next preparation (R146, R151, R152, R182, R201, R333). -/
def stepEnd (col i cyc : Nat) (y : Sys) : Sys :=
  let site := siteOf y.dev col
  let i := stepKey (y.core site) i
  let y := formFlags (advanceCore cyc y site) site (cycNow y.dev cyc + 1)
  match liveStep (y.core site) i, liveCtx y site i cyc with
  | some s, some x =>
    if s.endAt.isSome || !readyToEnd y x s (cycNow y.dev cyc) then y
    else
      let y := if s.op = 9 then runReduce y x else y
      if ((liveStep (y.core site) i).map (·.issueAt)) == some s.issueAt && !((y.core site).replay.any fun r => r.faultAt == cycNow y.dev cyc) then
        let y := if 7 ≤ s.op ∧ s.op ≤ 9 then
            y.onCore site fun c => { onStep c i (fun s => { s with count := flitsMoved c i }) with
              flows := c.flows.filter fun f => f.index != i }
          else if s.op = 2 then y.onCore site fun c => { c with descs := c.descs.drop (atMaxPages s.desc) }
          else if s.op = 11 ∨ s.op = 14 then y.onCore site fun c => { c with prepTrigger := some (y.dev.beat.wbc + 1) }
          else y
        markEnd y site i cyc
      else y
  | _, _ => y

def execStepEnd (col : Col) (index cyc : Nat) (s : State) : Host.Outcome State Fault Refusal := onSys (stepEnd col index cyc) s

/-- FLOW_LAST_BEAT_EXPIRY: a flit is still missing in cycle 16 (SPAN_RECV) or 28 (REDUCE) of LAST_BEAT (R157, R333). -/
def flowExpiry (col i cyc : Nat) (y : Sys) : Sys :=
  let site := siteOf y.dev col
  let i := stepKey (y.core site) i
  match (y.core site).flows.find? fun f => f.index == i && !f.send, liveStep (y.core site) i with
  | some f, some s =>
    let due := f.lastBeat < sbc y.dev || (sbc y.dev == f.lastBeat && decide ((if f.reduce then 28 else 16) ≤ cyc))
    if !due || decide (f.flits ≤ f.placed.length) then y
    else
      let y := faultRec y (stepFault y site s { cls := 0x0C, outcome := 3, flags := 5 })
      stopSite (endStep (abandonReplay y site 3) site i 3 0 cyc) site 4
  | _, _ => y

def execFlowLastBeatExpiry (col : Col) (index cyc : Nat) (s : State) : Host.Outcome State Fault Refusal :=
  onSys (flowExpiry col index cyc) s

/- Completion and the sluice's release (R152, R480, R482). -/

/-- Releases one held write: to the column's own DRAM, or as WRITE packets to another column (R245, R247, R482). -/
def releaseWrite (y : Sys) (site col i : Nat) (h : HeldWrite) : Sys :=
  if whose y.dev.map.n col h.addr == .remote then
    y.each (maskRuns 0 h.mask) fun y r =>
      meshRequest y 2 site (colInc y.dev col) (h.addr + r.1) r.2 (slice h.data r.1 r.2) (.step col i) 0
  else deviceWrite y h.addr h.data h.mask (.step col i) none

/-- A step completes with an outcome: its held writes are released in order, its status record follows (R152, R187, R482). -/
def completeStep (y : Sys) (site col i outcome replays : Nat) : Sys :=
  match liveStep (y.core site) i with
  | none => y
  | some s =>
    let s' := { s with outcome := some outcome, done := true, held := [], replays := replays, member := false }
    let y := y.onCore site fun c => onStep c i fun _ => s'
    let y := y.each s.held fun y h => releaseWrite y site col i h
    recordStep y site s' 0

/-- A step is a consumer of one whose drained tile has not been compared yet: its result is covered by that check too, and no
wrong result may leave the column (R152, R481, R486). -/
def awaitsProducer (y : Sys) (col : Nat) (s : StepRun) : Bool :=
  let c := y.core (siteOf y.dev col)
  match columnRun y col with
  | none => false
  | some (_, img, _) => c.drained.any fun t =>
      match liveStep c t.index with
      | none => false
      | some p => p.index != s.index &&
          (consumers y img col p (c.steps.filter fun k => decide (p.issueAt < k.issueAt))).any fun k => k.index == s.index

/-- Every check of an ended step has passed (R152). -/
def checksPassed (y : Sys) (col : Nat) (s : StepRun) (now : Nat) : Bool :=
  s.checksDue == 0 && outstanding y col s.index == 0 && (match s.endAt with
    | some t => decide (t ≤ now)
    | none => false)

/-- STEP_COMPLETE; the members of a replay complete together at its end (R152, R487). -/
def stepComplete (col i cyc : Nat) (y : Sys) : Sys :=
  let site := siteOf y.dev col
  let i := stepKey (y.core site) i
  match liveStep (y.core site) i with
  | none => y
  | some s =>
    let inReplay := (y.core site).replay.any fun r => r.members.any (·.1 == i)
    if inReplay || !checksPassed y col s (cycNow y.dev cyc) || awaitsProducer y col s then y else completeStep y site col i 0 0

def execStepComplete (col : Col) (index cyc : Nat) (s : State) : Host.Outcome State Fault Refusal :=
  onSys (stepComplete col index cyc) s

/- Records on their way to the control complex (R187, R317, R377, R492, R493). -/

/-- The header of a ring: PRODUCER and DROPPED (R377). -/
def ringHeader (produced dropped : Nat) : List Byte := leBytes 4 produced ++ leBytes 4 dropped

/-- A ring of R records is full: PRODUCER less the consumed count, both free-running 32-bit counts, is R (R377). -/
def ringFull (records produced consumed : Nat) : Bool := decide (records ≤ (produced % 2 ^ 32 + 2 ^ 32 - consumed) % 2 ^ 32)

/-- Writes a status record into the ring of its partition, or drops and counts it where the ring is full or absent (R187, R377,
R378). -/
def statusRecord (y : Sys) (b : List Byte) (q : Nat) : Sys :=
  let r := nth y.dev.sched.rings q {}
  let set := fun (y : Sys) f => y.onSched fun s => { s with rings := upd s.rings q f }
  if r.records = 0 then y
  else if ringFull r.records r.produced r.consumer then
    dwrRange (set y fun r => { r with dropped := r.dropped + 1 }) (r.addr + 4) (leBytes 4 (r.dropped + 1)) (.stsProducer q)
  else
    dwrRange (set y fun r => { r with produced := r.produced + 1 }) (r.addr + 64 + 32 * (r.produced % r.records)) b (.stsRecord q)

/-- STEP_STATUS_RECORD: the oldest status record on the shuttle network arrives; one with a parity error is lost at the stop that finds
it (R187, R317, R492). -/
def stepStatusRecord (parityError : Option Site) (y : Sys) : Sys :=
  match y.dev.host.stsOut with
  | [] => y
  | r :: rest =>
    let y := y.onHost fun h => { h with stsOut := rest }
    recordArrives y false r parityError (statusRecord y r.data r.part)

def execStepStatusRecord (parityError : Option Site) (s : State) : Host.Outcome State Fault Refusal := onSys (stepStatusRecord parityError) s

/-- FAULT_RECORD: the two messages of the oldest fault record arrive and it enters the event ring's queue; with a parity error in one of
them it is lost (R315, R317, R378, R492, R493). -/
def faultRecord (parityError : Option Site) (y : Sys) : Sys :=
  match y.dev.host.faultOut with
  | [] => y
  | r :: rest =>
    let y := y.onHost fun h => { h with faultOut := rest }
    recordArrives y true r parityError (ringPush y r.data true)

def execFaultRecord (parityError : Option Site) (s : State) : Host.Outcome State Fault Refusal := onSys (faultRecord parityError) s

end Sys2Proof.Machine
end

