-- ==== Sys2Proof/Machine/Dram.lean ====
section
/-! DEFINITION. DRAM banks: row operations, the bank bus, the throttle, requests, refresh, scrubbing, and the vertical
channel's retransfer (R244, R254 to R265, R269 to R271, R277 to R281, R290 to R296, R311, R312). -/

namespace Sys2Proof.Machine

/- Strikes. -/

/-- Bytes of a block struck at positions: a Protected block holds errors; in an Open granule no code covers the block, so its
data bytes change to free values (R236, R273, R274). -/
def strikeDram (y : Sys) (key : Nat) (ps : List Nat) : Sys :=
  let site := key / 2 ^ 34
  let off := key % 2 ^ 34
  if dramOpen y site off then
    y.each (ps.filter fun p => decide (p < 64)) fun y p =>
      let r := y.takeFree
      r.2.put (key + p) [y.get (key + p) ^^^ BitVec.ofNat 8 (1 + r.1 % 255)]
  else y.onProt fun p => { p with dramErr := strike p.dramErr key ps }

/- Row operations (R254, R255). -/

/-- The result of a row operation, byte by byte. -/
def rowResult (op compound : Nat) (a b c : Byte) : Byte :=
  let maj := (a &&& b) ||| (b &&& c) ||| (a &&& c)
  match op with
  | 1 => a &&& b
  | 2 => a ||| b
  | 3 => a ^^^ b
  | 4 => ~~~(a ^^^ b)
  | 5 => ~~~a
  | 6 => maj
  | 7 => a
  | 8 => 0
  | 9 => 0xFF
  | _ => match compound with
    | 0 => ~~~(a &&& b)
    | 1 => ~~~(a ||| b)
    | 2 => a &&& ~~~b
    | 3 => a ||| ~~~b
    | 4 => a &&& b &&& c
    | 5 => a ||| b ||| c
    | 6 => a ^^^ b ^^^ c
    | 7 => (a &&& c) ||| (b &&& ~~~c)
    | _ => a ^^^ b ^^^ c

/-- MAJ3, which FULL_ADD writes to the row of C. -/
def rowMaj (a b c : Byte) : Byte := (a &&& b) ||| (b &&& c) ||| (a &&& c)

/-- Writes a row of a site: retained ranges are hit as by any write (R184, R263). -/
def writeRow (y : Sys) (site off : Nat) (data : List Byte) : Sys :=
  let y := (y.put (dramKey site off) data).onProt fun p =>
    { p with dramErr := p.dramErr.filter fun e => !(decide (dramKey site off ≤ e.1) && decide (e.1 < dramKey site off + 8192)) }
  match colAt y.dev site with
  | some c => retHit y (dramAddr c off) (dramAddr c off + 8191) none
  | none => y

/-- Bytes of a row. -/
def rowBytes (y : Sys) (site off : Nat) : List Byte := y.getN (dramKey site off) 8192

/-- The check bytes of a row travel with it: its errors are copied (R281). -/
def copyErrs (y : Sys) (site src dst : Nat) : Sys :=
  let from0 := dramKey site src
  let to0 := dramKey site dst
  y.onProt fun p =>
    let moved := p.dramErr.filter fun e => decide (from0 ≤ e.1) && decide (e.1 < from0 + 8192)
    { p with dramErr := moved.foldl (fun l e => errSet (to0 + (e.1 - from0)) e.2 l) p.dramErr }

/-- What a row operation writes (R254, R255, R260, R281). -/
def rowEffect (y : Sys) (site : Nat) (o : RowOp) : Sys :=
  if o.phase = 2 then y
  else if o.cross then (if o.phase = 1 then writeRow y site o.dst o.latched else y)
  else
    let a := rowBytes y site o.a
    let b := rowBytes y site o.b
    let c := rowBytes y site o.c
    let abc := List.zip a (List.zip b c)
    let y := writeRow y site o.dst (abc.map fun t => rowResult o.op o.compound t.1 t.2.1 t.2.2)
    let y := if o.op = 10 ∧ o.compound = 8 then writeRow y site o.c (abc.map fun t => rowMaj t.1 t.2.1 t.2.2) else y
    if o.copyCheck then copyErrs y site o.a o.dst else y

/-- The governor's budget condition: a layer whose activity exceeds its budget runs at double rate (R270). -/
def budgetTest (y : Sys) (layer : Nat) : Sys :=
  let b := rowBudget y layer
  y.onLayer layer fun l =>
    let past := decide (b < l.actWindow)
    { l with causeActivity := l.causeActivity || past, dbl := l.dbl || past, dirtyWindow := l.dirtyWindow || past }

/-- A layer starts an operation: tokens, activity, and the governor's budget condition (R270, R271). -/
def spendTokens (y : Sys) (layer cost : Nat) : Sys :=
  budgetTest (y.onLayer layer fun l => { l with tokens := l.tokens - cost * 65536, actWindow := sat32 (l.actWindow + cost) }) layer

/-- A layer holds the tokens of an operation (R271). -/
def hasTokens (y : Sys) (layer cost : Nat) : Bool := decide (cost * 65536 ≤ (nth y.dev.prot.layers layer {}).tokens)

/-- A row operation of a step has started: one fewer remains, and the next repetition may start 8 cycles later. The step ends 16 cycles
after its last operation, so that whatever made one of them late lengthens it (R158, R262, R263). -/
def rowStarted (y : Sys) (o : RowOp) (now wait : Nat) : Sys :=
  match o.who with
  | .step c i => y.onCore (siteOf y.dev c) fun k => onStep k i fun s =>
      if o.phase = 2 then { s with nextWork := s.nextWork - 1, lengthen := s.lengthen + wait }
      else
        let last := max s.rowLast (now + o.dur)
        { s with nextWork := if o.cross && o.phase == 0 then s.nextWork else s.nextWork - 1
                 rowNext := if o.phase = 0 then o.rep + 1 else s.rowNext
                 rowReady := if o.phase = 0 then now + 8 else s.rowReady
                 rowLast := last, lengthen := max s.lengthen (last + 16 - s.nominalEnd) }
  | _ => y

/-- A row operation starts at its bank (R234, R254, R260, R271). -/
def startRowOp (y : Sys) (site tile bank : Nat) (o : RowOp) (now wait : Nat) : Sys :=
  let id := bankId site tile bank
  let y := spendTokens y tile o.cost
  let y := y.onBank id fun b => { b with openRow := none, busySince := now, busyUntil := now + o.dur }
  let y := rowStarted y o now wait
  if o.cross && o.phase == 0 then
    y.onProt fun p => { p with busCopies := p.busCopies ++
      [(site, { o with phase := 1, latched := rowBytes y site o.a, arrivedAt := now + 32 + 36864, waiting := false })] }
  else rowEffect y site o

/-- The operations of a layer that wait for tokens, each with its bank. -/
def waitingOps (y : Sys) (layer : Nat) : List (Nat × RowOp) :=
  y.dev.prot.banks.flatMap fun b =>
    if b.1 / 32 % 12 = layer then (b.2.rowOps.filter RowOp.waiting).map fun o => (b.1, o) else []

/-- A bank can take a row operation: nothing occupies it and every request that arrived before has been served (R264). -/
def bankFree (y : Sys) (id now : Nat) : Bool := decide ((y.bank id).freeAt now = now) && (y.bank id).waiting.isEmpty

/-- The next repetition of a ROWOP in their order, not before its cycle; a copy's second phase and the operations of other requesters keep
no such order (R262). -/
def inOrder (y : Sys) (o : RowOp) (now : Nat) : Bool :=
  match o.who with
  | .step c i => (match liveStep (y.core (siteOf y.dev c)) i with
    | some s => decide (o.phase ≠ 0) || (s.rowNext == o.rep && decide (s.rowReady ≤ now))
    | none => true)
  | _ => true

/-- A row operation of a SKETCH or of a page copy, whose rows are written with the step or the preparation. It occupies its bank from its
cycle on, after earlier requests and whatever occupies the bank, which lengthens its step; or it waits for tokens behind the others of
its layer (R210, R222, R244, R254, R261, R264, R271). -/
def takeTokens (y : Sys) (site tile bank op cost : Nat) (who : Requester) (now : Nat) : Sys :=
  let id := bankId site tile bank
  let y := settleBank y id
  if hasTokens y tile cost && (waitingOps y tile).isEmpty then
    let f := (y.bank id).freeAt now
    let y := (spendTokens y tile cost).onBank id fun b => { b with
      openRow := none, ahead := (b.ahead.filter fun i => decide (y.dev.beat.wbc * 64 < i.2)) ++ [(f, f + 16 * cost)] }
    match who with
    | .step c i => y.onCore (siteOf y.dev c) fun k => onStep k i fun s => { s with lengthen := s.lengthen + (f - now) }
    | _ => y
  else
    let o : RowOp := ⟨op, 0, 0, 0, 0, 0, cost, 16 * cost, who, false, 2, [], now, true, false, 0⟩
    let y := y.onBank id fun b => { b with openRow := none, rowOps := b.rowOps ++ [o] }
    match who with
    | .step c i => y.onCore (siteOf y.dev c) fun k => onStep k i fun s => { s with nextWork := s.nextWork + 1 }
    | _ => y

/-- The first row operation of a bank that does not wait for tokens starts when it is of the command's kind, its turn among the
repetitions has come, its bank is free and its layer has tokens; else it waits for tokens in order of arrival (R260, R262, R264,
R271). -/
def rowCommand (op compound site tile bank cyc : Nat) (y : Sys) : Sys :=
  let id := bankId site tile bank
  let now := cycNow y.dev cyc
  match (y.bank id).rowOps.find? fun o => !o.waiting with
  | none => y
  | some o =>
    if o.op ≠ op || (op == 10 && o.compound != compound) || !inOrder y o now || !bankFree y id now then y
    else if o.cross && o.phase == 0 && y.dev.prot.busCopies.any (·.1 == site) then y
    else if !hasTokens y tile o.cost || !(waitingOps y tile).isEmpty then
      y.onBank id fun b => { b with rowOps := b.rowOps.map fun x => if x == o then { o with waiting := true, arrivedAt := now } else x }
    else startRowOp (y.onBank id fun b => { b with rowOps := b.rowOps.erase o }) site tile bank o now 0

def execRowAnd (site : Site) (tile : Layer) (bank : Fin 32) (cyc : Nat) (s : State) : Host.Outcome State Fault Refusal :=
  onSys (rowCommand 1 0 site tile bank cyc) s

def execRowOr (site : Site) (tile : Layer) (bank : Fin 32) (cyc : Nat) (s : State) : Host.Outcome State Fault Refusal :=
  onSys (rowCommand 2 0 site tile bank cyc) s

def execRowXor (site : Site) (tile : Layer) (bank : Fin 32) (cyc : Nat) (s : State) : Host.Outcome State Fault Refusal :=
  onSys (rowCommand 3 0 site tile bank cyc) s

def execRowXnor (site : Site) (tile : Layer) (bank : Fin 32) (cyc : Nat) (s : State) : Host.Outcome State Fault Refusal :=
  onSys (rowCommand 4 0 site tile bank cyc) s

def execRowNot (site : Site) (tile : Layer) (bank : Fin 32) (cyc : Nat) (s : State) : Host.Outcome State Fault Refusal :=
  onSys (rowCommand 5 0 site tile bank cyc) s

def execRowMaj3 (site : Site) (tile : Layer) (bank : Fin 32) (cyc : Nat) (s : State) : Host.Outcome State Fault Refusal :=
  onSys (rowCommand 6 0 site tile bank cyc) s

def execRowCopy (site : Site) (tile : Layer) (bank : Fin 32) (cyc : Nat) (s : State) : Host.Outcome State Fault Refusal :=
  onSys (rowCommand 7 0 site tile bank cyc) s

def execRowZero (site : Site) (tile : Layer) (bank : Fin 32) (cyc : Nat) (s : State) : Host.Outcome State Fault Refusal :=
  onSys (rowCommand 8 0 site tile bank cyc) s

def execRowOnes (site : Site) (tile : Layer) (bank : Fin 32) (cyc : Nat) (s : State) : Host.Outcome State Fault Refusal :=
  onSys (rowCommand 9 0 site tile bank cyc) s

def execRowNand (site : Site) (tile : Layer) (bank : Fin 32) (cyc : Nat) (s : State) : Host.Outcome State Fault Refusal :=
  onSys (rowCommand 10 0 site tile bank cyc) s

def execRowNor (site : Site) (tile : Layer) (bank : Fin 32) (cyc : Nat) (s : State) : Host.Outcome State Fault Refusal :=
  onSys (rowCommand 10 1 site tile bank cyc) s

def execRowAndn (site : Site) (tile : Layer) (bank : Fin 32) (cyc : Nat) (s : State) : Host.Outcome State Fault Refusal :=
  onSys (rowCommand 10 2 site tile bank cyc) s

def execRowOrn (site : Site) (tile : Layer) (bank : Fin 32) (cyc : Nat) (s : State) : Host.Outcome State Fault Refusal :=
  onSys (rowCommand 10 3 site tile bank cyc) s

def execRowAnd3 (site : Site) (tile : Layer) (bank : Fin 32) (cyc : Nat) (s : State) : Host.Outcome State Fault Refusal :=
  onSys (rowCommand 10 4 site tile bank cyc) s

def execRowOr3 (site : Site) (tile : Layer) (bank : Fin 32) (cyc : Nat) (s : State) : Host.Outcome State Fault Refusal :=
  onSys (rowCommand 10 5 site tile bank cyc) s

def execRowXor3 (site : Site) (tile : Layer) (bank : Fin 32) (cyc : Nat) (s : State) : Host.Outcome State Fault Refusal :=
  onSys (rowCommand 10 6 site tile bank cyc) s

def execRowMux (site : Site) (tile : Layer) (bank : Fin 32) (cyc : Nat) (s : State) : Host.Outcome State Fault Refusal :=
  onSys (rowCommand 10 7 site tile bank cyc) s

def execRowFullAdd (site : Site) (tile : Layer) (bank : Fin 32) (cyc : Nat) (s : State) : Host.Outcome State Fault Refusal :=
  onSys (rowCommand 10 8 site tile bank cyc) s

/-- ROW_OP_THROTTLE_RELEASE: the operation of a layer that waited longest starts once the layer holds its tokens (R271). -/
def throttleRelease (layer cyc : Nat) (y : Sys) : Sys :=
  let now := cycNow y.dev cyc
  match (waitingOps y layer).foldl (fun (m : Option (Nat × RowOp)) w => match m with
    | none => some w
    | some b => if w.2.arrivedAt < b.2.arrivedAt then some w else m) none with
  | none => y
  | some (id, o) =>
    if !hasTokens y layer o.cost || !bankFree y id now then y
    else
      let wait := now - o.arrivedAt
      let y := y.onBank id fun b => { b with rowOps := b.rowOps.erase o }
      let y := y.onProt fun p => { p with rlThrottleWait := sat32 (p.rlThrottleWait + wait) }
      startRowOp y (id / 384) layer (id % 32) { o with waiting := false } now wait

def execRowOpThrottleRelease (layer : Layer) (cyc : Nat) (s : State) : Host.Outcome State Fault Refusal :=
  onSys (throttleRelease layer cyc) s

/-- BANK_BUS_TRANSFER_DONE: the row of a cross-bank copy has crossed the bus; it is written at its destination bank as soon as
that bank and the throttle let it (R260). -/
def busDone (site tile cyc : Nat) (y : Sys) : Sys :=
  let now := cycNow y.dev cyc
  match y.dev.prot.busCopies.find? fun b => b.1 == site && tileOf b.2.dst == tile with
  | none => y
  | some (_, o) =>
    if now < o.arrivedAt then y
    else
      let bank := bankOf o.dst
      let id := bankId site tile bank
      let y := y.onProt fun p => { p with busCopies := p.busCopies.filter (·.1 != site), rlBusCopies := sat32 (p.rlBusCopies + 1) }
      if !bankFree y id now then y.onBank id fun b => { b with rowOps := o :: b.rowOps }
      else if !hasTokens y tile o.cost || !(waitingOps y tile).isEmpty then
        y.onBank id fun b => { b with rowOps := { o with waiting := true, arrivedAt := now } :: b.rowOps }
      else startRowOp y site tile bank o now 0

def execBankBusTransferDone (site : Site) (tile : Layer) (cyc : Nat) (s : State) : Host.Outcome State Fault Refusal :=
  onSys (busDone site tile cyc) s

/-- The row operation of repetition k of a ROWOP (R164, R260). -/
def rowOpOf (x : StepCtx) (k : Nat) : RowOp :=
  let d := x.d
  let at0 := fun a => (a + k * roStride d) % colBytes
  let cross := roOp d == 7 && bankAt (at0 (roA d)) != bankAt (at0 (roDst d))
  let cost := rowCost (roOp d) (roCompound d)
  { op := roOp d, compound := roCompound d, dst := at0 (roDst d), a := at0 (roA d), b := at0 (roB d), c := at0 (roC d),
    cost := cost, dur := 16 * cost, who := x.who, cross := cross, phase := 0, latched := [], arrivedAt := 0, waiting := false,
    copyCheck := false, rep := k }

/-- ROWOP: refused as a whole when any row of any repetition lies in a Protected granule, else its repetitions go to their
banks in order (R257, R261, R262). -/
def runRowop (y : Sys) (x : StepCtx) : Sys :=
  let d := x.d
  let open0 := (List.range (roCount d)).all fun k => (roRows d k).all fun a => isOpen y x.col (granuleOf (a % colBytes))
  if !open0 then refusedStep (y.onProt fun p => { p with rlRefused := sat32 (p.rlRefused + 1) }) x 0
  else
    let y := beginStep y x []
    let y := y.onCore x.site fun c => onStep c x.index fun s => { s with nextWork := roCount d, rowReady := s.issueAt + 16 }
    y.each (List.range (roCount d)) fun y k =>
      let o := rowOpOf x k
      let at0 := if o.cross then o.a else o.dst
      y.onBank (bankId x.site (tileOf at0) (bankOf at0)) fun b => { b with rowOps := b.rowOps ++ [o] }

def execRowop (col : Col) (cyc : Nat) (s : State) : Host.Outcome State Fault Refusal := onSys (issueAny 10 col cyc runRowop) s

/- Requests (R244, R264, R280). -/

/-- The uncorrectable outcome of an access at an address, for its requester (R280). -/
def accessFailed (y : Sys) (who : Requester) (a : Nat) (write : Bool) : Sys :=
  match who with
  | .step c i => if write then rmwFailed y who else busError y (siteOf y.dev c) i 0
  | .host => event y 0x0503 (leBytes 8 a)
  | .control => ccFailed y a
  | _ => y

/-- The uncorrectable outcome of a request, for its requester (R280). -/
def requestFailed (y : Sys) (r : BankReq) : Sys := accessFailed y r.who (siteDramAddr y.dev r.site r.addr) r.write

/-- A request that a bank has performed gives its requester what it found (R280). -/
def answerReq (y : Sys) (r : BankReq) : Option (List Byte) → Sys
  | none => requestFailed y r
  | some b => if r.write then y else y.onProt fun p => { p with bankReads := p.bankReads ++ [(r.who, r.addr, b)] }

/-- A bank performs a request through its checker; the row stays open (R234, R244). -/
def serveRequest (y : Sys) (r : BankReq) : Sys :=
  let k := performReq (y.onBank (bankId r.site (tileOf r.addr) (bankOf r.addr)) fun b => { b with openRow := some (rowOf r.addr) }) r
  answerReq k.2 r k.1

/-- BANK_REQUEST_ARRIVE: performed in arrival order; it waits behind a row operation or a refresh; a fenced core's own request is
refused; `upset` strikes byte positions of the block addressed, or, from 72 on, the controller's entry of the request, whose parity then
makes it an uncorrectable outcome (R244, R264, R265, R283, R492, R497). -/
def bankRequest (r : BankReq) (upset : List Nat) (cyc : Nat) (y : Sys) : Sys :=
  let site := r.site
  let fenced := y.dev.noc.fenced.contains site && (match r.who with
    | .step c _ => siteOf y.dev c == site
    | _ => false)
  if y.dev.noc.fabricReset || 18 ≤ site || colBytes ≤ r.addr || colBytes < r.addr + max r.len r.data.length then y
  else if fenced then y.onSiteNoc site fun n => { n with fenceDrops := sat32 (n.fenceDrops + 1) }
  else
    let y := strikeDram y (dramKey site (r.addr / 64 * 64)) (upset.filter fun p => decide (p < 72))
    let now := cycNow y.dev cyc
    let id := bankId site (tileOf r.addr) (bankOf r.addr)
    let free := (y.bank id).freeAt now
    if let some e := upset.find? fun p => decide (72 ≤ p) then
      requestFailed (faultRecCc y (faultSite y site { cls := 0x0B, location := e - 72, detail := 5 })) r
    else if now < free || !(y.bank id).waiting.isEmpty then
      let y := (y.onBank id fun b => { b with waiting := b.waiting ++ [{ req := r }] }).onProt fun p =>
        { p with rlReqWaits := sat32 (p.rlReqWaits + 1) }
      match r.who with
      | .step c i => y.onCore (siteOf y.dev c) fun k => onStep k i fun s => { s with lengthen := s.lengthen + (free - now) }
      | _ => y
    else serveRequest y r

def execBankRequestArrive (r : BankReq) (upset : List Nat) (cyc : Nat) (s : State) : Host.Outcome State Fault Refusal :=
  onSys (bankRequest r upset cyc) s

/-- BANK_REQUEST_AFTER_ROW_OP: the first waiting request is served once nothing occupies the bank (R264, R269). -/
def requestAfter (site tile bank cyc : Nat) (y : Sys) : Sys :=
  let id := bankId site tile bank
  let now := cycNow y.dev cyc
  match (y.bank id).waiting with
  | [] => y
  | w :: rest =>
    if (y.bank id).freeAt now ≠ now then y
    else
      let y := y.onBank id fun b => { b with waiting := rest }
      match w.outcome with
      | some k => answerReq (y.onBank id fun b => { b with openRow := some (rowOf w.req.addr) }) w.req k
      | none => serveRequest y w.req

def execBankRequestAfterRowOp (site : Site) (tile : Layer) (bank : Fin 32) (cyc : Nat) (s : State) : Host.Outcome State Fault Refusal :=
  onSys (requestAfter site tile bank cyc) s

/-- BANK_REFRESH: bank b of every tile of layer M(l + 1) refreshes 2 rows in cycle 32 of the beats that R269 names, once in each, holds
no row open, and is occupied for 48 cycles, after earlier requests and whatever occupies it then (R234, R244, R264, R269). -/
def bankRefresh (layer bank cyc : Nat) (y : Sys) : Sys :=
  let i := if (nth y.dev.prot.layers layer {}).dbl then 500 else 1000
  let now := cycNow y.dev cyc
  if cyc = 32 ∧ y.dev.beat.wbc % i = (31 * bank + 7 * (layer + 1)) % i then
    y.each (List.range 18) fun y site =>
      let id := bankId site layer bank
      if now < (y.bank id).refreshUntil then y
      else (settleBank y id).onBank id fun b => { b with
        refreshRow := (b.refreshRow + 2) % 4096, openRow := none, refreshUntil := b.freeAt now + 48 }
  else y

def execBankRefresh (layer : Layer) (bank : Fin 32) (cyc : Nat) (s : State) : Host.Outcome State Fault Refusal :=
  onSys (bankRefresh layer bank cyc) s

/-- GRANULE_ENCODE_DONE: the check bytes of a granule that is becoming Protected are written. A column's granules are encoded one after
another from the acceptance of the swap on, each in 16,384 beats (R267). -/
def encodeDone (col granule : Nat) (y : Sys) : Sys :=
  let p := y.dev.prot
  let done := (p.encoded.filter fun g => g.1 == col).length
  match y.dev.sched.swap with
  | none => y
  | some w =>
    if p.encoding.find? (fun g => g.1 == col) = some (col, granule) ∧ w.accepted + 16384 * (done + 1) ≤ y.dev.beat.wbc then
      y.onProt fun p => { p with encoding := p.encoding.erase (col, granule), encoded := p.encoded ++ [(col, granule)] }
    else y

def execGranuleEncodeDone (col : Col) (granule : Nat) (s : State) : Host.Outcome State Fault Refusal :=
  onSys (encodeDone col granule) s

/- Scrubbers (R290 to R296). -/

/-- Patrol interval of a bank in beats: its layer's lap time on a column's site, the default lap elsewhere (R290, R291). -/
def patrolInterval (y : Sys) (site tile : Nat) : Nat :=
  let l := scrubCfg y (0x04 + 2 * tile) 2 0
  let dflt := scrubCfg y 0 2 1440
  let t := if l = 0 ∨ (colAt y.dev site).isNone then dflt else l
  t * 60 * 31250000 / 4096

/-- PATROL_ROW_DUE (R291, R293). -/
def patrolDue (site tile bank : Nat) (y : Sys) : Sys :=
  let id := bankId site tile bank
  let b := y.bank id
  if b.patrolDue.isNone && decide (b.patrolLast + patrolInterval y site tile ≤ y.dev.beat.wbc) && !y.dev.noc.fabricReset then
    y.onBank id fun b => { b with patrolDue := some y.dev.beat.wbc }
  else y

def execPatrolRowDue (site : Site) (tile : Layer) (bank : Fin 32) (s : State) : Host.Outcome State Fault Refusal :=
  onSys (patrolDue site tile bank) s

/-- A row of a site is skipped by the patrol: its granule is Open in the active set, also while it is being encoded (R290). -/
def patrolSkips (y : Sys) (site off : Nat) : Bool :=
  dramOpen y site off || (match colAt y.dev site with
    | some c => y.dev.prot.encoding.contains (c, granuleOf off)
    | none => false)

/-- PATROL_ROW_PRESENT: the due row is read through the codec when its bank's controller holds no other request; 1,024 beats after it
fell due it takes its place behind those that wait. It waits for whatever occupies the bank, occupies it for 80 cycles, and 16 more for
each block written back, and leaves its row open; `upset` strikes (block, byte) pairs of the row (R234, R244, R264, R265, R277, R290,
R292, R294). -/
def patrolPresent (site tile bank : Nat) (upset : List (Nat × Nat)) (cyc : Nat) (y : Sys) : Sys :=
  let id := bankId site tile bank
  let b := y.bank id
  let now := cycNow y.dev cyc
  match b.patrolDue with
  | none => y
  | some due =>
    let idle := b.waiting.isEmpty && !b.rowOps.any RowOp.waiting
    if y.dev.noc.fabricReset || (!idle && decide (y.dev.beat.wbc < due + 1024)) then y
    else
      let off := rowOff tile bank b.patrolRow
      let key := dramKey site off
      let y := if patrolSkips y site off then y
        else
          let y := settleBank y id
          let y := if (y.bank id).freeAt now = now then y else y.onProt fun p => { p with rlReqWaits := sat32 (p.rlReqWaits + 1) }
          let y := y.onBank id fun b => { b.occupy now 80 with openRow := some b.patrolRow }
          let y := y.each upset fun y u => strikeDram y (key + 64 * (u.1 % 128)) [u.2 % 72]
          y.each (List.range 128) fun y k => (checkDram y (key + 64 * k) 64 .scrubber).2
      y.onBank id fun b => { b with
        patrolDue := none, patrolLast := y.dev.beat.wbc
        patrolRow := (b.patrolRow + 1) % 4096
        patrolLaps := if b.patrolRow = 4095 then sat32 (b.patrolLaps + 1) else b.patrolLaps }

def execPatrolRowPresent (site : Site) (tile : Layer) (bank : Fin 32) (upset : List (Nat × Nat)) (cyc : Nat) (s : State) :
    Host.Outcome State Fault Refusal := onSys (patrolPresent site tile bank upset cyc) s

/-- Laps that every bank of a site has completed (R300). -/
def siteLaps (y : Sys) (site : Nat) : Nat :=
  let ls := (List.range 384).map fun k => (y.bank (site * 384 + k)).patrolLaps
  ls.foldl min (nth ls 0 0)

/-- The idle scrubber of a site is enabled (R295, R297). -/
def scrubOn (y : Sys) (site : Nat) : Bool :=
  match colAt y.dev site with
  | none => false
  | some c => bitAt (scrubCfg y 0x1E 2 (2 ^ y.dev.map.n - 1)) c && !(nth y.dev.prot.sites site {}).scrubPaused

/-- Lines that each bank's pointer has walked, of 64 banks. -/
def scrubWalked (p : SiteProt) : List Nat := (p.scrubPtrs ++ List.replicate 64 0).take 64

/-- Line n of a bank (R94, R295). -/
def scrubLine (bank n : Nat) : Nat := 64 * n + Nat.xor bank (n % 64)

/-- IDLE_SCRUB_READ: a bank without other reads reads its next scrub line, at most one a beat; `upset` strikes bits, 72 to
a word (R295, R296). -/
def idleScrub (site bank : Nat) (upset : List Nat) (y : Sys) : Sys :=
  let p := nth y.dev.prot.sites site {}
  let w := y.dev.beat.wbc
  let busy := (y.core site).reads.any fun r => lineBank r.2 == bank
  if !scrubOn y site || busy || nth p.scrubBeat bank 0 == w + 1 then y
  else
    let walked := scrubWalked p
    let n := nth walked bank 0
    let line := scrubLine bank (n % 6144)
    let y := strikeLine y site line upset
    let y := y.each (List.range 32) fun y k => (checkBuf y (bufKey site (line * 256 + 8 * k)) 8 .scrubber).2
    let walked2 := upd walked bank (· + 1)
    let laps := fun (l : List Nat) => (l.foldl min (nth l 0 0)) / 6144
    let y := y.onSiteProt site fun p => { p with
      scrubPtrs := walked2, scrubBeat := upd ((p.scrubBeat ++ List.replicate 64 0).take 64) bank fun _ => w + 1 }
    if laps walked < laps walked2 then
      y.onSiteProt site fun p => { p with scrubLap := sat32 (w - p.lapStart), scrubLaps := sat32 (p.scrubLaps + 1), lapStart := w, lapAlarmed := false }
    else y

def execIdleScrubRead (site : Site) (bank : Fin 64) (upset : List Nat) (s : State) : Host.Outcome State Fault Refusal :=
  onSys (idleScrub site bank upset) s

/-- BUFFER_LAP_ALARM (R296). -/
def lapAlarm (site : Nat) (y : Sys) : Sys :=
  let p := nth y.dev.prot.sites site {}
  let a := scrubCfg y 0x20 2 0
  let n := y.dev.beat.wbc - p.lapStart
  if a ≠ 0 ∧ a * 31250 < n ∧ p.lapAlarmed = false ∧ scrubOn y site = true then
    event (y.onSiteProt site fun p => { p with lapAlarmed := true }) 0x0502 (leBytes 1 site ++ leBytes 4 n)
  else y

def execBufferLapAlarm (site : Site) (s : State) : Host.Outcome State Fault Refusal := onSys (lapAlarm site) s

/- The vertical channel (R311, R312, R492). -/

/-- The address of a line of a site's buffer, 0 where the site carries no column. -/
def vcLineAddr (d : Dev) (site line : Nat) : Nat := ((colAt d site).map fun c => bufAddr c (line * 256)).getD 0

/-- VC_LINE_RETRANSFER: a line of a site's vertical channel with a CRC mismatch is transferred again and counted, and delays the step that
made it; a second mismatch is recorded, and is an uncorrectable outcome for its requester, whoever that is (R280, R312, R478, R495). -/
def vcRetransfer (site line tile : Nat) (second : Bool) (who : Requester) (y : Sys) : Sys :=
  let who := match who with
    | .step c i => .step c (stepKey (y.core (siteOf y.dev c)) i)
    | w => w
  if second then
    let a := vcLineAddr y.dev site line
    let y := faultRec y (whoInfo y who (faultSite y site { cls := 8, location := line, detail := tile, die := tile + 1, addr := a }))
    accessFailed y who a false
  else
    let y := y.onSiteNoc site fun n => { n with vcRetries := sat32 (n.vcRetries + 1) }
    match who with
    | .step c i => y.onCore (siteOf y.dev c) fun k => onStep k i fun s => { s with lengthen := s.lengthen + 8 }
    | _ => y

def execVcLineRetransfer (site : Site) (line tile : Nat) (second : Bool) (who : Requester) (s : State) : Host.Outcome State Fault Refusal :=
  onSys (vcRetransfer site line tile second who) s

end Sys2Proof.Machine
end

