-- ==== Sys2Proof/Machine/Walker.lean ====
section
/-! DEFINITION. The page walker: preparations, walk errors, the choice of pages, copy-on-write, free rings (R190 to R209, R219,
R221, R222, R224, R225, R281). -/

namespace Sys2Proof.Machine

/- A walk: reads through the checkers, with an error code of R204 or a bus error. -/

/-- The code that stands for a bus error of a walk (R280). -/
def busCode : Nat := 0x100

abbrev Walk (α : Type) := Sys → Except Nat α × Sys

def walkOk {α : Type} (a : α) : Walk α := fun y => (.ok a, y)

def walkThen {α β : Type} (m : Walk α) (f : α → Walk β) : Walk β := fun y =>
  match m y with
  | (.ok a, y) => f a y
  | (.error e, y) => (.error e, y)

/-- A check that ends the walk with a code. -/
def walkBad (code : Nat) (bad : Sys → Bool) : Walk Unit := fun y => if bad y then (.error code, y) else (.ok (), y)

/-- A read of a structure through its checker. -/
def walkRead (who : Requester) (a n : Nat) : Walk Unit := fun y =>
  let r := readDev y a n who
  match r.1 with
  | .ok _ => (.ok (), r.2)
  | .error _ => (.error busCode, r.2)

/-- What a walk finds in memory that it has read. -/
def walkGet {α : Type} (f : Sys → α) : Walk α := fun y => (.ok (f y), y)

def walkEach {α : Type} (l : List α) (f : α → Walk Unit) : Walk Unit := l.foldl (fun m a => walkThen m fun _ => f a) (walkOk ())

/-- A structure lies in active DRAM, in granules of the wanted region type (R197). -/
def regionOk (y : Sys) (wantOpen : Bool) (a len : Nat) : Bool :=
  len == 0 || (decide (a + len ≤ y.dev.map.n * colBytes) && (granulesOf a len).all fun g => isOpen y g.1 g.2 == wantOpen)

/-- The bank of a device address: column, tile and bank. -/
def bankKey (a : Nat) : Nat × Nat := (a / colBytes, bankAt (a % colBytes))

/-- Sketch list and scratch rows of a list are misplaced (R197, R204 code 0x05). -/
def sketchMisplaced (y : Sys) (p : Pw) (h : ListHdr) : Bool :=
  let s := (readPool y p h.homeCol).scratch y h.bank
  let rows := s.1 :: s.2 :: (List.range (ceilDiv h.cap 256)).map fun r => h.sk + 8192 * r
  !regionOk y true h.sk (32 * h.cap) || !regionOk y true s.1 8192 || !regionOk y true s.2 8192
    || rows.any fun a => a % 8192 != 0 || bankKey a != bankKey s.1

/-- Steps 1 to 3 of R204: sequence entry, layer-group entry, page-list header and what they name. -/
def walkHeader (p : Pw) (col seq layer head : Nat) (who : Requester) : Walk (SeqEntry × ListHdr) :=
  let sa := p.seqTable + 16 * seq
  walkThen (walkRead who p.base 64) fun _ =>
  walkThen (walkRead who (p.base + 0x40 + 128 * col) 128) fun _ =>
  walkThen (walkBad 1 fun _ => decide (p.seqCount ≤ seq)) fun _ =>
  walkThen (walkRead who sa 16) fun _ =>
  walkThen (walkGet fun y => readSeq y p seq) fun e =>
  walkThen (walkBad 1 fun _ => !e.valid || e.stride == 0 || decide (1024 < e.stride) || decide (e.stride ≤ e.phase)) fun _ =>
  walkThen (walkBad 5 fun y => !regionOk y false sa 16) fun _ =>
  walkThen (walkBad 2 fun _ => p.lpg == 0 || decide (p.groups * p.lpg ≤ layer) || decide (p.kvHeads ≤ head)) fun _ =>
  let ga := e.lg + 16 * (layer / p.lpg)
  walkThen (walkRead who ga 16) fun _ =>
  walkThen (walkGet fun y => hdrAddr y p e layer head) fun a =>
  walkThen (walkBad 2 fun _ => !a.2) fun _ =>
  walkThen (walkBad 5 fun y => !regionOk y false ga 16) fun _ =>
  walkThen (walkRead who a.1 16) fun _ =>
  walkThen (walkGet fun y => readHdr y a.1) fun h =>
  walkThen (walkBad 2 fun _ => !h.valid) fun _ =>
  walkThen (walkBad 3 fun _ => h.homeCol != col) fun _ =>
  walkThen (walkBad 5 fun y => !regionOk y false a.1 16 || !regionOk y false h.pl (16 * h.cap) || sketchMisplaced y p h) fun _ =>
  walkOk (e, h)

/-- A page-list entry with its ENTRY, POSITION and REFCOUNT checks, the lowest code first; `slot` is the one that an appended position
takes in it (R204). -/
def walkEntry (p : Pw) (e : SeqEntry) (h : ListHdr) (who : Requester) (slot : Option Nat) (n : Nat) : Walk PageEntry :=
  let a := h.pl + 16 * n
  walkThen (walkRead who a 16) fun _ =>
  walkThen (walkGet fun y => (readEntry y a, readPool y p h.homeCol)) fun x =>
  let pe := x.1
  let misplaced := fun (fill : Nat) => walkBad 6 fun _ => match slot with
    | some j => fill != j
    | none => false
  if !pe.valid then walkThen (misplaced 0) fun _ => walkOk pe
  else
    walkThen (walkBad 4 fun _ => pe.page != n * e.stride + e.phase || decide (x.2.frames ≤ pe.frame) || pe.col != h.homeCol
      || decide (256 < pe.fill) || (pe.pinned && decide (2 ≤ n)) || pe.rsv) fun _ =>
    walkThen (misplaced pe.fill) fun _ =>
    let r := (x.2.parts pe.frame).2.2 + 0x800
    walkThen (walkRead who r 64) fun _ =>
    walkThen (walkBad 9 fun y => devField y r 2 == 0) fun _ =>
    walkOk pe

/- Choosing the pages of an ATTEND (R206, R207, R209). -/

/-- The local entries of the window: pages that the device holds, below the limits (R196, R206). -/
def windowEntries (e : SeqEntry) (lim q w : Nat) : List Nat :=
  if q = 0 then []
  else
    let last := (q - 1) / 256
    let first := last + 1 - w
    (List.range lim).filter fun n =>
      let i := n * e.stride + e.phase
      decide (first ≤ i) && decide (i ≤ last)

/-- Sketch pages in rank order: eligible entries of a selection until k are taken (R209). -/
def sketchPick (y : Sys) (e : SeqEntry) (h : ListHdr) (lim q : Nat) (window : List Nat) : Nat → List Nat → List Nat × List Nat
  | _, [] => ([], [])
  | 0, _ => ([], [])
  | k + 1, n :: rest =>
    let i := n * e.stride + e.phase
    if window.contains n || q == 0 || decide ((q - 1) / 256 < i) || decide (lim ≤ n) then sketchPick y e h lim q window (k + 1) rest
    else
      let pe := readEntry y (h.pl + 16 * n)
      if !pe.valid || pe.fill == 0 then
        let r := sketchPick y e h lim q window (k + 1) rest
        (r.1, n :: r.2)
      else
        let r := sketchPick y e h lim q window k rest
        (n :: r.1, n :: r.2)

/-- The descriptor of a page (R205). -/
def pageDesc (y : Sys) (p : Pw) (h : ListHdr) (source n : Nat) : PageDesc :=
  let pe := readEntry y (h.pl + 16 * n)
  let parts := (readPool y p h.homeCol).parts pe.frame
  ⟨0x20, source, pe.fill, pe.page, parts.1, parts.2.1, parts.2.2, devField y (h.pl + 16 * n) 4⟩

/-- An idle slot of an ATTEND (R205). -/
def idleDesc : PageDesc := ⟨0x22, 0, 0, 0, 0, 0, 0, 0⟩

/-- A preparation's result: V_CODE, descriptors, positions, dropped pages. -/
structure Prepared where
  vCode : Nat := 0
  descs : List PageDesc := []
  plan : List AppendPos := []
  dropped : Nat := 0

/-- The fields of an ATTEND that its preparation reads (R163, R211). -/
def atSeq (d : Desc) : Nat := fld d 0x24 4
def atQuery (d : Desc) : Nat := fld d 0x38 4

/-- Preparation of an ATTEND (R204 to R209). -/
def prepareAttend (y0 : Sys) (p : Pw) (col site : Nat) (d : Desc) (who : Requester) : Walk Prepared :=
  let pat := atPattern d
  let q := atQuery d
  let sel := assoc (y0.core site).select (walkIndex d)
  walkThen (walkHeader p col (atSeq d) (fld d 0x28 1) (fld d 0x29 1) who) fun eh =>
  let e := eh.1
  let h := eh.2
  walkThen (walkBad 8 fun _ => bitAt pat 2 && sel.isNone) fun _ =>
  walkThen (walkGet fun y =>
    let lim := min (walkMax y p (walkIndex d)) h.cap
    let w := if fld d 0x2C 2 = 0 then cfg y 8 8 2 1 else fld d 0x2C 2
    let k := if fld d 0x2E 2 = 0 then cfg y 8 0xA 2 0 else fld d 0x2E 2
    let near := windowEntries e lim q w
    let win := if bitAt pat 0 then near else []
    let glo := if bitAt pat 1 then (List.range (min 2 lim)) else []
    let pick := if bitAt pat 2 then sketchPick y e h lim q near k ((sel.getD []).map Prod.fst) else ([], [])
    (lim, win, glo, pick.1, pick.2)) fun c =>
  let lim := c.1
  let win := c.2.1
  let glo := c.2.2.1
  let reads := (List.range lim).filter fun n => win.contains n || glo.contains n || c.2.2.2.2.contains n
  walkThen (walkEach reads fun n => walkThen (walkEntry p e h who none n) fun _ => walkOk ()) fun _ =>
  walkThen (walkGet fun y =>
    let valid := fun n => (readEntry y (h.pl + 16 * n)).valid
    let win := win.filter valid
    let glo := glo.filter fun n => valid n && (readEntry y (h.pl + 16 * n)).pinned
    (win, glo)) fun wg =>
  let win := wg.1
  let glo := wg.2
  let fixed := (List.range lim).filter fun n => win.contains n || glo.contains n
  let fresh := b2n (bitAt pat 3)
  let mx := atMaxPages d
  walkThen (walkBad 10 fun _ => decide (mx < fixed.length + fresh)) fun _ =>
  let only := c.2.2.2.1.filter fun n => !fixed.contains n
  let room := mx - fixed.length - fresh
  let kept := only.take room
  walkGet fun y =>
    let pages := (List.range lim).filter fun n => fixed.contains n || kept.contains n
    let src := fun n => b2n (win.contains n) + 2 * b2n (glo.contains n) + 4 * b2n (c.2.2.2.1.contains n)
    let ds := pages.map fun n => pageDesc y p h (src n) n
    let fr := if fresh = 1 then [{ idleDesc with kind := 0x21, fill := 1, page := q / 256 }] else []
    let all := ds ++ fr
    { vCode := h.vCode, descs := all ++ List.replicate (mx - all.length) idleDesc, dropped := only.length - kept.length }

/-- Preparation of a SKETCH: its list's structures (R204). -/
def prepareSketch (p : Pw) (col : Nat) (d : Desc) (who : Requester) : Walk Prepared :=
  walkThen (walkHeader p col (fld d 0x20 4) (fld d 0x24 1) (fld d 0x25 1) who) fun eh => walkOk { vCode := eh.2.vCode }

/- Free rings (R224). -/

def ringHead (y : Sys) (q : Pool) : Nat := devField y q.ring 4
def ringTail (y : Sys) (q : Pool) : Nat := devField y (q.ring + 4) 4

/-- Free count of a pool (R224). -/
def freeCount (y : Sys) (q : Pool) : Nat := (ringTail y q + 2 * q.freeSize - ringHead y q) % (2 * q.freeSize)

/-- A write of the control complex into the page store: performed at once; a host copy of the line is called back (R362). -/
def ccWrite (y : Sys) (a : Nat) (data : List Byte) : Sys :=
  let w := writeDev y a data (fullMask data) .control none
  let y := if w.1 then ccFailed w.2 a else w.2
  y.each (snoopLines y a data.length true) fun y l =>
    if y.dev.host.txns.any fun t => t.line == l then y else homeArrive y l .evict

/-- PW_FREE of a column follows its ring; the event of FREE_LOW once for each crossing (R224, R225). -/
def updateFree (y : Sys) (q : Pool) (col : Nat) : Sys :=
  let n := freeCount y q
  let low := decide (n < cfg y 8 0x10 4 0)
  let was := nth y.dev.walker.low col false
  let y := y.onWalker fun w => { w with free := upd w.free col fun _ => n, low := upd w.low col fun _ => low }
  if low && !was then event y 0x0401 (leBytes 1 col ++ leBytes 4 n) else y

/-- PW_FREE of the columns whose pools an image names (R225). -/
def noticePools (y : Sys) (i : Image) : Sys :=
  match i.pw with
  | none => y
  | some b => y.each (List.range 16) fun y c =>
    let q := readPool y (readPw y b) c
    if q.frames = 0 then y else updateFree y q c

/-- Takes the frame at HEAD (R224). -/
def takeFrame (y : Sys) (q : Pool) : Nat × Sys :=
  let h := ringHead y q
  (devField y (q.ring + 64 + 4 * (h % q.freeSize)) 4, ccWrite y q.ring (leBytes 4 ((h + 1) % (2 * q.freeSize))))

/-- Appends a frame at TAIL (R224). -/
def giveFrame (y : Sys) (q : Pool) (f : Nat) : Sys :=
  let t := ringTail y q
  ccWrite (ccWrite y (q.ring + 64 + 4 * (t % q.freeSize)) (leBytes 4 f)) (q.ring + 4) (leBytes 4 ((t + 1) % (2 * q.freeSize)))

/- Appends (R219 to R222). -/

/-- A head of an APPEND with its list, and an entry that the step writes. -/
structure AppendEntry where
  head : Nat
  layer : Nat
  kvHead : Nat
  n : Nat
  addr : Nat
  page : Nat
  vCode : Nat
  deriving DecidableEq, Repr

def apSeq (d : Desc) : Nat := fld d 0x20 4
def apFirst (d : Desc) : Nat := fld d 0x28 4

/-- The held pages that a run of positions touches, with the first slot written in each (R196, R220). -/
def heldPages (e : SeqEntry) (first count : Nat) : List (Nat × Nat) :=
  if count = 0 then []
  else
    ((List.range ((first + count - 1) / 256 - first / 256 + 1)).map fun k => first / 256 + k).filterMap fun i =>
      if i % e.stride = e.phase then some (i, if i = first / 256 then first % 256 else 0) else none

/-- The first-use fields of a frame record with REFCOUNT 1 and IN_USE 1 (R192, R221). -/
def frameRecord (frame col seq layer head page : Nat) : List Byte :=
  leBytes 2 1 ++ leBytes 2 1 ++ leBytes 4 (frame + col * 2 ^ 24) ++ leBytes 4 seq ++ leBytes 1 layer ++ leBytes 1 head
    ++ leBytes 2 0 ++ leBytes 4 page

/-- Gives an entry a new frame (R221). -/
def newPage (y : Sys) (q : Pool) (col seq f : Nat) (a : AppendEntry) : Sys :=
  let sm := (q.parts f).2.2
  let y := ccWrite y (sm + 0x800) (frameRecord f col seq a.layer a.kvHead a.page)
  let y := ccWrite y (sm + 0x840) (List.replicate 512 0)
  let y := ccWrite y (sm + 0x400) (List.replicate 1024 (BitVec.ofNat 8 a.vCode))
  ccWrite y a.addr (leBytes 4 (f + col * 2 ^ 24 + 2 ^ 31) ++ leBytes 2 0 ++ leBytes 2 0 ++ leBytes 4 a.page ++ leBytes 4 0)

/-- Copies a stretch of codewords as they are, errors too (R281). -/
def copyCodewords (y : Sys) (src dst len : Nat) : Sys :=
  match addrKey y.dev src, addrKey y.dev dst with
  | some a, some b =>
    let y := y.put b (y.getN a len)
    y.onProt fun p =>
      let keep := p.dramErr.filter fun e => !(decide (b ≤ e.1) && decide (e.1 < b + len))
      let moved := p.dramErr.filter fun e => decide (a ≤ e.1) && decide (e.1 < a + len)
      { p with dramErr := moved.foldl (fun l e => errSet (b + (e.1 - a)) e.2 l) keep }
  | _, _ => y

/-- A row copy of the site's preparation waits for its tokens (R202, R222, R271). -/
def copiesWait (y : Sys) (site : Nat) : Bool :=
  y.dev.prot.banks.any fun b => b.1 / 384 == site && b.2.rowOps.any fun o => o.phase == 2 && o.who == .control

/-- Copies one row of a frame: in its bank when source and destination share it, else by DMA; both are counted (R222, R225). -/
def copyRow (y : Sys) (col src dst : Nat) : Sys :=
  let y := copyCodewords y src dst 8192
  if bankKey src = bankKey dst then
    let tile := tileOf (dst % colBytes)
    let y := takeTokens y (siteOf y.dev col) tile (bankOf (dst % colBytes)) 7 2 .control (cycNow y.dev 0)
    y.onWalker fun w => { w with rowsBank := sat16 (w.rowsBank + 1) }
  else y.onWalker fun w => { w with rowsDma := sat16 (w.rowsDma + 1) }

/-- Copy-on-write of an entry's frame (R222). -/
def copyPage (y : Sys) (q : Pool) (col seq old new : Nat) (a : AppendEntry) : Sys :=
  let s := q.parts old
  let t := q.parts new
  let y := y.each (List.range 4) fun y r => copyRow y col (s.1 + 8192 * r) (t.1 + 8192 * r)
  let y := y.each (List.range 4) fun y r => copyRow y col (s.2.1 + 8192 * r) (t.2.1 + 8192 * r)
  let y := copyCodewords y s.2.2 t.2.2 0x1800
  let y := ccWrite y (t.2.2 + 0x800) (frameRecord new col seq a.layer a.kvHead a.page)
  let y := ccWrite y a.addr (leBytes 3 new)
  ccWrite y (s.2.2 + 0x800) (leBytes 2 (devField y (s.2.2 + 0x800) 2 - 1))

/-- REFCOUNT of a frame. -/
def refCount (y : Sys) (q : Pool) (f : Nat) : Nat := devField y ((q.parts f).2.2 + 0x800) 2

/-- Frames that the entries of an APPEND need (R222). -/
def framesNeeded (y : Sys) (q : Pool) (es : List AppendEntry) : Nat :=
  let now := es.map fun a => readEntry y a.addr
  let valid := now.filter PageEntry.valid
  let names := fun f => (valid.filter fun e => e.frame == f).length
  let frames := valid.foldl (fun l e => addTo l e.frame) []
  (now.length - valid.length) + (frames.map fun f => min (names f) (refCount y q f - 1)).sum

/-- Gives every entry that the step writes a frame of its own (R221, R222). -/
def ownFrames (y : Sys) (q : Pool) (col seq : Nat) (es : List AppendEntry) : Sys :=
  y.each es fun y a =>
    let e := readEntry y a.addr
    if !e.valid then
      let t := takeFrame y q
      newPage t.2 q col seq (bits t.1 0 24) a
    else if refCount y q e.frame = 1 then y
    else
      let t := takeFrame y q
      copyPage t.2 q col seq e.frame (bits t.1 0 24) a

/-- Preparation of an APPEND: every head's structures, then its entries, then the frames (R204, R219 to R222). -/
def prepareAppend (p : Pw) (col : Nat) (d : Desc) (who : Requester) : Walk Prepared :=
  let layer := fld d 0x24 1
  let heads := List.range (apHeads d)
  let first := apFirst d
  let count := apCount d
  let hdr := fun a => walkHeader p col (apSeq d) layer (fld d 0x25 1 + a) who
  walkThen (walkEach heads fun a => walkThen (hdr a) fun _ => walkOk ()) fun _ =>
  walkThen (heads.foldl (fun (m : Walk (List AppendEntry)) a => walkThen m fun es => walkThen (hdr a) fun eh =>
    let e := eh.1
    let h := eh.2
    (heldPages e first count).foldl (fun (m : Walk (List AppendEntry)) ij => walkThen m fun es =>
      let n := (ij.1 - e.phase) / e.stride
      walkThen (walkBad 6 fun y => decide (min (walkMax y p (walkIndex d)) h.cap ≤ n)) fun _ =>
      walkThen (walkEntry p e h who (some ij.2) n) fun _ =>
      walkOk (es ++ [⟨a, layer, fld d 0x25 1 + a, n, h.pl + 16 * n, ij.1, h.vCode⟩])) (walkOk es)) (walkOk [])) fun es =>
  walkThen (walkGet fun y => readPool y p col) fun q =>
  walkThen (walkRead who q.ring 64) fun _ =>
  walkThen (walkBad 5 fun y => !regionOk y false q.ring (64 + 4 * q.freeSize)) fun _ =>
  walkThen (walkGet fun y => (framesNeeded y q es, ringHead y q)) fun x =>
  walkThen (walkBad 7 fun y => decide (freeCount y q < x.1)) fun _ =>
  walkThen (walkEach (List.range x.1) fun k => walkRead who (q.ring + 64 + 4 * ((x.2 + k) % q.freeSize)) 4) fun _ => fun y =>
    let y := updateFree (ownFrames y q col (apSeq d) es) q col
    let plan := heads.flatMap fun a => (List.range count).filterMap fun k =>
      let pos := first + k
      match es.find? fun x => x.head == a && x.page == pos / 256 with
      | none => none
      | some x =>
        let e := readEntry y x.addr
        let h := readHdr y (hdrAddr y p (readSeq y p (apSeq d)) layer x.kvHead).1
        some ⟨a, k, pos % 256, x.addr, e.frame, h.sk + 32 * x.n⟩
    (.ok { plan := plan }, y)

/- The preparation commands (R201 to R205). -/

/-- The step that a column's next preparation is for: a step that waits for it, or the next of its kinds in the list or, with
REPEAT, in the next run: index, run, descriptor (R201). -/
def prepTarget (y : Sys) (col : Nat) : Option (Nat × Nat × Desc) :=
  match columnRun y col with
  | none => none
  | some (_, i, r) =>
    let site := siteOf y.dev col
    let c := y.core site
    match c.steps.find? fun s => s.waitPrep && !s.done with
    | some s => some (s.index, s.run, s.desc)
    | none => match i.secAt 1 col with
      | none => none
      | some (a, len) =>
        let isP := fun k => [2, 11, 14].contains (devField y (a + 64 * k) 1)
        let desc := fun k => devBytes y (a + 64 * k) 64
        match (List.range (len / 64)).find? fun k => decide (c.nextIndex ≤ k) && isP k with
        | some k => some (k, r.run, desc k)
        | none =>
          if i.rep then ((List.range (len / 64)).find? isP).map fun k => (k, r.run + 1, desc k) else none

/-- SEQ_ID that a prepared step names (R163). -/
def stepSeq (d : Desc) : Nat := if opOf d = 2 then atSeq d else fld d 0x20 4

/-- The walk of a step by its kind. -/
def prepareStep (y : Sys) (p : Pw) (col site idx : Nat) (d : Desc) : Walk Prepared :=
  match opOf d with
  | 2 => prepareAttend y p col site d (.step col idx)
  | 11 => prepareSketch p col d (.step col idx)
  | _ => prepareAppend p col d (.step col idx)

/-- PREPARATION_BEGIN: at the beat boundary after its trigger the walker resolves the page table as it stands (R201, R203). -/
def preparationBegin (col : Nat) (y : Sys) : Sys :=
  let site := siteOf y.dev col
  let c := y.core site
  match c.prepTrigger, columnRun y col, prepTarget y col with
  | some b, some (q, i, _), some (idx, run, d) =>
    if c.prep.isSome || y.dev.beat.wbc < b || !partLive y.dev q then y
    else match i.pw with
      | none => y
      | some base =>
        let r := prepareStep y (readPw y base) col site idx d y
        let res := match r.1 with
          | .ok w => w
          | .error _ => {}
        let code := match r.1 with
          | .ok _ => 0
          | .error e => e
        let y := r.2.onWalker fun w => { w with descCount := sat32 (w.descCount + res.descs.length), dropped := sat32 (w.dropped + res.dropped) }
        y.onCore site fun c => { c with
          prepTrigger := none, descOut := c.descOut ++ res.descs
          prep := some ⟨idx, run, opOf d, stepSeq d, false, if code = busCode then 0 else code, code == busCode,
                        res.vCode, res.descs, res.plan⟩ }
  | _, _, _ => y

def execPreparationBegin (col : Col) (s : State) : Host.Outcome State Fault Refusal := onSys (preparationBegin col) s

/-- A message of class FENCE or PAGE with a parity error: every partition stops and an open hold is requested (R317, R492). -/
def orderLost (y : Sys) (site detail stop : Nat) : Sys :=
  let y := faultRecCc (shuttleError y stop) (faultSite y site { cls := 0x0A, location := stop, detail := detail, count := 1, flags := 5 })
  requestHold (faultStopAll y) 4 0

/-- PAGE_DESCRIPTOR: the next descriptor reaches the core's feeder; a parity error of class PAGE stops every partition (R205,
R492). -/
def pageDescriptor (col : Nat) (parityError : Option Site) (y : Sys) : Sys :=
  let site := siteOf y.dev col
  match (y.core site).descOut with
  | [] => y
  | p :: rest =>
    let y := y.onCore site fun c => { c with descOut := rest }
    withParity y 24 site parityError (orderLost y site 2) (y.onCore site fun c => { c with descs := c.descs ++ [p] })

def execPageDescriptor (col : Col) (parityError : Option Site) (s : State) : Host.Outcome State Fault Refusal :=
  onSys (pageDescriptor col parityError) s

end Sys2Proof.Machine
end

