-- ==== Sys2Proof/Machine/Kv.lean ====
section
/-! DEFINITION. ATTEND, SKETCH and APPEND steps, the end of a preparation, and the reissue and end of a replay (R193, R194,
R201 to R204, R208 to R223, R487 to R490). -/

namespace Sys2Proof.Machine

/- ATTEND (R211 to R217). -/

/-- A +0 element with a block code. -/
def zeroElem (code : Nat) : Scaled := (.fin false 0 0, code)

/-- Masked slots of a page: slot j is used when j < FILL and its position is before q; a fresh page uses slot 0 (R212). -/
def slotUsed (p : PageDesc) (q j : Nat) : Bool :=
  if p.kind = 0x21 then j == 0 else decide (j < p.fill) && decide (256 * p.page + j < q)

/-- The 67,584 bytes of a half: K part, V part, and the K and V scales; for a fresh page its key and values in slot 0, the V
code in every V scale, zeros elsewhere (R211, R212). -/
def pageData (y : Sys) (x : StepCtx) (vCode : Nat) (p : PageDesc) : Option (List Byte) × Sys :=
  if p.kind = 0x21 then
    let r := readAll y x [(bufAddr x.col (fld x.d 0x18 4 + 0x2100), 132), (bufAddr x.col (fld x.d 0x18 4 + 0x2200), 128)]
    match r.1 with
    | none => r
    | some b =>
      (some (padTo 0x8000 (b.take 128) ++ ((b.drop 132).flatMap fun v => v :: List.replicate 255 0)
        ++ padTo 1024 (slice b 128 4) ++ List.replicate 1024 (BitVec.ofNat 8 vCode)), r.2)
  else readAll y x [(p.kPart, 0x8000), (p.vPart, 0x8000), (p.smPart, 0x800)]

/-- Row h of the query block with its scales; rows at and above Q_HEADS are +0 (R211, R212). -/
def queryRows (d : Desc) (qb : List Byte) : List (List Scaled) :=
  (List.range 64).map fun h =>
    if h < atQHeads d then
      (List.zip (List.range 128) (decodeElems 4 (slice qb (128 * h) 128))).map fun e =>
        (e.2, (nth qb (0x2000 + 4 * h + e.1 / 32) 0).toNat)
    else List.replicate 128 (zeroElem 127)

/-- Key slots 64 t to 64 t + 63 of a half over the head dimensions; masked slots are +0 (R192, R212). -/
def keyCols (p : PageDesc) (q : Nat) (half : List Byte) (t : Nat) : List (List Scaled) :=
  (List.range 64).map fun c =>
    let j := 64 * t + c
    if slotUsed p q j then
      (List.zip (List.range 128) (decodeElems 4 (slice half (128 * j) 128))).map fun e =>
        (e.2, (nth half (0x10000 + 4 * j + e.1 / 32) 0).toNat)
    else List.replicate 128 (zeroElem 127)

/-- Value rows 64 u to 64 u + 63 of a half over the slots; masked slots are +0 with V_CODE (R192, R212). -/
def valueCols (p : PageDesc) (q vCode : Nat) (half : List Byte) (u : Nat) : List (List Scaled) :=
  (List.range 64).map fun c =>
    let dim := 64 * u + c
    (List.zip (List.range 256) (decodeElems 4 (slice half (0x8000 + 256 * dim) 256))).map fun e =>
      if slotUsed p q e.1 then (e.2, (nth half (0x10400 + 8 * dim + e.1 / 32) 0).toNat) else zeroElem vCode

/-- What the softmax of one head gives for a page: its new maximum, its factor, its probabilities, and flags of the vector and
the converter set; none where the head skips the page (R213). -/
structure HeadPage where
  mn : F32
  c : F32
  elems : List Scaled
  sum : F32
  vec : Nat
  cvt : Nat

/-- The first half of the loop of R213 for one head. -/
def headScores (ieee : Bool) (scale m : F32) (used : Nat → Bool) (s : List F32) : Option HeadPage × Nat :=
  let xs := (List.zip (List.range 256) s).map fun e =>
    if used e.1 then laneMulFn ieee e.2 scale else (inf32 true, 0)
  let fx := xs.foldl (fun f e => Nat.lor f e.2) 0
  let mp := laneRmaxFn (xs.map Prod.fst)
  let mn := (laneMaxFn ieee m mp).1
  if f32 mn = .inf true then (none, fx)
  else
    let ex := fun v => let a := laneSubFn ieee v mn; let b := laneExp2Fn ieee a.1; (b.1, Nat.lor a.2 b.2)
    let c := ex m
    let ps := xs.map fun e => ex e.1
    let conv : Conv := ⟨4, ieee, false, 0, 0, 0⟩
    let gs := (chunks 32 (ps.map Prod.fst)).map fun b => convertGroup conv (b.map fun v => (0, v))
    let elems := gs.flatMap fun g => g.2.1.map fun e => ((fmtOf 4).decode e, g.1)
    let pd := elems.map fun e => (widen e ieee).1
    let sum := groupSum pd ieee
    (some ⟨mn, c.1, elems, sum.1, Nat.lor (Nat.lor c.2 sum.2) (ps.foldl (fun f e => Nat.lor f e.2) 0),
           gs.foldl (fun f g => Nat.lor f g.2.2) 0⟩, fx)

/-- A drained pass of an ATTEND waits for its comparison (R115, R118, R212). -/
def attendTile (i t : Nat) (a : Accs) : Tile := ⟨i, 0, 0, t, a.c, a.k, a.l, a.g, a.range⟩

/-- The results of pass t of a window after strikes, given as (pass, row, column, bits). -/
def strikePass (us : List (Nat × Nat × Nat × W32)) (t : Nat) (a : Accs) : Accs :=
  { a with c := us.foldl (fun c u => if u.1 = t ∧ u.2.1 < 64 ∧ u.2.2.1 < 64 then upd c (64 * u.2.1 + u.2.2.1) (· ^^^ u.2.2.2) else c) a.c }

/-- The matrix flags of the six passes of a window, by array cycle (R104, R146, R212). -/
def windowFlags (m k : Nat) (ps : List (Accs × List Nat)) : List (Nat × Nat) :=
  (List.zip (List.range 6) ps).flatMap fun t =>
    ((List.zip (List.range t.2.2.length) t.2.2).filter fun f => f.2 != 0).map fun f => (140 + 384 * k + 64 * t.1 + f.1 + 17 + m, f.2)

/-- The window of a descriptor that is a page: staging, four score passes, the softmax sequence, two value passes, each pass struck
where physics struck it (R212, R213). -/
def attendPage (y : Sys) (x : StepCtx) (a : AttendState) (vCode : Nat) (us : List (Nat × Nat × Nat × W32)) (p : PageDesc) : Sys :=
  let d := x.d
  let q := atQuery d
  let ieee := ieeeMode d
  let i := x.index
  let data := pageData y x vCode p
  match data.1 with
  | none => data.2
  | some half =>
    let y := stepWrite data.2 x false 0 (bufAddr x.col (stageAt d a.next)) half
    let qb := readAll y x [(bufAddr x.col (fld d 0x18 4), 0x2100)]
    match qb.1 with
    | none => qb.2
    | some qb0 =>
      let y := qb.2
      let qr := queryRows d qb0
      let pass := fun (t : Nat) (r : Accs × List Nat) => (strikePass us t r.1, r.2)
      let scores := (List.range 4).map fun t => pass t (runPass ieee 64 Accs.zero qr (keyCols p q half t))
      let s := fun h => scores.flatMap fun r => (r.1.c.drop (64 * h)).take 64
      let heads := (List.range (atQHeads d)).map fun h =>
        headScores ieee (BitVec.ofNat 32 (fld d 0x34 4)) (nth a.m h 0) (slotUsed p q) (s h)
      let rows := (List.range 64).map fun h => match (nth heads h (none, 0)).1 with
        | some k => k.elems
        | none => List.replicate 256 (zeroElem 127)
      let vals := (List.range 2).map fun u => pass (4 + u) (runPass ieee 64 Accs.zero rows (valueCols p q vCode half u))
      let upd1 := (List.zip (List.range (atQHeads d)) heads).map fun hk =>
        let h := hk.1
        match hk.2.1 with
        | none => (nth a.m h 0, nth a.l h 0, nth a.o h [], hk.2.2, 0)
        | some k =>
          let l := laneFmaFn ieee (nth a.l h 0) k.c k.sum
          let v := vals.flatMap fun r => (r.1.c.drop (64 * h)).take 64
          let os := List.zipWith (fun o w => laneFmaFn ieee o k.c w) (nth a.o h []) v
          (k.mn, l.1, os.map Prod.fst,
           os.foldl (fun f o => Nat.lor f o.2) (Nat.lor (Nat.lor hk.2.2 k.vec) l.2), k.cvt)
      let y := raiseFlags y x.site i .vec (upd1.foldl (fun f u => Nat.lor f u.2.2.2.1) 0)
      let y := raiseFlags y x.site i .cvt (upd1.foldl (fun f u => Nat.lor f u.2.2.2.2) 0)
      y.onCore x.site fun c =>
        { onStep c i (fun s => { s with checksDue := s.checksDue + 6, flagsDue := s.flagsDue ++ windowFlags c.spareStage a.next (scores ++ vals) }) with
          drained := c.drained ++ (List.zip (List.range 6) (scores ++ vals)).map fun r => attendTile i (6 * a.next + r.1) r.2.1
          attend := some { a with m := upd1.map Prod.fst, l := upd1.map fun u => u.2.1, o := upd1.map fun u => u.2.2.1 } }

/-- o / l, exact, rounded once; +0 where l is +0 (R214). -/
def attendQuot (ieee : Bool) (o l : F32) : F32 × Nat :=
  if l = 0 then (0, 0)
  else match f32 o, f32 l with
    | .nan, _ => (nan32, 0)
    | _, .nan => (nan32, 0)
    | .inf _, .inf _ => (Config.attendQuotient o l, 0)
    | .inf s, .fin t _ _ => (inf32 (s != t), 0)
    | .fin s _ _, .inf t => (zero32 (s != t), 0)
    | .fin s m e, .fin t n g =>
      if n = 0 then (Config.attendQuotient o l, 0)
      else if m = 0 then (zero32 (s != t), 0)
      else
        let k := m * 2 ^ 80
        round32 (s != t) (2 * (k / n) + (if k % n = 0 then 0 else 1)) (e - g - 81) ieee

/-- The output of an ATTEND: partial records, the converted output, or the rows of its epilogue, which reach the vector unit one a
cycle from the start of the lane program on (R214, R215, R217). -/
def attendOutput (y : Sys) (x : StepCtx) (a : AttendState) : Sys :=
  let d := x.d
  let out := fld d 0x1C 4
  let hs := List.range (atQHeads d)
  if atFinal d then
    let rs := hs.map fun h => (nth a.o h []).map fun o => attendQuot (ieeeMode d) o (nth a.l h 0)
    let vs := rs.map fun r => r.map Prod.fst
    if atEpilogue d then
      let start := match liveStep (y.core x.site) x.index with
        | some s => s.issueAt + laneStart d (y.core x.site).spareStage + s.lengthen
        | none => cycNow y.dev x.cyc
      let y := startLane y x start
      let rows := vs.flatMap fun v => [v.take 64, v.drop 64]
      y.onCore x.site fun c => { c with rows := (List.zip (List.range rows.length) rows).map fun r => (start + r.1, r.2) }
    else writeFlat y x out vs.flatten
  else
    let bytes := hs.flatMap fun h =>
      ((nth a.m h 0) :: (nth a.l h 0) :: List.replicate 14 0 ++ nth a.o h []).flatMap fun v => leBytes 4 v.toNat
    stepWrite y x false 0 (bufAddr x.col out) bytes

/-- ATTEND begins: running values of R213; a step without descriptors writes its output at once. -/
def runAttend (y : Sys) (x : StepCtx) : Sys :=
  let n := atQHeads x.d
  let y := y.onCore x.site fun c => { c with
    attend := some ⟨x.index, 0, List.replicate n (inf32 true), List.replicate n 0, List.replicate n (List.replicate 128 0)⟩ }
  if atMaxPages x.d = 0 then
    match (y.core x.site).attend with
    | some a => attendOutput y x a
    | none => y
  else y

/-- The first cycle of the window of descriptor k (R217). -/
def windowStart (s : StepRun) (k : Nat) : Nat := s.issueAt + 140 + 384 * k + s.lengthen

/-- ATTEND_PAGE_WINDOW: the window of the next descriptor of the ATTEND in flight; the last one is followed by the output
(R212 to R217). -/
def attendWindow (col : Nat) (us : List (Nat × Nat × Nat × W32)) (cyc : Nat) (y : Sys) : Sys :=
  let site := siteOf y.dev col
  let y := advanceCore cyc y site
  let c := y.core site
  let now := cycNow y.dev cyc
  match c.attend with
  | none => y
  | some a =>
    match liveStep c a.step, liveCtx y site a.step cyc with
    | some s, some x =>
      let k := a.next
      if atMaxPages x.d ≤ k || c.descs.length ≤ k || s.pages.length ≤ k || decide (now < windowStart s k) || waitsForLine c.skew s now then y
      else
        let p := nth s.pages k idleDesc
        let y := if p.kind = 0x22 then y else attendPage y x a s.vCode us p
        if !inFlight y site a.step then y
        else
          let y := y.onCore site fun c => { onStep c a.step (fun s => if p.kind = 0x22 then s else { s with count := s.count + 1 }) with
            attend := c.attend.map fun a => { a with next := k + 1 } }
          if k + 1 = atMaxPages x.d then
            match (y.core site).attend with
            | some a => attendOutput y x a
            | none => y
          else y
    | _, _ => y

def execAttendPageWindow (col : Col) (upset : List (Nat × Nat × Nat × W32)) (cyc : Nat) (s : State) : Host.Outcome State Fault Refusal :=
  onSys (attendWindow col upset cyc) s

/- SKETCH (R193, R208). -/

/-- The sign sketch of 256 bfloat16 values (R193). -/
def signSketch (bs : List Byte) : List Byte :=
  (List.range 32).map fun k => BitVec.ofNat 8 (maskOf ((List.range 8).filter fun b => !bitAt (fld bs (2 * (8 * k + b)) 2) 15))

/-- Bits set in bytes. -/
def popcount (bs : List Byte) : Nat := (bs.map fun b => (bitList 8 b.toNat).length).sum

/-- Candidates by score, highest first, ties by the lower entry (R208). -/
def rankByScore (l : List (Nat × Nat)) : List (Nat × Nat) :=
  (List.range 257).reverse.flatMap fun s => l.filter fun e => e.2 == s

/-- Cycles by which a step in flight has been lengthened. -/
def stepDelay (y : Sys) (x : StepCtx) : Nat := ((liveStep (y.core x.site) x.index).map StepRun.lengthen).getD 0

/-- Scores every entry of a list against a sketch, row by row through the bank: one XNOR in each 160 cycles from a cycle on (R208; DEDUCED
from R210, DEDUCED, log 31). -/
def scoreRows (y : Sys) (x : StepCtx) (qrow xrow : Nat) (h : ListHdr) (lim t : Nat) (sk : List Byte) : List (Nat × Nat) × Sys :=
  let site := x.site
  let row8k := (List.replicate 256 sk).flatten
  let y := writeRow y site (qrow % colBytes) row8k
  (List.range (ceilDiv lim 256)).foldl (fun r k =>
    let y := takeTokens r.2 site (tileOf (xrow % colBytes)) (bankOf (xrow % colBytes)) 4 8 x.who (t + 160 * k + stepDelay r.2 x)
    let src := rowBytes y site ((h.sk + 8192 * k) % colBytes)
    let res := List.zipWith (fun a b => rowResult 4 0 a b 0) row8k src
    let y := writeRow y site (xrow % colBytes) res
    (r.1 ++ (List.range (min 256 (lim - 256 * k))).map fun e => (256 * k + e, popcount (slice res (32 * e) 32)), y)) ([], y)

/-- One query of a SKETCH: scores, candidates, ranking, selection slot, output (R208). -/
def sketchQuery (y : Sys) (x : StepCtx) (p : Pw) (h : ListHdr) (lim r : Nat) : Sys :=
  let d := x.d
  stepReads y x (bufAddr x.col (fld d 0x18 4 + 512 * r)) 512 fun y q =>
    let scratch := (readPool y p h.homeCol).scratch y h.bank
    let m := walkMax y p (walkIndex d)
    let t := cycNow y.dev x.cyc + 352 + r * (192 + 160 * ceilDiv m 256 + m)
    let sc := scoreRows y x scratch.1 scratch.2 h lim t (signSketch q)
    stepReads sc.2 x h.pl (16 * lim) fun y _ =>
      let cand := sc.1.filter fun e =>
        let pe := readEntry y (h.pl + 16 * e.1)
        pe.valid && pe.fill != 0 && !pe.pinned
      let best := (rankByScore cand).take (skTopk d)
      let y := y.onCore x.site fun c => { c with select := assocSet c.select (walkIndex d + r) best }
      let words := (best.map fun e => e.1 + e.2 * 65536) ++ List.replicate (skTopk d - best.length) 0xFFFFFFFF
      stepWrite y x false r (bufAddr x.col (fld d 0x1C 4 + 4 * (skTopk d * r))) (words.flatMap (leBytes 4))

/-- SKETCH (R208, R210). -/
def runSketch (y : Sys) (x : StepCtx) : Sys :=
  match x.img.pw with
  | none => y
  | some b =>
    let p := readPw y b
    let d := x.d
    let h := readHdr y (hdrAddr y p (readSeq y p (fld d 0x20 4)) (fld d 0x24 1) (fld d 0x25 1)).1
    let lim := min (walkMax y p (walkIndex d)) h.cap
    y.each (List.range (skQueries d)) fun y r => if inFlight y x.site x.index then sketchQuery y x p h lim r else y

/- APPEND (R219, R220). -/

/-- Adds the bits of a sketch to 256 counts (R194, R220). -/
def addCounts (counts : List Nat) (sk : List Byte) : List Nat :=
  (List.zip (List.range 256) counts).map fun e => (e.2 + b2n (bitAt (nth sk (e.1 / 8) 0).toNat (e.1 % 8))) % 65536

/-- The page sketch of counts over f positions (R194). -/
def pageSketch (counts : List Nat) (f : Nat) : List Byte :=
  (List.range 32).map fun k => BitVec.ofNat 8 (maskOf ((List.range 8).filter fun b => decide (f < 2 * nth counts (8 * k + b) 0)))

/-- Stores one position; every write passes the sluice. The counts of the pages written so far go along (R220). -/
def appendPos (x : StepCtx) (q : Pool) (r : Sys × List (Nat × List Nat)) (a : AppendPos) : Sys × List (Nat × List Nat) :=
  let y := r.1
  if !inFlight y x.site x.index then r
  else
    let d := x.d
    let at0 := a.head * apCount d + a.pos
    let parts := q.parts a.frame
    let sm := parts.2.2
    let known := assoc r.2 a.frame
    let rd := readAll y x ([(bufAddr x.col (fld d 0x18 4 + 768 * at0), 768), (bufAddr x.col (fld d 0x1C 4 + 128 * at0), 128)]
      ++ if known.isSome then [] else [(sm + 0x840, 512)])
    match rd.1 with
    | none => (rd.2, r.2)
    | some b =>
      let old := known.getD ((chunks 2 (b.drop 896)).map leNat)
      let counts := addCounts old (signSketch (slice b 0x100 512))
      let put := fun (y : Sys) t bytes => stepWrite y x false a.pos t bytes
      let y := put rd.2 (parts.1 + 128 * a.slot) (slice b 0 128)
      let y := put y (sm + 4 * a.slot) (slice b 0x80 4)
      let y := y.each (List.range 128) fun y k => put y (parts.2.1 + 256 * k + a.slot) (slice b (768 + k) 1)
      let y := put y (sm + 0x840) (counts.flatMap (leBytes 2))
      let y := put y (a.entry + 4) (leBytes 2 (a.slot + 1))
      let y := put y a.sketch (pageSketch counts (a.slot + 1))
      (y, assocSet r.2 a.frame counts)

/-- APPEND (R219, R220, R223). -/
def runAppend (y : Sys) (x : StepCtx) : Sys :=
  match x.img.pw, liveStep (y.core x.site) x.index with
  | some b, some s =>
    let q := readPool y (readPw y b) x.col
    (s.plan.foldl (appendPos x q) (y, [])).1
  | _, _ => y

/- Issue of the prepared kinds (R201, R202). -/

/-- Hands a finished preparation to its step in flight (R201, R205, R218). -/
def takePrep (y : Sys) (x : StepCtx) (p : Prep) : Sys :=
  y.onCore x.site fun c =>
    let c := onStep c x.index fun s => { s with
      waitPrep := false, pages := p.descs, vCode := p.vCode, plan := p.plan
      ret := if isRetained x.d then { s.ret with ranges := inputRanges y x.img x.col x.d p.descs } else s.ret }
    { c with prep := none, prepTrigger := if p.op = 2 then some (y.dev.beat.wbc + 1) else c.prepTrigger }

/-- A step in flight that waited for a preparation ends for what the preparation found: a walk error or a bus error (R204, R280). -/
def prepEnds (y : Sys) (site : Nat) (p : Prep) : Sys :=
  let y := y.onCore site fun c => { c with prep := none }
  stopSite (endStep y site (stepKey (y.core site) p.index) (if p.busErr then 3 else 6) p.walkErr 0) site (if p.busErr then 4 else 6)

/-- A step whose preparation found a walk error or a bus error is not issued: BUS_ERROR or REFUSED, the partition stops (R204, R280;
DEDUCED, log 24). -/
def prepRefuses (y : Sys) (x : StepCtx) (p : Prep) : Sys :=
  let s := { newStep y x [] with outcome := some (if p.busErr then 3 else 6), done := true, endAt := some (cycNow y.dev x.cyc), ret := {} }
  let y := y.onCore x.site fun c => { c with prep := none, nextIndex := c.nextIndex + 1, fetched := assocDel c.fetched (x.index % 2 ^ 32) }
  stopSite (recordStep y x.site s p.walkErr) x.site (if p.busErr then 4 else 6)

/-- What a preparation found keeps its step from running. -/
def Prep.failed (p : Prep) : Bool := p.busErr || p.walkErr != 0

/-- A prepared kind issues: it runs when its preparation has finished, else it waits for it (R202). -/
def issuePrepared (run : Sys → StepCtx → Sys) (y : Sys) (x : StepCtx) : Sys :=
  let mine := fun (p : Prep) => p.index == x.index % 2 ^ 32
  match (y.core x.site).prep with
  | some p =>
    if mine p && p.finished && p.failed then prepRefuses y x p
    else if mine p && p.finished then run (takePrep (beginStep y x p.descs) x p) x
    else (beginStep y x []).onCore x.site fun c => onStep c x.index fun s => { s with waitPrep := true }
  | none => (beginStep y x []).onCore x.site fun c =>
      { onStep c x.index (fun s => { s with waitPrep := true }) with prepTrigger := some (c.prepTrigger.getD (y.dev.beat.wbc + 1)) }

def execAttend (col : Col) (cyc : Nat) (s : State) : Host.Outcome State Fault Refusal :=
  onSys (issueAny 2 col cyc (issuePrepared runAttend)) s

def execSketch (col : Col) (cyc : Nat) (s : State) : Host.Outcome State Fault Refusal :=
  onSys (issueAny 11 col cyc (issuePrepared runSketch)) s

def execAppend (col : Col) (cyc : Nat) (s : State) : Host.Outcome State Fault Refusal :=
  onSys (issueAny 14 col cyc (issuePrepared runAppend)) s

/-- The work of a step by its kind, as it is issued or reissued. -/
def runKind (y : Sys) (x : StepCtx) : Sys :=
  match opOf x.d with
  | 1 => runMatmul y x
  | 2 => runAttend y x
  | 3 => startLane y x (cycNow y.dev x.cyc)
  | 4 => runMove y x
  | 5 => runGather y x
  | 6 => runScatter y x
  | 9 => armFlow false true y x
  | 11 => runSketch y x
  | 14 => runAppend y x
  | _ => y

/-- PREPARATION_DONE: the preparation of a column finishes and records a walk error; a step that waited for it starts, lengthened
by its wait, or ends for the error (R202, R204). -/
def preparationDone (col : Nat) (y : Sys) : Sys :=
  let site := siteOf y.dev col
  match (y.core site).prep with
  | none => y
  | some p =>
    if p.finished || copiesWait y site then y
    else
      let y := y.onCore site fun c => { c with prep := some { p with finished := true } }
      let y := if p.walkErr = 0 then y else y.onWalker fun w => { w with errCode := p.walkErr, errCol := col, errValid := true }
      let key := stepKey (y.core site) p.index
      match (liveStep (y.core site) key), liveCtx y site key 0 with
      | some s, some x =>
        if s.waitPrep && p.failed then prepEnds y site p
        else if s.waitPrep then
          let wait := cycNow y.dev 0 - s.issueAt
          let y := y.onCore site fun c => onStep c key fun s => { s with lengthen := s.lengthen + wait }
          runKind (takePrep y x p) x
        else y
      | _, _ => y

def execPreparationDone (col : Col) (s : State) : Host.Outcome State Fault Refusal := onSys (preparationDone col) s

/- Replay (R487 to R489). -/

/-- REPLAY_REISSUE: the next member is issued again once its offset is reached and its engines are free; a spoiled entry of its retention
record is a check fault (R283, R478, R487, R489). -/
def replayReissue (col : Nat) (spoiled : Option Nat) (cyc : Nat) (y : Sys) : Sys :=
  let site := siteOf y.dev col
  let y := advanceCore cyc y site
  let c := y.core site
  let now := cycNow y.dev cyc
  match c.replay with
  | none => y
  | some r =>
    if r.failed then y
    else match r.members.find? fun m => !r.reissued.contains m.1 with
      | none => y
      | some m =>
        match liveStep c m.1, liveCtx y site m.1 cyc with
        | some s, some x =>
          let p0 := ((liveStep c r.p).map StepRun.issueAt).getD 0
          let early := if m.1 = r.p then decide (now < r.faultAt + 2) else decide (now < p0 + m.2)
          if early || (enginesOf s.desc).any (engineBusy c now) then y
          else
            let e := nominalEnd y x.img col s.desc c.spareStage 0
            let e := if s.op = 9 then max e (32 + flitsOf s.desc) else e
            let ranges := if s.ret.ranges.isEmpty then inputRanges y x.img col s.desc s.pages else s.ret.ranges
            let y := y.onCore site fun c =>
              { onStep c m.1 (fun s => { s with
                  issueAt := now, nominalEnd := now + e, endAt := none, replays := r.attempt, count := 0, flags := 0
                  release := (nominalRelease s.desc c.spareStage e).map fun q => (q.1, now + q.2)
                  ret := { s.ret with ranges := ranges } }) with
                replay := some { r with reissued := r.reissued ++ [m.1] } }
            let y := runKind y { x with replay := true }
            match spoiled with
            | some e => checkFault y site m.1 cyc 0x0B e 3 0 0
            | none => y
        | _, _ => y

def execReplayReissue (col : Col) (spoiled : Timed (Option Nat)) (s : State) : Host.Outcome State Fault Refusal :=
  onSys (replayReissue col spoiled.val spoiled.cyc) s

/-- Fences a core: its sequencer stops, its steps end as under a CUT, its partition stops (R318, R497). -/
def fenceCore (y : Sys) (site : Nat) : Sys :=
  let part := partOfSite y site
  let live := match part with
    | some q => partLive y.dev q
    | none => false
  let y := (y.onNoc fun n => { n with fenced := addTo n.fenced site }).onBoot fun b => { b with cleanSites := takeOut b.cleanSites site }
  let y := stopCore y site 3
  match part with
  | some q => if live then faultStop y q else y
  | none => y

/-- A second failed attempt: members end, a fence order is sent, the partition stops, an open hold is requested (R318, R489). -/
def replayLost (y : Sys) (site : Nat) (r : Replay) : Sys :=
  let y := y.onSiteFault site fun f => { f with replayFail := sat32 (f.replayFail + 1) }
  let y := match liveStep (y.core site) r.p with
    | some p => checkRecord y site p r 2 3 7 2
    | none => y
  let y := y.onCore site fun c => { c with replay := none }
  let y := y.each (r.members.map Prod.fst) fun y i => failMember site 2 y i
  let y := y.onNoc fun n => { n with fences := n.fences ++ [⟨site, 0, 2⟩] }
  let y := match partOfSite y site with
    | some q => faultStop y q
    | none => y
  requestHold y 4 0

/-- REPLAY_END: the attempt failed, and is followed by a second one or by the fence; or every member has completed (R487,
R489). -/
def replayEnd (col cyc : Nat) (y : Sys) : Sys :=
  let site := siteOf y.dev col
  let c := y.core site
  let now := cycNow y.dev cyc
  match c.replay with
  | none => y
  | some r =>
    let members := r.members.filterMap fun m => liveStep c m.1
    if r.failed then
      if 2 ≤ r.attempt then replayLost y site r
      else match liveStep c r.p, columnRun y col with
        | some p, some (_, img, _) =>
          startReplay y site col img p (members.filter fun s => s.index != r.p) { r with faultAt := now } now
        | _, _ => y
    else if !(r.members.all fun m => r.reissued.contains m.1) || !(members.all fun s => checksPassed y col s now) then y
    else
      let y := match liveStep c r.p with
        | some p => checkRecord y site p r 1 r.attempt 0 r.attempt
        | none => y
      let y := y.onCore site fun c => { c with replay := none }
      y.each (r.members.map Prod.fst) fun y i => completeStep y site col i 1 r.attempt

def execReplayEnd (col : Col) (cyc : Nat) (s : State) : Host.Outcome State Fault Refusal := onSys (replayEnd col cyc) s

end Sys2Proof.Machine
end

