-- ==== Sys2Proof/Machine/Sched.lean ====
section
/-! DEFINITION. Starts, runs and ends of schedule images, and the swap of the configuration sets (R46, R78, R79, R86 to R90, R229,
R236, R240, R266, R267, R299, R397). -/

namespace Sys2Proof.Machine

/-- The present beat is the first wall beat of its SBC and that SBC is s (R46). -/
def firstBeatOf (d : Dev) (s : Nat) : Bool := d.beat.aligned && !d.beat.holdActive && sbc d == s

/-- Page descriptors that belong to an ATTEND in flight (R89, R205). -/
def inFlightPages (c : Core) : Nat :=
  ((c.attend.bind fun a => liveStep c a.step).map fun s => atMaxPages s.desc).getD 0

/-- The core of a column as a run of an image begins on it: its list from the first step, its preparations at once, while steps in flight
go on with what is theirs; a fenced core stays stopped until its admission (R78, R89, R201, R497). -/
def startCore (fresh fenced : Bool) (now : Nat) (c : Core) : Core :=
  let c := { c with nextIndex := 0, epoch := c.epoch + 1, fetched := [], seqState := if c.seqState = 3 && fresh && !fenced then 0 else c.seqState }
  if fresh then
    let n := inFlightPages c
    { c with nextRun := 0, prep := none, descOut := c.descOut.take (n - c.descs.length), descs := c.descs.take n, select := [], prepTrigger := some now }
  else { c with nextRun := c.nextRun + 1 }

/-- Starts a run of an image on the columns of a partition. -/
def startCores (y : Sys) (q : Nat) (fresh : Bool) : Sys :=
  y.each (colsOf y q) fun y c => y.onCore (siteOf y.dev c) (startCore fresh (y.dev.noc.fenced.contains (siteOf y.dev c)) y.dev.beat.wbc)

/-- A partition becomes RUNNING: MAINT is cleared and an armed injection is cancelled (R229, R299). -/
def becomeRunning (y : Sys) (q : Nat) : Sys :=
  let y := y.onMap fun m => { m with maint := false }
  let y := y.onProt fun p => if p.injArm then { p with injArm := false, injCancelled := true } else p
  setPart y q .running

/-- PARTITION_START: the first wall beat whose SBC equals START_SBC (R46, R81). -/
def partitionStart (q : Nat) (y : Sys) : Sys :=
  let r := nth y.dev.sched.runs q {}
  if r.startPending && firstBeatOf y.dev r.start && partState y.dev q == .idle then
    let y := y.onSched fun s => { s with runs := upd s.runs q fun r => { r with startPending := false, run := 0 } }
    becomeRunning (startCores y q true) q
  else y

def execPartitionStart (q : Part) (s : State) : Host.Outcome State Fault Refusal := onSys (partitionStart q) s

/-- The SBC at which the present run of a partition ends. -/
def runEnd (r : PartRun) (i : Image) : Nat := r.start + (r.run + 1) * i.length

/-- IMAGE_RUN_REPEAT: each stamp of the next run is shifted by LENGTH_BEATS (R78). -/
def imageRunRepeat (q : Nat) (y : Sys) : Sys :=
  let r := nth y.dev.sched.runs q {}
  match runImage y.dev q with
  | none => y
  | some i =>
    if i.rep && partState y.dev q == .running && firstBeatOf y.dev (runEnd r i) then
      startCores (y.onSched fun s => { s with runs := upd s.runs q fun r => { r with run := r.run + 1 } }) q false
    else y

def execImageRunRepeat (q : Part) (s : State) : Host.Outcome State Fault Refusal := onSys (imageRunRepeat q) s

/-- Retention and preparation of a core end as its partition stops (R183, R201). -/
def quietCore (c : Core) : Core :=
  { c with prep := none, prepTrigger := none, fetched := [], steps := c.steps.map fun s => { s with ret := { s.ret with live := false } } }

/-- IMAGE_FINISH: the partition finishes at START_SBC + LENGTH_BEATS and becomes idle; steps in flight run to their ends (R78). -/
def imageFinish (q : Nat) (y : Sys) : Sys :=
  let r := nth y.dev.sched.runs q {}
  match runImage y.dev q with
  | none => y
  | some i =>
    if !i.rep && partState y.dev q == .running && firstBeatOf y.dev (runEnd r i) then
      setPart (y.each (colsOf y q) fun y c => y.onCore (siteOf y.dev c) quietCore) q .idle
    else y

def execImageFinish (q : Part) (s : State) : Host.Outcome State Fault Refusal := onSys (imageFinish q) s

/-- IMG_DIGEST of a loaded image as it now stands: SHA-256 of the whole image with that field zero (R76, R79). -/
def digestNow (y : Sys) (addr size : Nat) : Bool :=
  let b := devBytes y addr size
  sha256 (splice b 0x60 (List.replicate 32 0)) == slice b 0x60 32

/-- A partition whose pointer changes goes over to its new image at the swap beat; an image whose digest fails is not brought
into use, and one that cannot be read stops the partition (R79, R89, R280). -/
def switchImage (y : Sys) (q old : Nat) : Sys :=
  let new := imageIn y y.dev.sched.bank q
  if new = old || !partLive y.dev q then y
  else
    let audit := match imageAt y.dev new with
      | some i => ccRead y i.addr i.size
      | none => (true, y)
    let y := audit.2
    let ok := match imageAt y.dev new with
      | some i => audit.1 && digestNow y i.addr i.size
      | none => false
    let y := y.onSched fun s => { s with runs := upd s.runs q fun _ => { image := if ok then some new else none, start := sbc y.dev } }
    let y := startCores y q true
    if audit.1 then y else requestHold (faultStop y q) 4 0

/-- The struck errors of a granule that becomes Open: no checker stands before its bytes any more, so an error that was injected
shows its XOR with 0x01 and any other leaves a free value (R236, R266, R299). -/
def bareErrors (y : Sys) (c g : Nat) : Sys :=
  let lo := dramKey (siteOf y.dev c) (g * 2 ^ 26)
  let hits := y.dev.prot.dramErr.filter fun e => decide (lo ≤ e.1) && decide (e.1 < lo + 2 ^ 26)
  let y := y.each hits fun y e => y.each e.2 fun y p =>
    if 128 ≤ p then (if p < 192 then y.put (e.1 + (p - 128)) [y.get (e.1 + (p - 128)) ^^^ 1] else y)
    else if p < 64 then
      let r := y.takeFree
      r.2.put (e.1 + p) [BitVec.ofNat 8 r.1]
    else y
  y.onProt fun x => { x with dramErr := x.dramErr.filter fun e => !(decide (lo ≤ e.1) && decide (e.1 < lo + 2 ^ 26)) }

/-- A pending swap's beat has come: its SBC, or, for an immediate swap, the first boundary after its acceptance and the end of its
back-invalidation (R86, R87, R240). -/
def swapDue (y : Sys) (p : SwapPending) : Bool :=
  match p.sbc with
  | some s => firstBeatOf y.dev s
  | none => p.backInv.isEmpty && decide (p.since < y.dev.beat.wbc)

/-- A member takes the primary upstream port of the set that has become active when that names another one, or when its own is none of
that set's (R48, R54). -/
def followSet (y : Sys) (oldPrimary : Nat) : Sys :=
  let b := y.dev.beat
  let up := beatPort y 0
  if follows b && b.upstream != up && (oldPrimary != up || !(upstreamPorts y).contains b.upstream) then
    if up < 12 then switchUpstream y up else y.onBeat fun b => { b with upstream := 15 }
  else y

/-- Every granule of the logical columns. -/
def allGranules (n : Nat) : List (Nat × Nat) := (List.range n).flatMap fun c => (List.range 192).map fun g => (c, g)

/-- CONFIGURATION_SWAP: the sets are exchanged in one step (R86 to R90, R236, R266, R397). -/
def configurationSwap (y : Sys) : Sys :=
  match y.dev.sched.swap with
  | none => y
  | some p =>
    if !swapDue y p then y
    else
      let opened := (allGranules y.dev.map.n).filter fun g =>
        !isOpen y g.1 g.2 && bitAt (secField y (1 - y.dev.sched.bank) 2 (0x10 + 192 * g.1 + g.2) 1) 0
      let olds := (List.range 4).map fun q => (nth y.dev.sched.runs q {}).image.getD 0
      let primary := beatPort y 0
      let routed := routesUnderWay y
      let y := y.each opened fun y g => bareErrors y g.1 g.2
      let y := y.onSched fun s => { s with bank := 1 - s.bank, haveActive := true, swap := none }
      let y := y.onBeat fun b => { b with genHistory := (b.wbc, generation y) :: b.genHistory }
      let y := followSet (y.each (List.range 4) fun y q => switchImage y q (nth olds q 0)) primary
      let y := (y.each y.dev.sched.images noticePools).onProt fun p => { p with encoding := [], encoded := [] }
      let y := y.onNoc fun n => { n with kept := routed }
      let y := y.each (List.range 12) budgetTest
      if y.dev.boot.power = .coresUp ∧ p.sbc = none then settlePower (enterPower y .ready) else settlePower y

def execConfigurationSwap (s : State) : Host.Outcome State Fault Refusal := onSys configurationSwap s

end Sys2Proof.Machine
end

