-- ==== Sys2Proof/Machine/Mailbox.lean ====
section
/-! DEFINITION. The life of a mailbox command: taken, run, finished or left IN_PROGRESS, reported (R369 to R376, R382). -/

namespace Sys2Proof.Machine

/-- STATUS codes (R376). -/
def stUnknown : Nat := 0x40
def stPayload : Nat := 0x41
def stState : Nat := 0x42
def stBusy : Nat := 0x43
def stRefused : Nat := 0x44
def stNotMaster : Nat := 0x45
def stRef : Nat := 0x46
def stAborted : Nat := 0x47
def stData : Nat := 0x48

/-- Device address of a mailbox (R369). -/
def mbxAddr (m : Nat) : Nat := 0x7E00000000 + 256 * m

/-- A field of a command's payload. -/
def CmdRun.field (r : CmdRun) (off n : Nat) : Nat := fld r.payload off n

/-- The control complex writes part of a mailbox; the host's copies are invalidated first (R362, R373). -/
def mbxWrite (y : Sys) (m off : Nat) (data : List Byte) (mask : List Bool) : Sys :=
  deviceWrite y (mbxAddr m + off) data mask .control none

/-- The result and the header's completion fields: line 1 first, then line 0 as one write (R373). -/
def writeResult (y : Sys) (m status state : Nat) (result : List Byte) : Sys :=
  let res := result.take 224
  let l1 := res.drop 96
  let y := if l1.isEmpty then y else mbxWrite y m 0x80 l1 (fullMask l1)
  let l0 := res.take 96
  let head := leBytes 1 0 ++ List.replicate 7 0 ++ leBytes 1 status ++ leBytes 1 state ++ leBytes 2 res.length
    ++ List.replicate 12 0 ++ leBytes 8 y.dev.beat.wbc ++ l0
  let mask := (List.range (32 + l0.length)).map fun i =>
    i == 0 || (decide (8 ≤ i) && decide (i < 12)) || decide (24 ≤ i)
  mbxWrite y m 0 head mask

/-- The run that a mailbox row acts on: taken and not yet reported. -/
def openCmd (d : Dev) (m : Nat) : Option CmdRun :=
  d.host.cmds.find? fun r => r.mb == m && !r.inProgress && r.final.isNone

/-- Changes the open run of a mailbox. -/
def onOpen (y : Sys) (m : Nat) (f : CmdRun → CmdRun) : Sys :=
  y.onHost fun h => { h with cmds := h.cmds.map fun r => if r.mb == m && !r.inProgress && r.final.isNone then f r else r }

/-- Ends a command that has not gone IN_PROGRESS: DONE with its STATUS and result (R373). -/
def finish (y : Sys) (m status : Nat) (result : List Byte) : Sys :=
  let y := y.onHost fun h => { h with cmds := h.cmds.filter fun r => !(r.mb == m && !r.inProgress) }
  writeResult y m status 3 result

/-- Leaves a command IN_PROGRESS: its mailbox is free for reuse at once (R373). -/
def progress (y : Sys) (m : Nat) (result : List Byte) : Sys :=
  writeResult (onOpen y m fun r => { r with inProgress := true }) m 0 2 result

/-- The end of an IN_PROGRESS command of a group, which COMMAND_DONE will report (R373, R381). -/
def complete (y : Sys) (group verb status : Nat) (result : List Byte) : Sys :=
  y.onHost fun h => { h with cmds := h.cmds.map fun r =>
    if r.group == group && r.verb == verb && r.inProgress && r.final.isNone then { r with final := some (status, result) } else r }

/-- A command whose answer goes to a host address: it ends once its last DWR is performed (R367, R382). -/
def finishDest (y : Sys) (m dest : Nat) (data : List Byte) (status : Nat) (result : List Byte) : Sys :=
  let n := (hostPieces (data.length / 128 + 2) 0 dest data.length).length
  if n = 0 then finish y m status result
  else dwrRange (onOpen y m fun r => { r with final := some (status, result), destPending := n }) dest data (.cmdDest m)

/-- A DWR of a command's answer is performed or refused (R367, R376). -/
def destAnswered (y : Sys) (m : Nat) (ok : Bool) : Sys :=
  match y.dev.host.cmds.find? fun r => r.mb == m && decide (0 < r.destPending) with
  | none => y
  | some r =>
    let fin := if ok then r.final else some (stRef, [])
    let r' := { r with destPending := r.destPending - 1, final := fin }
    let y := y.onHost fun h => { h with cmds := h.cmds.map fun x => if x == r then r' else x }
    if r'.destPending = 0 ∧ r.inProgress = false then
      match fin with
      | some f => finish y m f.1 f.2
      | none => y
    else y

/-- A group already has a command IN_PROGRESS; PWR.GRANT and PWR.ENV are never refused for it (R374, R388). -/
def groupBusy (d : Dev) (group verb : Nat) : Bool :=
  !(group == 6 && decide (verb ≤ 2)) && d.host.cmds.any fun r => r.group == group && r.inProgress

/-- LENGTH of a command is right: no shorter than its last field and no longer than a payload may be (R369, R376). -/
def lengthOk (r : CmdRun) (need : Nat) : Bool :=
  decide (need ≤ r.payload.length) && (if r.refOk then decide (r.refLen ≤ 2 ^ 24) else decide (r.payload.length ≤ 224))

/-- Runs a mailbox row: the command of its group and verb that the mailbox holds, once its references are read (R373 to R376). -/
def command (group verb need m : Nat) (body : CmdRun → Sys → Sys) (y : Sys) : Sys :=
  match openCmd y.dev m with
  | none => y
  | some r =>
    if r.group ≠ group ∨ r.verb ≠ verb ∨ r.deferred = true ∨ 0 < r.pendingRefs then y
    else if groupBusy y.dev group verb then finish y m stBusy []
    else if r.refErr then finish y m stRef []
    else if !lengthOk r need then finish y m stPayload []
    else body r y

/-- Bits of a DEST field above the host address are reserved (R382). -/
def destOk (dest : Nat) : Bool := decide (dest < 2 ^ 52)

/-- MAILBOX_TAKE: the oldest handover is taken and acknowledged; a payload by reference is read (R369, R372, R373). -/
def mailboxTake (y : Sys) : Sys :=
  match y.dev.host.handovers with
  | [] => y
  | m :: rest =>
    if !y.dev.host.taking then y
    else
      let y := y.onHost fun h => { h with handovers := rest }
      let b := y.getN (mbxKey (256 * m)) 256
      let isRef := bitAt (fld b 1 1) 0
      let len := fld b 6 2
      let refLen := fld b 0x28 4
      let good := !isRef || (len == 16 && decide (refLen ≤ 2 ^ 24))
      let r : CmdRun :=
        { mb := m, group := fld b 5 1, verb := fld b 4 1, seq := fld b 2 2
          payload := if isRef then (if good then [] else List.replicate 225 0) else slice b 0x20 (min len 224) ++ List.replicate (len - 224) 0
          refLen := refLen, refOk := isRef && good, refErr := false
          pendingRefs := 0, inProgress := false, destPending := 0, deferred := false, final := none }
      let n := if r.refOk then (hostPieces (refLen / 128 + 2) 0 (fld b 0x20 8 % 2 ^ 52) refLen).length else 0
      let y := y.onHost fun h => { h with cmds := h.cmds ++ [{ r with pendingRefs := n }] }
      let ack := leBytes 1 1 ++ List.replicate 6 0 ++ leBytes 8 y.dev.beat.wbc
      let y := mbxWrite y m 9 ack ((List.range 15).map fun i => i == 0 || decide (7 ≤ i))
      if 0 < n then drdRange y (fld b 0x20 8 % 2 ^ 52) refLen fun p => .cmdRef m p else y

def execMailboxTake (s : State) : Host.Outcome State Fault Refusal := onSys mailboxTake s

/-- A piece of a command's reference arrives, or cannot be read; the payload is whole with the last one (R367, R369, R376). -/
def refArrived (y : Sys) (m pos : Nat) (data : Option (List Byte)) : Sys :=
  let y := y.onHost fun h => { h with refData := h.refData ++ [(m, pos, data.getD [])] }
  let y := onOpen y m fun r => { r with pendingRefs := r.pendingRefs - 1, refErr := r.refErr || data.isNone }
  match openCmd y.dev m with
  | none => y
  | some r =>
    if 0 < r.pendingRefs then y
    else
      let mine := y.dev.host.refData.filter fun p => p.1 == m
      let whole := mine.foldl (fun l p => splice l p.2.1 p.2.2) []
      (onOpen y m fun r => { r with payload := padTo r.refLen whole }).onHost fun h =>
        { h with refData := h.refData.filter fun p => p.1 != m }

/-- The commands that exist: group and verbs (R382 to R392). -/
def verbsOf (group : Nat) : Nat :=
  match group with
  | 1 => 5 | 2 => 3 | 3 => 5 | 4 => 3 | 5 => 5 | 6 => 4 | 7 => 3 | 8 => 4 | 9 => 9
  | _ => 0

/-- COMMAND_UNKNOWN: the group or verb is not defined (R376). -/
def commandUnknown (m : Nat) (y : Sys) : Sys :=
  match openCmd y.dev m with
  | none => y
  | some r => if 1 ≤ r.verb ∧ r.verb ≤ verbsOf r.group then y else finish y m stUnknown []

def execCommandUnknown (mb : Mbx) (s : State) : Host.Outcome State Fault Refusal := onSys (commandUnknown mb) s

/-- Event COMMAND_DONE (R381). -/
def doneEvent (y : Sys) (m status seq group verb : Nat) (result : List Byte) : Sys :=
  event y 0x0701 (leBytes 1 m ++ leBytes 1 status ++ leBytes 2 seq ++ leBytes 2 (256 * group + verb) ++ leBytes 2 0 ++ result.take 32)

/-- COMMAND_DONE: an IN_PROGRESS command that has ended is reported (R373, R381). -/
def commandDone (m : Nat) (y : Sys) : Sys :=
  match y.dev.host.cmds.find? fun r => r.mb == m && r.inProgress && r.final.isSome && r.destPending == 0 with
  | none => y
  | some r =>
    let f := r.final.getD (0, [])
    doneEvent (y.onHost fun h => { h with cmds := h.cmds.filter fun x => x != r }) m f.1 r.seq r.group r.verb f.2

def execCommandDone (mb : Mbx) (s : State) : Host.Outcome State Fault Refusal := onSys (commandDone mb) s

end Sys2Proof.Machine
end

