-- ==== Sys2Proof/Machine/Noc.lean ====
section
/-! DEFINITION. Mesh packets, fences and admissions, migrations, back-invalidation, lost shuttle messages (R240, R249 to R252, R303,
R317 to R322, R492). -/

namespace Sys2Proof.Machine

/- Packets (R303, R319, R321, R492). -/

/-- The source column's incarnation is not that of the packet, or the site carries no column (R321). -/
def stalePacket (d : Dev) (p : Packet) : Bool :=
  p.srcEp == 2 && (match colAt d p.src with
    | some c => colInc d c != p.srcInc
    | none => true)

/-- A packet leaves the list of packets on their way. -/
def takePacket (y : Sys) (p : Packet) : Sys := y.onNoc fun n =>
  { n with out := n.out.eraseP fun x => x.2 == p, kept := n.kept.filter fun k => k.1 != packetId p }

/-- A packet as it leaves a router by an entry: on layer 1 from the first entry with LAYER_SWITCH, its header sealed anew (R303,
R308). -/
def leavingPacket (e : Nat) (p : Packet) : Packet :=
  if bitAt e 3 && !p.layer then
    let q := { p with layer := true }
    { q with hdrCrc := crc32c (packetHeader q) }
  else p

/-- A router passes a packet on to its neighbour by an entry; the entries of older tables go with it (R90, R308). -/
def passOn (y : Sys) (r : Nat) (p : Packet) (e : Nat) (old : List (Packet × List Nat)) : Sys :=
  match neighbour r (e % 8) with
  | some n => y.onNoc fun x => { x with out := x.out ++ [(n, leavingPacket e p)], kept := x.kept ++ old }
  | none => y

/-- Counts a packet that a fenced router drops or discards (R319). -/
def fenceDrop (y : Sys) (s : Nat) : Sys := y.onSiteNoc s fun n => { n with fenceDrops := sat32 (n.fenceDrops + 1) }

/-- Forgets a request. -/
def dropReq (y : Sys) (tag : Nat) : Sys := y.onNoc fun n => { n with reqs := n.reqs.filter fun r => r.tag != tag }

/-- A request ends as an uncorrectable outcome for its requester (R280). -/
def meshFailed (y : Sys) (r : MeshReq) : Sys :=
  let y := dropReq y r.tag
  match r.who with
  | .step c i => if r.pkt.kind = 2 then rmwFailed y r.who else busError y (siteOf y.dev c) i 0
  | .control => ccFailed y r.pkt.addr
  | _ => y

/-- The parity of a router's storage fails: the transfer that uses the entry is an uncorrectable outcome for its requester (R283, R492). -/
def spoiledPacket (y : Sys) (r : Nat) (p : Packet) : Sys :=
  let y := faultRecCc y (faultSite y r { cls := 0x0B, location := r, detail := 4 })
  match y.dev.noc.reqs.find? fun q => q.tag == p.tag && (q.pkt.src == p.src || q.pkt.src == p.dest) with
  | some q => if 5 ≤ p.kind ∧ p.kind ≤ 6 then y else meshFailed y q
  | none => y

/-- A packet at a router: the parity of its entry and its header are checked, then the fence and the incarnation at its source and destination; elsewhere it
goes on by the tables; at its destination it is served (R303, R308, R319, R321, R492). -/
def packetAt (kind r : Nat) (p : Packet) (serve : Sys → Sys) (y : Sys) : Sys :=
  if p.kind ≠ kind then y
  else
    let e := packetEntry y r p
    let old := y.dev.noc.kept.filter fun k => k.1 == packetId p
    let y := takePacket y { p with spoiled := false }
    if y.dev.noc.fabricReset || !routerUsable y.dev.noc.failed r then y
    else if p.spoiled then spoiledPacket y r p
    else if p.hdrCrc ≠ crc32c (packetHeader p) then meshRecord y r kind 0
    else if r = p.src && y.dev.noc.fenced.contains r && (p.srcEp == 1 || p.srcEp == 2) then fenceDrop y r
    else if (r == p.src || r == p.dest) && stalePacket y.dev p then
      y.onSiteNoc r fun n => { n with staleDrops := sat32 (n.staleDrops + 1) }
    else if r ≠ p.dest then passOn y r p e old
    else serve y

/-- The response to a request (R303). -/
def respond (y : Sys) (r : Nat) (p : Packet) (kind status : Nat) (payload : List Byte) : Sys :=
  let q := sealPacket ⟨kind, p.cls, false, p.src, p.srcEp, r, p.destEp, 0, status, p.tag, p.addr, payload.length, 0,
    packetPayload payload, 0, 0, false⟩
  y.onNoc fun n => { n with out := n.out ++ [(r, q)] }

/-- The payload's CRC is wrong (R303, R492). -/
def badPayload (p : Packet) : Bool := !p.payload.isEmpty && p.payCrc != crc32c p.payload

/-- Who made a request. -/
def tagWho (y : Sys) (tag : Nat) : Requester := ((y.dev.noc.reqs.find? fun r => r.tag == tag).map MeshReq.who).getD .host

/-- The key that a request names at a router's endpoint; after the switch of a migration the old site goes on serving its DRAM to the
requests routed under the old map (R247, R251). -/
def meshKey (y : Sys) (r : Nat) (p : Packet) : Option Nat :=
  match addrKey y.dev p.addr with
  | none => none
  | some k =>
    let site := if isBufKey k then (k - 2 ^ 40) / 2 ^ 27 else k / 2 ^ 34
    let ep := if isBufKey k then 1 else 0
    if !(isBufKey k || isDramKey k) || p.destEp != ep || 4096 < p.len then none
    else if site = r then some k
    else if isDramKey k && oldSiteOf y.dev r = some (p.addr / colBytes) then some (dramKey r (p.addr % colBytes))
    else none

/-- A request routed to the old site of a migration after its switch (R251). -/
def routedOld (d : Dev) (r : Nat) (p : Packet) : Bool := isActiveDram d p.addr && oldSiteOf d r == some (p.addr / colBytes)

/-- A router answers for the buffer tile of its fenced core; the answer is not the tile's, so the fence lets it out (R319; DEDUCED,
DEDUCED, log 95). -/
def answerFenced (y : Sys) (r : Nat) (p : Packet) : Sys := respond y r { p with destEp := 0 } 7 2 []

/-- A READ is served; a fenced core's buffer answers FENCED; uncorrectable data is a READ_DATA with STATUS BUS_ERROR (R280, R303,
R319). -/
def serveRead (r : Nat) (p : Packet) (y : Sys) : Sys :=
  if p.destEp = 1 ∧ y.dev.noc.fenced.contains r then answerFenced y r p
  else match meshKey y r p with
    | none => respond y r p 7 4 []
    | some k =>
      let m := readBank y k p.len (tagWho y p.tag)
      match m.1 with
      | .ok b => respond m.2 r p 3 0 b
      | .error _ => respond m.2 r p 3 1 []

def execMeshRead (router : Site) (p : Packet) (s : State) : Host.Outcome State Fault Refusal :=
  onSys (packetAt 1 router p (serveRead router p)) s

/-- A payload that fails its CRC is discarded and answered with BUS_ERROR (R492). -/
def payloadChecked (r : Nat) (p : Packet) (serve : Sys → Sys) (y : Sys) : Sys :=
  if badPayload p then respond (meshRecord y r p.kind 0) r p 7 1 [] else serve y

/-- Some line of a range is recorded in the snoop filter or has a transaction. -/
def lineBusy (y : Sys) (a len : Nat) : Bool :=
  y.dev.host.filter.any (fun f => decide (a / 128 ≤ f.1) && decide (f.1 ≤ (a + len - 1) / 128))
    || y.dev.host.txns.any fun t => decide (a / 128 ≤ t.line) && decide (t.line ≤ (a + len - 1) / 128)

/-- A WRITE is performed and acknowledged, at the old site of a migration and at its target (R251, R279, R303, R362). -/
def serveWrite (r : Nat) (p : Packet) (y : Sys) : Sys :=
  if p.destEp = 1 ∧ y.dev.noc.fenced.contains r then answerFenced y r p
  else match meshKey y r p with
    | none => respond y r p 7 4 []
    | some _ =>
      let who := tagWho y p.tag
      let b := p.payload.take p.len
      if lineBusy y p.addr b.length then respond (deviceWrite y p.addr b (fullMask b) who none) r p 4 0 []
      else
        let y := if routedOld y.dev r p then (writeMem y (dramKey r (p.addr % colBytes)) b (fullMask b) who).2 else y
        let w := writeDev y p.addr b (fullMask b) who none
        respond w.2 r p 4 (b2n w.1) []

def execMeshWrite (router : Site) (p : Packet) (s : State) : Host.Outcome State Fault Refusal :=
  onSys (packetAt 2 router p (payloadChecked router p (serveWrite router p))) s

/-- A received flit is written at its offset from the receiver's ADDR, once (R181, R331); a REDUCE's own flits are no hits of its
retained ranges (DEDUCED, log 13). -/
def placeFlit (y : Sys) (site flow n : Nat) (payload : List Byte) : Sys :=
  match (y.core site).flows.find? fun f => f.flow == flow && !f.send with
  | none => y
  | some f =>
    if f.flits ≤ n || f.placed.contains n then y
    else
      let c := (colAt y.dev site).getD 0
      let y := displaceMoves y site (y.core site).now
      let y := deviceWrite y (f.addr + 256 * n) (padTo 256 payload) (List.replicate 256 true) (.step c f.index)
        (if f.reduce then some (site, f.index) else none)
      y.onCore site fun k => { k with flows := k.flows.map fun g => if g == f then { g with placed := g.placed ++ [n], lastAt := y.dev.beat.wbc } else g }

/-- A SPAN_IN packet at its column; a fenced router discards it (R306, R319). -/
def serveSpanIn (r : Nat) (p : Packet) (y : Sys) : Sys :=
  if y.dev.noc.fenced.contains r then fenceDrop y r else placeFlit y r (bits p.aux 0 8) (bits p.aux 8 24) p.payload

def execMeshSpanIn (router : Site) (p : Packet) (s : State) : Host.Outcome State Fault Refusal :=
  onSys (packetAt 5 router p (payloadChecked router p (serveSpanIn router p))) s

/-- A SPAN_OUT packet at its port: the flit leaves the sluice of its column and waits for its slot (R306, R482). -/
def serveSpanOut (r : Nat) (p : Packet) (y : Sys) : Sys :=
  match (List.range 12).find? fun q => portSite q == r with
  | none => y
  | some q =>
    let flow := bits p.aux 0 8
    let n := bits p.aux 8 24
    let y := if p.srcEp = 2 then y.onCore p.src fun c =>
        { c with spanFlits := c.spanFlits.eraseP fun f => f.1 == flow && f.2.1 == n
                 flows := c.flows.map fun a => if a.flow == flow && a.send then { a with sent := a.sent + 1 } else a }
      else y
    y.onPort q fun x => { x with sendQ := x.sendQ ++ [mkFlit y.dev 1 0x7FF false flow n p.payload] }

def execMeshSpanOut (router : Site) (p : Packet) (s : State) : Host.Outcome State Fault Refusal :=
  onSys (packetAt 6 router p (payloadChecked router p (serveSpanOut router p))) s

/-- A request is lost or refused: it is sent again once; a second failure is an uncorrectable outcome for its requester (R280,
R492). -/
def requestLost (y : Sys) (r : MeshReq) : Sys :=
  let y := meshRecord y r.pkt.src r.pkt.kind 1
  if !r.resent then
    let y := y.onFaults fun f => { f with resends := sat32 (f.resends + 1) }
    y.onNoc fun n => { n with reqs := n.reqs.map fun x => if x.tag == r.tag then { x with resent := true } else x
                              out := n.out ++ [(r.pkt.src, r.pkt)] }
  else meshFailed y r

/-- The request that a response answers. -/
def reqOf (y : Sys) (p : Packet) : Option MeshReq := y.dev.noc.reqs.find? fun r => r.tag == p.tag && r.pkt.src == p.dest

/-- A READ_DATA reaches its requester: its step goes on with the data, or ends where the memory found it uncorrectable (R280,
R303; DEDUCED, log 21). -/
def serveReadData (p : Packet) (y : Sys) : Sys :=
  match reqOf y p with
  | none => y
  | some r =>
    if p.status ≠ 0 then meshFailed y r
    else if badPayload p then requestLost y r
    else
      let y := dropReq y r.tag
      match r.who with
      | .step c i => match liveCtx y (siteOf y.dev c) i 0 with
        | some x => stepData y x r.pos (p.payload.take p.len)
        | none => y
      | _ => y

def execMeshReadData (router : Site) (p : Packet) (s : State) : Host.Outcome State Fault Refusal :=
  onSys (packetAt 3 router p (serveReadData p)) s

/-- A WRITE_ACK reaches its requester and frees the kept write (R303, R492). -/
def serveWriteAck (p : Packet) (y : Sys) : Sys :=
  match reqOf y p with
  | none => y
  | some r => if p.status = 0 then dropReq y r.tag else meshFailed y r

def execMeshWriteAck (router : Site) (p : Packet) (s : State) : Host.Outcome State Fault Refusal :=
  onSys (packetAt 4 router p (serveWriteAck p)) s

/-- Transfers that the DMA engine of a column has recorded. -/
def recordedOf (d : Dev) (c : Nat) : Nat := (d.noc.pathReset.filter fun t => (t.step.map Prod.fst) == some c).length

/-- A transfer of a step ends with PATH_RESET. A timed step ends with that OUTCOME; a transfer of an untimed host move is recorded
for the reissue, up to 64 of a core, and lost with its step beyond them (R186, R417, R418). -/
def pathReset (y : Sys) (t : Transfer) : Sys :=
  match t.step with
  | none => y
  | some (c, i) =>
    let site := siteOf y.dev c
    match liveStep (y.core site) i with
    | none => (match t with
      | .mesh r => meshRecord y r.pkt.src r.pkt.kind 0
      | .host _ => y)
    | some s =>
      if isHostMove s.desc && decide (recordedOf y.dev c < 64) then y.onNoc fun n => { n with pathReset := n.pathReset ++ [t] }
      else endStep (abandonReplay y site 7) site i 7 0 0

/-- An ERROR reaches its requester with a status (R303, R492). -/
def serveError (p : Packet) (y : Sys) : Sys :=
  match reqOf y p with
  | none => y
  | some r =>
    if p.status = 3 then pathReset (dropReq y r.tag) (.mesh r)
    else requestLost y r

def execMeshError (router : Site) (p : Packet) (s : State) : Host.Outcome State Fault Refusal :=
  onSys (packetAt 7 router p (serveError p)) s

/-- MESH_REQUEST_TIMEOUT: no response for 4,096 cycles (R492). -/
def meshTimeout (tag : Nat) (y : Sys) : Sys :=
  match y.dev.noc.reqs.find? fun r => r.tag == tag with
  | none => y
  | some r => requestLost y r

def execMeshRequestTimeout (tag : Nat) (s : State) : Host.Outcome State Fault Refusal := onSys (meshTimeout tag) s

/- Fences and admissions (R121, R318 to R322). -/

/-- Fences a core for a cause that its own rule names; 1 is a load failure, 2 a replay that failed twice (R318, R416). -/
def fenceFor (y : Sys) (site why : Nat) : Sys :=
  (fenceCore y site).onNoc fun n => { n with fenceWhy := assocSet n.fenceWhy site why }

/-- FENCE_ORDER: a fence order reaches a site's stop; one with a parity error is lost and stops every partition (R317, R318,
R492). -/
def fenceOrder (site : Nat) (parityError : Option Site) (y : Sys) : Sys :=
  match y.dev.noc.fences.find? fun f => f.site == site with
  | none => y
  | some f =>
    let y := y.onNoc fun n => { n with fences := n.fences.erase f }
    withParity y 24 site parityError (orderLost y site 1) <|
      let y := if f.why = 0 then fenceCore y site else fenceFor y site f.why
      if f.holdCause = 0 then y else requestHold y f.holdCause 0

def execFenceOrder (site : Site) (parityError : Option Site) (s : State) : Host.Outcome State Fault Refusal :=
  onSys (fenceOrder site parityError) s

/-- FILL and DRAIN of a site, as the resource map reports them (R80, R119). -/
def siteFill (y : Sys) (site : Nat) : Nat := (y.core site).fillLat
def siteDrain (y : Sys) (site : Nat) : Nat := (y.core site).drainLat

/-- An image's assumed latencies match the sites of its columns (R80, R121). -/
def latencyMatches (y : Sys) (i : Image) : Bool :=
  i.columns.all fun c => nth i.fillB c 0 == siteFill y (siteOf y.dev c) && nth i.drainB c 0 == siteDrain y (siteOf y.dev c)

/-- Compares every loaded image that drives a column with its site's latencies (R121). -/
def compareImages (y : Sys) (cols : List Nat) : Sys :=
  let again := fun (i : Image) => if i.columns.any cols.contains then { i with latencyBad := !latencyMatches y i } else i
  y.onSched fun s => { s with images := s.images.map again }

/-- The incarnation after an incarnation (R321). -/
def nextInc (n : Nat) : Nat := if 255 ≤ n then 1 else n + 1

/-- Advances the incarnation of a column. -/
def advanceInc (y : Sys) (c : Nat) : Sys :=
  y.onMap fun m => { m with cols := upd m.cols c fun e => { e with incarnation := nextInc e.incarnation } }

/-- ADMIT_INCARNATION_WRITE: at one beat boundary the new incarnations of an admission (R321, R322). -/
def admitWrite (y : Sys) : Sys :=
  match y.dev.noc.admits.find? fun a => !a.written with
  | none => y
  | some a =>
    let y := y.each a.cols advanceInc
    let y := compareImages y a.cols
    y.onNoc fun n => { n with admits := n.admits.map fun x => if x == a then { x with written := true } else x }

def execAdmitIncarnationWrite (s : State) : Host.Outcome State Fault Refusal := onSys admitWrite s

/-- Lifts the fence of a column and reports its admission (R322, R381). -/
def liftFence (y : Sys) (c : Nat) : Sys :=
  let site := siteOf y.dev c
  let y := y.onNoc fun n => { n with fenced := takeOut n.fenced site, fenceWhy := assocDel n.fenceWhy site }
  let y := y.onCore site fun k => { k with seqState := 0 }
  event y 0x0601 (leBytes 1 c ++ leBytes 1 site ++ leBytes 1 (colInc y.dev c))

/-- FENCE_LIFT: at the next beat boundary the fences are lifted; after the waves the device enters CORES_UP (R322, R397, R414). -/
def fenceLift (y : Sys) : Sys :=
  match y.dev.noc.admits.find? fun a => a.written with
  | none => y
  | some a =>
    let y := y.onNoc fun n => { n with admits := n.admits.erase a }
    let y := y.each a.cols liftFence
    let y := if a.byCommand then complete y 7 3 0 [] else y
    if a.wave then
      let y := if a.cols.isEmpty || y.dev.boot.power != .linksQualified then y else enterPower y .coresUp
      complete (y.onBoot fun b => { b with wavesBusy := false }) 1 4 0 []
    else y

def execFenceLift (s : State) : Host.Outcome State Fault Refusal := onSys fenceLift s

/-- SHUTTLE_CTRL_TIMEOUT: a CTRL-class message is sent again at most 3 times; then its sender counts as a control-complex fault
(R492). -/
def shuttleCtrlTimeout (node : Nat) (y : Sys) : Sys :=
  let tries := ((y.dev.noc.ctrl.find? fun c => c.node == node).map CtrlMsg.tries).getD 0
  let site := nodeStop y.dev.noc.failed node 0
  let others := y.dev.noc.ctrl.filter fun c => c.node != node
  let y := faultRecCc (shuttleError y site) { cls := 0x0A, site := site, location := site, detail := 5, count := 1 }
  if tries < 3 then y.onNoc fun n => { n with ctrl := others ++ [⟨node, tries + 1⟩] }
  else firmwareFault (y.onNoc fun n => { n with ctrl := others }) 0 0

def execShuttleCtrlTimeout (node : Nat) (s : State) : Host.Outcome State Fault Refusal := onSys (shuttleCtrlTimeout node) s

/- Migration (R249 to R252) and back-invalidation (R240). -/

/-- Sites that may be spares: they carry no column, their memory and router are usable (R229). -/
def spareCandidates (d : Dev) (except : List Nat) : List Nat :=
  (List.range 18).filter fun s =>
    (colAt d s).isNone && d.boot.memOk.contains s && !d.map.badMem.contains s && routerUsable d.noc.failed s && !except.contains s

/-- Renumbers the spare sites (R229). -/
def renumberSpares (y : Sys) (except : List Nat) : Sys :=
  let l := spareCandidates y.dev except
  y.onMap fun m => { m with spare0 := nth l 0 31, spare1 := nth l 1 31 }

/-- MIGRATION's word in its event and register (R253). -/
def migStatus (m : Migration) : Nat :=
  m.state + m.col * 2 ^ 2 + m.fromSite * 2 ^ 6 + m.toSite * 2 ^ 11 + m.granules * 2 ^ 16 + b2n m.lost * 2 ^ 24 + b2n m.poisoned * 2 ^ 25

/-- Blocks of a column. -/
def colBlocks : Nat := colBytes / 64

/-- The record of a migration (R252, R495). -/
def migRecord (y : Sys) (granule detail count off : Nat) : Sys :=
  faultRecCc y (faultSite y y.dev.map.mig.fromSite
    { cls := 0x0D, location := granule, detail := detail, count := count, addr := dramAddr y.dev.map.mig.col off })

/-- The contents are lost: the target is filled with Protected zeros, and the old site's memory controller counts as bad (R229, R252). -/
def migrationLost (y : Sys) : Sys :=
  let m := y.dev.map.mig
  let lo := dramKey m.toSite 0
  let y := (y.zero lo colBytes).onProt fun p => { p with dramErr := p.dramErr.filter fun e => !(decide (lo ≤ e.1) && decide (e.1 < lo + colBytes)) }
  let y := y.onMap fun x => { x with
    mig := { x.mig with lost := true, state := 2, next := colBlocks }, badMem := addTo x.badMem m.fromSite }
  migRecord y 0 2 colBlocks 0

/-- Copies one block: a Protected block through the checker, an Open one raw; an uncorrectable one poisons its target (R250,
R252). -/
def copyBlock (y : Sys) : Sys :=
  let m := y.dev.map.mig
  let off := 64 * m.next
  let src := dramKey m.fromSite off
  let dst := dramKey m.toSite off
  let clear := fun (y : Sys) (ps : List Nat) => y.onProt fun p => { p with dramErr := errSet dst ps p.dramErr }
  if isOpen y m.col (granuleOf off) then (clear y []).put dst (y.getN src 64)
  else
    let r := readBank y src 64 .migration
    match r.1 with
    | .ok b => (clear r.2 []).put dst b
    | .error _ =>
      let y := (clear r.2 [64, 65, 66]).onMap fun x =>
        { x with mig := { x.mig with poisoned := true, poisonCount := sat32 (x.mig.poisonCount + 1) } }
      migRecord y (granuleOf off) 1 1 off

/-- MIGRATION_BLOCK_COPY; `faulty` says that the old site's memory controller is itself at fault (R250, R252). -/
def blockCopy (faulty : Bool) (y : Sys) : Sys :=
  if y.dev.map.mig.state ≠ 1 ∨ y.dev.noc.fabricReset = true then y
  else if faulty then migrationLost y
  else
    (copyBlock y).onMap fun x =>
      let n := x.mig.next + 1
      { x with mig := { x.mig with next := n, granules := n / 2 ^ 20, state := if colBlocks ≤ n then 2 else 1 } }

def execMigrationBlockCopy (faulty : Bool) (s : State) : Host.Outcome State Fault Refusal := onSys (blockCopy faulty) s

/-- MIGRATION_SWITCH: every column map names the target site, and the incarnation advances in the same beat (R121, R229, R250,
R322). -/
def migrationSwitch (y : Sys) : Sys :=
  let m := y.dev.map.mig
  if m.state ≠ 2 ∨ siteOf y.dev m.col ≠ m.fromSite then y
  else
    let y := y.onMap fun x => { x with cols := upd x.cols m.col fun e => { e with site := m.toSite } }
    let y := advanceInc y m.col
    let y := (y.onCore m.toSite fun c => { c with logical := m.col, mapped := true }).onCore m.fromSite fun c =>
      { c with logical := 0, mapped := false }
    let y := y.onBoot fun b => { b with colFailed := takeOut b.colFailed m.col }
    renumberSpares (compareImages y [m.col]) [m.fromSite]

def execMigrationSwitch (s : State) : Host.Outcome State Fault Refusal := onSys migrationSwitch s

/-- MIGRATION_OLD_SITE_IDLE: no request of the old site is outstanding: mirroring ends, the spares are renumbered (R229, R250,
R253). -/
def oldSiteIdle (y : Sys) : Sys :=
  let m := y.dev.map.mig
  let busy := (y.dev.noc.reqs.any fun r => r.pkt.dest == m.fromSite && decide (r.pkt.destEp < 2))
    || y.dev.prot.banks.any fun b => b.1 / 384 == m.fromSite && !b.2.waiting.isEmpty
  if m.state ≠ 2 || siteOf y.dev m.col != m.toSite || busy then y
  else
    let y := y.onMap fun x => { x with
      mig := { x.mig with state := 3, mirroring := false }
      cols := upd x.cols m.col fun e => { e with migrating := false } }
    let y := renumberSpares y []
    complete (event y 0x0302 (leBytes 4 (migStatus y.dev.map.mig))) 4 3 0 []

def execMigrationOldSiteIdle (s : State) : Host.Outcome State Fault Refusal := onSys oldSiteIdle s

/-- A granule of a pending swap still has host lines or transactions. -/
def stillHeld (y : Sys) (id : Nat) : Bool :=
  let r := granuleRange (id / 192) (id % 192)
  lineBusy y r.1 (2 ^ 26)

/-- BACK_INVALIDATION_DONE: the granules whose every host line has been invalidated no longer hold a swap back (R240). -/
def backInvDone (y : Sys) : Sys :=
  y.onSched fun s => { s with swap := s.swap.map fun p => { p with backInv := p.backInv.filter (stillHeld y), since := y.dev.beat.wbc } }

def execBackInvalidationDone (s : State) : Host.Outcome State Fault Refusal := onSys backInvDone s

end Sys2Proof.Machine
end

