-- ==== Sys2Proof/Machine/SpanLinks.lean ====
section
/-! DEFINITION. Span ports: flits, training, delay, qualification, lanes, placement, loss, admission (R181, R327 to R349, R483,
R484). -/

namespace Sys2Proof.Machine

/- Flits (R327, R328, R331, R342, R343, R346). -/

/-- A received flit's own checks: whether it may be used; discards are counted (R328). -/
def flitOk (y : Sys) (p : Nat) (f : Flit) : Bool × Sys :=
  let y := if f.corrected = 0 then y else y.onPort p fun x => { x with corr := sat32 (x.corr + f.corrected) }
  if f.uncorr then (false, y.onPort p fun x => { x with uncorr := sat32 (x.uncorr + 1) })
  else if f.crc ≠ flitCrc f ∨ 5 < f.cls ∨ f.resv = true then (false, y.onPort p fun x => { x with crc := sat32 (x.crc + 1) })
  else (true, if f.cls = 5 then y else wakePort y p)

/-- Sites on which a flow is armed for receiving. -/
def armedSites (y : Sys) (flow n : Nat) : List Nat :=
  (List.range 18).filter fun s => (y.core s).flows.any fun a => a.flow == flow && !a.send && decide (n < a.flits)

/-- Copies a flit into a port's transit buffer of 128 flits; the oldest is discarded when it would overflow (R331, R332). -/
def toTransit (y : Sys) (q : Nat) (f : Flit) : Sys :=
  y.onPort q fun x =>
    if 128 ≤ x.transit.length then
      { x with transit := x.transit.drop 1 ++ [(y.dev.beat.wbc, f)], transitN := sat32 (x.transitN + 1) }
    else { x with transit := x.transit ++ [(y.dev.beat.wbc, f)] }

/-- Record slots of a CONTROL flit whose REC_TYPE is reserved (R329). -/
def reservedRecords (f : Flit) : Nat :=
  ((List.range 8).filter fun i => !([0, 1, 2, 3, 4, 5, 8, 10, 11].contains (leNat (slice f.payload (32 * i) 1)))).length

/-- DATA_FLIT: placed, forwarded, both, or discarded as FLOW_UNARMED; of a CONTROL flit the records of
reserved types are counted, and its other records are commands of their own (R181, R329, R331, R343). -/
def dataFlit (p : Nat) (f : Flit) (y : Sys) : Sys :=
  let c := flitOk y p f
  let y := if c.1 && f.cls == 2 then c.2.onPort p fun x => { x with crc := sat32 (x.crc + reservedRecords f) } else c.2
  if !c.1 || f.cls != 1 || !portCarries (y.port p) then y
  else if isStale y.dev f.srcId f.srcInc then countStale y p
  else
    let sites := armedSites y f.flow f.seq
    let fwd := (List.range 12).filter fun q => portForwards y q f.flow
    if sites.isEmpty && fwd.isEmpty then y.onPort p fun x => { x with unarmed := sat32 (x.unarmed + 1) }
    else
      let y := y.each sites fun y s => if y.dev.noc.fenced.contains s then fenceDrop y s else placeFlit y s f.flow f.seq f.payload
      y.each fwd fun y q => toTransit y q f

def execDataFlit (port : Port) (f : Flit) (s : State) : Host.Outcome State Fault Refusal := onSys (dataFlit port f) s

/-- Slots that the tables of an image give a flow in the run's beats up to and with beat b, over all ports (R180). -/
def flowSlots (y : Sys) (i : Image) (flow b : Nat) : Nat :=
  ((List.range 12).flatMap fun p => (slotTable y i p).map fun e =>
    (min (e.1 + e.2.1) (b + 1) - e.1) * (e.2.2.filter fun v => v.toNat == flow).length).sum

/-- SBC in the beat k beats ahead, as far as hold points are closed (R45, R62). -/
def sbcAhead (d : Dev) (k : Nat) : Nat :=
  sbc d + ((List.range k).filter fun j => !isHoldBeat d.beat (d.beat.wbc + 1 + j)).length

/-- Flits of a flow whose slots begin within 4 beats, so that their reads may issue (R484). -/
def flitsDue (y : Sys) (x : StepCtx) (flow : Nat) : Nat :=
  let r := nth y.dev.sched.runs x.part {}
  let start := r.start + r.run * x.img.length
  if sbcAhead y.dev 4 < start then 0 else flowSlots y x.img flow (sbcAhead y.dev 4 - start)

/-- SPAN_FLIT_READ: the next flit of a send is read into the span section, no earlier than 4 beats before its slot (R181, R483, R484). -/
def spanFlitRead (col flow : Nat) (y : Sys) : Sys :=
  let site := siteOf y.dev col
  let c := y.core site
  match c.flows.find? fun a => a.flow == flow && a.send with
  | none => y
  | some a =>
    let n := a.sent + (c.spanFlits.filter fun f => f.1 == flow).length
    match liveCtx y site a.index 0 with
    | none => y
    | some x =>
      if a.flits ≤ n || flitsDue y x flow ≤ n || y.dev.noc.fenced.contains site || 1280 ≤ c.spanFlits.length then y
      else stepReads y x (a.addr + 256 * n) 256 fun y b => y.onCore site fun c => { c with spanFlits := c.spanFlits ++ [(flow, n, b)] }

def execSpanFlitRead (col : Col) (flow : Nat) (s : State) : Host.Outcome State Fault Refusal := onSys (spanFlitRead col flow) s

/-- A multicast group: input port, whether it is delivered here, output mask; none when it is not defined (R341, R342). -/
def groupOf (y : Sys) (g : Nat) : Option (Nat × Bool × Nat) :=
  if y.dev.sched.haveActive then
    let b := cfg y 7 (0x410 + 8 * g) 1 0
    if g < 16 then some (bits b 0 4, bitAt b 4, bits (cfg y 7 (0x412 + 8 * g) 2 0) 0 12) else none
  else
    let s := y.dev.span
    if g = 0 ∧ s.bootValid = true then some (s.bootIn, s.bootLocal, s.bootOut) else none

/-- UROUTE of a device (R341). -/
def uroute (y : Sys) (id : Nat) : Nat := bits (cfg y 7 (0x10 + id / 2) 1 0xFF) (4 * (id % 2)) 4

/-- Counts a transit or management-route event at a port (R332, R342). -/
def transitEvent (y : Sys) (p : Nat) : Sys := y.onPort p fun x => { x with transitN := sat32 (x.transitN + 1) }

/-- Queues a management flit at a port that carries traffic; else it is discarded (R342). -/
def toMgmt (y : Sys) (q : Nat) (f : Flit) : Sys :=
  if portCarries (y.port q) then y.onPort q fun x => { x with mgmt := x.mgmt ++ [(y.dev.beat.wbc, f)] } else transitEvent y q

/-- The incarnation check of a management flit; while the table is all 0, group 0 is accepted from any source (R343). -/
def mgmtStale (d : Dev) (f : Flit) : Bool :=
  if d.span.incs.all fun e => e.2 == 0 then !(f.mcast && f.dst == 0) else isStale d f.srcId f.srcInc

/-- A management flit is meant for this device (R342). -/
def mgmtHere (y : Sys) (p : Nat) (f : Flit) : Bool :=
  if f.mcast then (match groupOf y f.dst with
    | some g => g.1 == p && g.2.1
    | none => false)
  else f.dst == y.dev.span.deviceId

/-- Routes a management flit by the multicast and unicast tables; before the first set every unicast travels along group 0
(R342). -/
def mgmtRoute (y : Sys) (p : Nat) (f : Flit) : Sys :=
  if f.mcast || !y.dev.sched.haveActive then
    match groupOf y (if f.mcast then f.dst else 0) with
    | none => transitEvent y p
    | some g => if g.1 = p then y.each (bitList 12 g.2.2) fun y q => toMgmt y q f else transitEvent y p
  else if f.dst = y.dev.span.deviceId then y
  else if uroute y f.dst < 12 then toMgmt y (uroute y f.dst) f
  else transitEvent y p

/-- The checks of a management flit: whether it goes on (R328, R343); a firmware flit with another FW_KIND does not (R432). -/
def mgmtOk (y : Sys) (p : Nat) (f : Flit) : Bool × Sys :=
  let c := flitOk y p f
  let y := c.2
  if !c.1 || f.cls != 4 || !portCarries (y.port p) then (false, y)
  else if f.flow = 0xFF ∧ bits f.seq 20 4 ≠ 1 ∧ bits f.seq 20 4 ≠ 2 then (false, y.onPort p fun x => { x with crc := sat32 (x.crc + 1) })
  else if mgmtStale y.dev f then (false, countStale y p)
  else (true, y)

/-- MGMT_FLIT: delivered or routed; what a delivered firmware flit does is the effect of FW_PIECE and END_MARKER (R342). -/
def mgmtFlit (p : Nat) (f : Flit) (y : Sys) : Sys :=
  let c := mgmtOk y p f
  if c.1 then mgmtRoute c.2 p f else c.2

def execMgmtFlit (port : Port) (f : Flit) (s : State) : Host.Outcome State Fault Refusal := onSys (mgmtFlit port f) s

/-- HOLD_IDLE_FLIT: a port that carries traffic will be PAUSED at the next beat boundary (R346). -/
def holdIdleFlit (p : Nat) (f : Flit) (y : Sys) : Sys :=
  let c := flitOk y p f
  if c.1 && f.cls == 5 && portCarries (c.2.port p) then c.2.onPort p fun x => { x with holdIdle := true } else c.2

def execHoldIdleFlit (port : Port) (f : Flit) (s : State) : Host.Outcome State Fault Refusal := onSys (holdIdleFlit port f) s

/- Loss (R347, R348). -/

/-- What follows when a port declares its partner lost: the flag, the hold, and the stop at the next beat boundary; a pending lane
switch is cancelled (R348). -/
def lossActions (y : Sys) (p : Nat) : Sys :=
  let y := y.onPort p fun x => { x with lost := true, lossStop := true, switch := none, holdIdle := false }
  if anyLive y.dev then requestHold y 8 0 else y

/-- A port that carries traffic or is PAUSED. -/
def portLive (x : PortS) : Bool := portCarries x || x.state == .paused

/-- A port declares its partner lost and enters LOST (R347, R348). -/
def partnerLost (y : Sys) (p : Nat) : Sys := lossActions (setPort y p .lost) p

/-- CODEWORD_LOCK_LOSS: absent for 24 consecutive beats (R347). -/
def codewordLockLoss (p : Nat) (y : Sys) : Sys := if portLive (y.port p) then partnerLost y p else y

def execCodewordLockLoss (port : Port) (s : State) : Host.Outcome State Fault Refusal := onSys (codewordLockLoss port) s

/-- HOLD_IDLE_TIMEOUT: hold-idle has lasted 125,000 beats (R347). -/
def holdIdleTimeout (p : Nat) (y : Sys) : Sys :=
  let x := y.port p
  if x.state = .paused ∧ x.pauseSince + 125000 ≤ y.dev.beat.wbc then partnerLost y p else y

def execHoldIdleTimeout (port : Port) (s : State) : Host.Outcome State Fault Refusal := onSys (holdIdleTimeout port) s

/- LINK_HELLO (R330, R335, R336, R340). -/

/-- A partner that is not the expected one: MISPLACED, with the loss actions where the port carried traffic (R340, R347). -/
def misplaced (y : Sys) (p : Nat) (h : Hello) : Sys :=
  let live := portLive (y.port p)
  let y := setPort (y.onPort p fun x => { x with misplaced := true }) p .misplaced
  let y := event y 0x0202 (leBytes 1 p ++ leBytes 2 h.id ++ leBytes 1 h.port)
  if live then lossActions y p else y

/-- The one-way delay that a hello shows, in core cycles rounded up (R335). -/
def helloDelay (h : Hello) : Nat := ceilDiv ((h.arrival + 2 * 2 ^ 32 - h.echoTime - h.turnaround) % 2 ^ 32) 2

/-- D for the larger of the two one-way delays (R335). -/
def delayBeats (t : Nat) : Nat := max 1 (ceilDiv (t + 416) 64)

/-- LINK_HELLO: the partner is recorded and compared; in MEASURING the delay is measured, and fixed once both ends hold each
other's value (R330, R335, R336, R340). -/
def linkHello (p : Nat) (h : Hello) (y : Sys) : Sys :=
  let x := y.port p
  if !portTrained x && x.state != .misplaced then y
  else
    let y := wakePort y p
    let y := y.onPort p fun x => { x with pId := h.id, pPort := h.port, pInc := h.inc, pValid := true, lastHelloTx := h.txTime, lastHelloAt := h.arrival }
    let x := y.port p
    if x.state = .misplaced then y
    else if h.id ≠ x.expId ∨ h.port ≠ x.expPort then misplaced y p h
    else if x.state ≠ .measuring ∨ h.echoTime = 0 then y
    else
      let t := helloDelay h
      let y := y.onPort p fun x => { x with myOneWay := some t }
      if !h.oneWayValid then y
      else
        let big := max t h.oneWay
        if 64 * 63 < big + 416 then setPort y p .misplaced
        else
          let d := delayBeats big
          setPort (y.onPort p fun x => { x with delay := d, measured := true, pad := 16 * (64 * d - t), qualDone := false, lanePass := 0, laneFail := 0 }) p .qualifying

def execLinkHello (port : Port) (h : Hello) (s : State) : Host.Outcome State Fault Refusal := onSys (linkHello port h) s

/- Lanes (R338, R339). -/

/-- A lane switch: the later beat and the intersection of the masks of both ends (R338). -/
def addSwitch (x : PortS) (mask sBeat : Nat) : PortS :=
  match x.switch with
  | none => { x with switch := some ⟨Nat.land x.lanes mask, sBeat⟩ }
  | some s => { x with switch := some ⟨Nat.land s.mask mask, max s.sBeat sBeat⟩ }

/-- LANE_STATE arrives from the partner (R338). -/
def laneState (p mask switchWbc : Nat) (y : Sys) : Sys :=
  let y := wakePort y p
  if portLive (y.port p) then y.onPort p fun x => addSwitch x (mask % 16) switchWbc else y

def execLaneState (port : Port) (mask switchWbc : Nat) (s : State) : Host.Outcome State Fault Refusal :=
  onSys (laneState port mask switchWbc) s

/-- LANE_FAILURE: declared at a beat boundary w; the switch is at the first multiple of 8 at or after w + 2D + 4 (R338). -/
def laneFailure (p lane : Nat) (y : Sys) : Sys :=
  let x := y.port p
  if !portLive x || !bitAt x.lanes lane then y
  else
    let s := ceilDiv (y.dev.beat.wbc + 2 * x.delay + 4) 8 * 8
    y.onPort p fun x => { addSwitch x (15 - 2 ^ lane) s with lanesFailed := Nat.lor x.lanesFailed (2 ^ lane) }

def execLaneFailure (port : Port) (lane : Fin 4) (s : State) : Host.Outcome State Fault Refusal := onSys (laneFailure port lane) s

/-- Lanes of a mask. -/
def laneCount (m : Nat) : Nat := (bitList 4 m).length

/-- Partitions whose running image needs all lanes of a port stop, and a hold is requested (R339). -/
def degradeStops (y : Sys) (p : Nat) : Sys :=
  let hit := (List.range 4).filter fun q => partLive y.dev q && (match runImage y.dev q with
    | some i => i.ports.contains p && !i.ports3.contains p
    | none => false)
  if hit.isEmpty then y else requestHold (y.each hit faultStop) 8 0

/-- LANE_SWITCH at S: DEGRADED on the masked lanes, or LOST with fewer than 3 (R338, R339, R347). -/
def laneSwitch (p : Nat) (y : Sys) : Sys :=
  let x := y.port p
  match x.switch with
  | none => y
  | some s =>
    if y.dev.beat.wbc < s.sBeat || !portLive x then y
    else if laneCount s.mask < 3 then partnerLost y p
    else
      let y := y.onPort p fun x => { x with
        switch := none, lanes := s.mask, lanesFailed := Nat.lor x.lanesFailed (15 - s.mask), degradeEvent := true, wasDegraded := true }
      degradeStops (if x.state = .paused then y else setPort y p .degraded) p

def execLaneSwitch (port : Port) (s : State) : Host.Outcome State Fault Refusal := onSys (laneSwitch port) s

/- Training and qualification (R334, R337, R402). -/

/-- A port as training begins; fast retraining needs FAST, a warm start and saved coefficients (R337, R349, R402). -/
def startTraining (warm : Bool) (x : PortS) : PortS :=
  { x with lanes := 0, lanesFailed := 0, fastNow := x.fast && warm && x.coeffs, pId := 0, pPort := 0, pInc := 0, pValid := false
           delay := 0, measured := false, pad := 0, myOneWay := none, lastHelloTx := 0, lastHelloAt := 0, switch := none
           transit := [], recs := [], mgmt := [], sendQ := [], wasDegraded := false, holdIdle := false, lossStop := false, idleElectric := false }

/-- A write of SPAN_PORT_PLACE: fields are stored; a cleared USE puts the port in DOWN, RETRAIN starts training,
except at a router that has failed or is cut off, where the port stays down (R307, R334, R349). -/
def placeWrite (p : Nat) (v : W32) (y : Sys) : Sys :=
  let n := v.toNat
  let y := y.onPort p fun x => { x with expId := bits n 0 11, expPort := bits n 12 4, use := bitAt n 16, fast := bitAt n 17 }
  let x := y.port p
  if !x.use then
    settleLinks (setPort (y.onPort p fun x => { x with idleElectric := true, switch := none, holdIdle := false, lossStop := false }) p .down)
  else if bitAt n 18 && routerUsable y.dev.noc.failed (portSite p) && (x.state == .down || x.state == .lost || x.state == .misplaced) then
    setPort (y.onPort p (startTraining y.dev.boot.warmStart)) p .training
  else y

/-- SPAN_PORT_RETRAIN: a write with RETRAIN set. -/
def execSpanPortRetrain (port : Port) (value : W32) (s : State) : Host.Outcome State Fault Refusal := onSys (placeWrite port value) s

/-- SPAN_PORT_USE_CLEAR: a write with USE clear. -/
def execSpanPortUseClear (port : Port) (value : W32) (s : State) : Host.Outcome State Fault Refusal :=
  onSys (fun y => placeWrite port value y) s

/-- TRAINING_LOCK: at least 3 lanes hold codeword lock (R334). -/
def trainingLock (p lanes : Nat) (y : Sys) : Sys :=
  if (y.port p).state = .training ∧ 3 ≤ laneCount lanes then
    setPort (y.onPort p fun x => { x with lanes := lanes % 16 }) p .measuring
  else y

def execTrainingLock (port : Port) (lanes : Nat) (s : State) : Host.Outcome State Fault Refusal := onSys (trainingLock port lanes) s

/-- A port has been in its state for a number of beats; a load of the WBC meanwhile hides none of them (R334, R337; DEDUCED, log 69). -/
def stateLasted (y : Sys) (p beats : Nat) : Bool :=
  let x := y.port p
  decide (x.stateAt + beats ≤ y.dev.beat.wbc) || decide (y.dev.beat.wbc < x.stateAt)

/-- TRAINING_TIMEOUT: fewer than 3 lanes locked within 3,125,000 beats of full training or 31,250 of fast retraining (R334). -/
def trainingTimeout (p : Nat) (y : Sys) : Sys :=
  let x := y.port p
  if x.state = .training ∧ stateLasted y p (if x.fastNow then 31250 else 3125000) then setPort (y.onPort p fun x => { x with idleElectric := true }) p .down else y

def execTrainingTimeout (port : Port) (s : State) : Host.Outcome State Fault Refusal := onSys (trainingTimeout port) s

/-- Beats of a qualification window: 10^13 line bits of a lane after full training, 10^12 after fast retraining, at 13,600 in a beat
(R325, R337). -/
def qualBeats (x : PortS) : Nat := ceilDiv (if x.fastNow then 10 ^ 12 else 10 ^ 13) 13600

/-- QUALIFICATION_END, when the window has passed: READY with 4 lanes passed, DEGRADED with 3, else DOWN (R337). -/
def qualificationEnd (p passed : Nat) (y : Sys) : Sys :=
  let x := y.port p
  if x.state ≠ .qualifying ∨ stateLasted y p (qualBeats x) = false then y
  else
    let ok := Nat.land passed x.lanes
    let n := laneCount ok
    let y := y.onPort p fun x => { x with
      lanePass := ok, laneFail := 15 - ok, qualDone := true, qualLong := !x.fastNow
      lanes := if 3 ≤ n then ok else 0, lanesFailed := 15 - ok, coeffs := x.coeffs || decide (3 ≤ n), idleElectric := decide (n < 3) }
    setPort y p (if n = 4 then .ready else if n = 3 then .degraded else .down)

def execQualificationEnd (port : Port) (passed : Nat) (s : State) : Host.Outcome State Fault Refusal :=
  onSys (qualificationEnd port passed) s

/-- SPAN_SELF: DEVICE_ID is stored unless ID_LOCKED is 1 (R349). -/
def spanSelfWrite (v : W32) (y : Sys) : Sys :=
  if y.dev.span.ports.any fun p => p.state != .down then y
  else y.onSpan fun s => { s with deviceId := bits v.toNat 0 11 }

def execSpanSelfWrite (value : W32) (s : State) : Host.Outcome State Fault Refusal := onSys (spanSelfWrite value) s

/- Admission (R344, R345). -/

/-- The bytes of an ADMIT record (R344). -/
def admitBytes (r : AdmitRec) : List Byte :=
  leBytes 1 0x0B ++ leBytes 1 r.kind ++ leBytes 2 r.target ++ leBytes 1 r.newInc ++ leBytes 1 r.term ++ leBytes 2 r.admSeq
    ++ leBytes 8 r.effectWbc ++ leBytes 8 r.issueWbc ++ leBytes 8 0

/-- Keeps an ADMIT record for its beat and floods it (R61, R329, R344). -/
def takeAdmit (y : Sys) (except : Option Nat) (r : AdmitRec) : Sys :=
  let y := y.onSpan fun s => { s with
    admits := s.admits ++ [r]
    admKeys := (r.term, r.admSeq, y.dev.beat.wbc) :: s.admKeys.filter fun k => decide (y.dev.beat.wbc ≤ k.2.2 + 1024) }
  floodRec y except ⟨2, admitBytes r⟩

/-- ADMIT: ignored from a lower term, dropped as a duplicate, late, or kept and flooded (R344). -/
def admitRecord (p : Nat) (r : AdmitRec) (y : Sys) : Sys :=
  let y := wakePort y p
  if termAhead y.dev.beat.term r.term then y
  else if y.dev.span.admKeys.any fun k => k.1 == r.term && k.2.1 == r.admSeq && decide (y.dev.beat.wbc ≤ k.2.2 + 1024) then y
  else if r.effectWbc < y.dev.beat.wbc + 64 then holdLate y
  else takeAdmit y (some p) r

def execAdmitRecord (port : Port) (r : AdmitRec) (s : State) : Host.Outcome State Fault Refusal := onSys (admitRecord port r) s

/-- What an ADMIT record does at its beat (R344, R345). -/
def applyAdmit (y : Sys) (r : AdmitRec) : Sys :=
  let own := r.target == y.dev.span.deviceId
  let set := fun (y : Sys) v => y.onSpan fun s => { s with incs := assocSet s.incs r.target v }
  if r.kind = 2 then
    let y := set y 0
    if own then faultStopAll (y.onSpan fun s => { s with dismissed := true }) else y
  else if r.kind ≠ 1 then y
  else if own && y.dev.span.dismissed then event y 0x0203 (leBytes 1 r.term ++ leBytes 2 r.admSeq)
  else
    let y := set y r.newInc
    if own then
      (y.onSpan fun s => { s with selfInc := r.newInc, dismissed := false }).onBeat fun b => { b with alignLost := false, lossNow := false }
    else y

/-- ADMIT_EFFECT: the records whose EFFECT_WBC has come (R345). -/
def admitEffect (y : Sys) : Sys :=
  let due := y.dev.span.admits.filter fun r => decide (r.effectWbc ≤ y.dev.beat.wbc)
  let y := y.onSpan fun s => { s with admits := s.admits.filter fun r => !decide (r.effectWbc ≤ y.dev.beat.wbc) }
  y.each due applyAdmit

def execAdmitEffect (s : State) : Host.Outcome State Fault Refusal := onSys admitEffect s

end Sys2Proof.Machine
end

