-- ==== Sys2Proof/Machine/Boot.lean ====
section
/-! DEFINITION. The bad-unit map, column assignment, the resource map, and the boot steps SELFTEST to CHECKER (R24, R108, R119, R229,
R284 to R289, R307, R401 to R412). -/

namespace Sys2Proof.Machine

/- The bad-unit map (R406 to R408). -/

/-- Two entries name the same unit. -/
def sameUnit (u v : BadUnit) : Bool := u.kind == v.kind && u.site == v.site && u.index == v.index

/-- Adds an entry to the map; the sources of a unit that is there already are joined (R406). -/
def mergeUnit (l : List BadUnit) (u : BadUnit) : List BadUnit :=
  if l.any (sameUnit u) then
    l.map fun v => if sameUnit u v then
      { v with fuse := v.fuse || u.fuse, test := v.test || u.test, field := v.field || u.field, thisStart := v.thisStart || u.thisStart } else v
  else l ++ [u]

/-- An entry of the start-up test of this start (R406). -/
def testUnit (u : BadUnit) : BadUnit := { u with fuse := false, test := true, field := false, thisStart := true }

/-- The 8 bytes of an entry (R407). -/
def unitBytes (u : BadUnit) : List Byte :=
  leBytes 1 u.kind ++ leBytes 1 u.site ++ leBytes 1 (b2n u.fuse + 2 * b2n u.test + 4 * b2n u.field + 8 * b2n u.thisStart)
    ++ leBytes 1 0 ++ leBytes 4 u.index

/-- Test findings enter the map, each with its event (R406, R423). -/
def addFindings (y : Sys) (found : List BadUnit) : Sys :=
  y.each found fun y u =>
    let y := y.onBoot fun b => { b with badUnits := mergeUnit b.badUnits (testUnit u) }
    event y 0x0803 (unitBytes (testUnit u))

/-- Entries of a kind at a site. -/
def unitsOf (d : Dev) (kind site : Nat) : List Nat :=
  (d.boot.badUnits.filter fun u => u.kind == kind && u.site == site).map (·.index)

/-- Routers that the merged map marks bad (R307). -/
def badRouters (d : Dev) : List Nat := (List.range 18).filter fun s => !(unitsOf d 6 s).isEmpty

/-- Failed TSV lanes of a class at a site. -/
def badTsvs (d : Dev) (site cls : Nat) : List Nat := ((unitsOf d 5 site).filter fun i => bits i 16 4 == cls).map fun i => bits i 0 16

/-- More than a number of lanes of one group fail. -/
def overGroup (l : List Nat) (size limit : Nat) : Bool :=
  l.any fun a => decide (limit < (l.filter fun b => b / size == a / size).length)

/-- The memory of a site is usable (R24, R408). -/
def memUsable (d : Dev) (s : Nat) : Bool :=
  let rows := (unitsOf d 2 s).map fun i => i / 8192
  routerUsable d.noc.failed s && (unitsOf d 7 s).isEmpty && (unitsOf d 3 s).isEmpty && (unitsOf d 4 s).isEmpty
    && !(rows.any fun b => decide (64 < (rows.filter (· == b)).length))
    && !overGroup (badTsvs d s 0) 256 8 && (badTsvs d s 1).isEmpty && !overGroup (badTsvs d s 4) 2048 32

/-- The array of a site cannot be repaired (R108, R109). -/
def arrayLost (d : Dev) (s : Nat) : Bool := !arrayUsable (arrayBad d.boot.badUnits s)

/-- The core of a site is usable as far as the map says (R408). -/
def coreUsable (d : Dev) (s : Nat) : Bool :=
  routerUsable d.noc.failed s && (unitsOf d 7 s).isEmpty && (badTsvs d s 2).isEmpty && !overGroup (badTsvs d s 3) 4096 64 && !arrayLost d s

/-- A site can carry a logical column (R408). -/
def canCarry (d : Dev) (s : Nat) : Bool :=
  routerUsable d.noc.failed s && d.boot.coreOk.contains s && d.boot.memOk.contains s

/-- Good lanes of a span port or host half (R407, R412). -/
def goodLanes (d : Dev) (link : Nat) : Nat :=
  4 - ((List.range 4).filter fun l => (unitsOf d 8 0x1F).contains (l + 16 * link)).length

/-- A host half is usable: its lanes are good and its router is (R307, R408). -/
def halfUsable (d : Dev) (h : Nat) : Bool := goodLanes d (12 + h) == 4 && routerUsable d.noc.failed (if h = 0 then 7 else 10)

/- The field defect list (R409). -/

/-- An index of a kind has no reserved bit set (R407). -/
def indexOk (kind i : Nat) : Bool :=
  match kind with
  | 1 => decide (i ≤ 67) || (decide (128 ≤ i) && decide (i < 192))
  | 2 => decide (i < 2 ^ 22) && decide (bits i 0 13 < 4160) && decide (bits i 18 4 < 12)
  | 3 => decide (i < 2 ^ 22) && bits i 0 13 == 0 && decide (bits i 18 4 < 12)
  | 4 => decide (i < 64)
  | 5 => decide (i < 2 ^ 20) && decide (bits i 16 4 < 5)
  | 6 => i == 0
  | 7 => i == 0
  | 8 => decide (i < 256) && decide (bits i 0 4 < 4) && decide (bits i 4 4 < 14)
  | _ => false

/-- An entry of a list; SOURCE is ignored on input (R407). -/
def parseUnit (b : List Byte) : Option BadUnit :=
  let k := fld b 0 1
  let s := fld b 1 1
  let i := fld b 4 4
  if indexOk k i && fld b 3 1 == 0 && (if k = 8 then s == 0x1F else decide (s < 18)) then some ⟨k, s, i, false, false, true, false⟩ else none

/-- A field defect list of at most n entries; none when it is refused (R409). -/
def parseDefects (b : List Byte) (n : Nat) : Option (List BadUnit) :=
  let count := fld b 4 4
  if fld b 0 4 = 0x46444C31 ∧ count ≤ 4096 ∧ count ≤ n ∧ fld b 8 8 = Config.serial.toNat ∧ 16 + 8 * count ≤ b.length then
    ((List.range count).map fun k => parseUnit (slice b (16 + 8 * k) 8)).mapM id
  else none

/- Column assignment and the resource map (R410 to R412). -/

/-- A site carries a column in the core registers, or none (R122). -/
def markCores (y : Sys) : Sys :=
  y.each (List.range 18) fun y s =>
    let c := colAt y.dev s
    let ok := canCarry y.dev s
    let d := y.dev
    y.onCore s fun k => { k with
      logical := c.getD 0, mapped := c.isSome, bad := !ok
      spare64 := (unitsOf d 1 s).contains 64, spare65 := (unitsOf d 1 s).contains 65, chkRowBad := (unitsOf d 1 s).contains 66
      chkColBad := (unitsOf d 1 s).contains 67, dpuBad := (unitsOf d 1 s).any fun i => decide (128 ≤ i) }

/-- Gives logical columns 0 upwards to sites; incarnations stay with their columns (R228, R253, R410). -/
def assignCols (y : Sys) (sites : List Nat) : Sys :=
  let y := y.onMap fun m => { m with
    n := sites.length
    cols := (List.range 16).map fun c =>
      { nth m.cols c {} with site := nth sites c 0, valid := decide (c < sites.length), migrating := false } }
  renumberSpares (markCores y) []

/-- The core resource record of a site (R119). -/
def coreRecord (y : Sys) (s : Nat) : List Byte :=
  let k := y.core s
  leBytes 1 s ++ leBytes 1 ((colAt y.dev s).getD 0xFF) ++ leBytes 1 k.fillLat ++ leBytes 1 k.drainLat ++ leBytes 1 k.sparesUsed
    ++ leBytes 1 k.badRow0 ++ leBytes 1 k.badRow1 ++ leBytes 1 8 ++ leBytes 4 0x06000000 ++ leBytes 1 16 ++ leBytes 1 6
    ++ leBytes 1 64 ++ leBytes 1 64 ++ leBytes 2 256 ++ leBytes 2 256 ++ leBytes 12 0

/-- Ports with a usable router and a number of good lanes (R412). -/
def portsWith (d : Dev) (f : Nat → Bool) : Nat :=
  maskOf ((List.range 12).filter fun p => routerUsable d.noc.failed (portSite p) && f (goodLanes d p))

/-- The resource map (R412). -/
def resourceMap (y : Sys) : List Byte :=
  let d := y.dev
  let es := d.boot.badUnits
  leBytes 4 0x524D4150 ++ leBytes 4 (640 + 8 * es.length) ++ leBytes 1 d.map.n
    ++ leBytes 1 (b2n (d.map.spare0 != 31) + b2n (d.map.spare1 != 31)) ++ leBytes 1 (b2n d.boot.warmStart + 2 * b2n d.boot.mapFinal)
    ++ leBytes 1 0 ++ leBytes 4 (maskOf ((List.range 18).filter fun s => !canCarry d s)) ++ leBytes 2 (maskOf d.boot.colFailed)
    ++ leBytes 2 (portsWith d fun n => decide (3 ≤ n)) ++ leBytes 2 (portsWith d fun n => n == 3)
    ++ leBytes 1 (b2n (halfUsable d 0) + 2 * b2n (halfUsable d 1)) ++ leBytes 1 0 ++ leBytes 4 es.length ++ leBytes 4 0
    ++ leBytes 8 Config.serial.toNat ++ List.replicate 24 0 ++ ((List.range 18).flatMap (coreRecord y)) ++ es.flatMap unitBytes

/-- Writes the map to BOOT_MAP_ADDR, no more than BOOT_MAP_LEN bytes (R412). -/
def writeMap (y : Sys) : Sys := dwrRange y y.dev.boot.mapAddr ((resourceMap y).take y.dev.boot.mapLen) .mapOut

/- Boot steps (R401, R403). -/

/-- A step ends well. -/
def stepDone (y : Sys) : Sys := y.onBoot fun b => { b with stepResult := 2, stepError := 0, lastDone := b.busyStep, busyStep := 0 }

/-- A step is refused: it was not started, so STEP of the status stays (R401, R403, R424). -/
def stepRefuse (y : Sys) (code err : Nat) : Sys :=
  event (y.onBoot fun b => { b with stepResult := 3, stepError := err }) 0x0802 (leBytes 1 code ++ leBytes 1 err)

/-- The step that runs fails (R401, R403). -/
def stepFail (y : Sys) (code err : Nat) (fatal : Bool) : Sys :=
  let y := y.onBoot fun b => { b with busyStep := 0, stepResult := 3, stepError := err, fatal := b.fatal || fatal }
  event y 0x0802 (leBytes 1 code ++ leBytes 1 err)

/-- A step runs. -/
def stepBusy (d : Dev) (code : Nat) : Bool := d.boot.busyStep == code

/-- The order in which the steps are permitted (R401). -/
def stepPermitted (d : Dev) (code : Nat) : Bool :=
  !d.boot.fatal &&
  if code ≤ 4 then d.boot.power == .baseOn && decide (1 ≤ code) && decide (code ≤ d.boot.lastDone + 1) && decide (d.boot.lastDone ≤ code)
  else d.boot.power == .memReady && decide (code ≤ 6)

/-- GO for a step: refused while one is busy, out of order, or for a warm start without WARM_OK; else the step is busy and its own
start runs (R401, R403; DEDUCED, log 60). -/
def bootGo (code : Nat) (start : Sys → Sys) (y : Sys) : Sys :=
  let b := y.dev.boot
  if b.power = .off then y
  else
  let y := y.onBoot fun b => { b with ctrlStep := code }
  if b.busyStep ≠ 0 ∨ stepPermitted y.dev code = false then stepRefuse y code 1
  else if code = 1 ∧ b.ctrlWarm = true ∧ b.warmOk = false then stepRefuse y code 2
  else start (y.onBoot fun b => { b with stepCode := code, stepResult := 1, stepError := 0, busyStep := code })

/-- A field defect list takes part in the map (R406, R409). -/
def useDefects (y : Sys) (l : List BadUnit) : Sys := y.onBoot fun b => { b with badUnits := l.foldl mergeUnit b.badUnits }

/-- SELFTEST begins: WARM is sampled, a cold start forgets the fences, the field defect list is read (R401, R405, R409). -/
def startSelftest (y : Sys) : Sys :=
  let y := y.onBoot fun b => { b with warmStart := b.ctrlWarm }
  let y := if y.dev.boot.warmStart then y else y.onNoc fun n => { n with fenced := [], fenceWhy := [] }
  let b := y.dev.boot
  if b.defectLen ≠ 0 then
    drdRange (y.onHost fun h => { h with refData := h.refData.filter fun p => p.1 != 16 }) b.defectAddr (16 + 8 * b.defectLen) .defects
  else match b.storedDefects with
    | some l => useDefects y l
    | none => y

def execSelftest (s : State) : Host.Outcome State Fault Refusal := onSys (bootGo 1 startSelftest) s

/-- DRDs of a boot step that are still out. -/
def defectsLeft (d : Dev) : Bool := d.host.accs.any fun a => match a.use with
  | .defects _ => true
  | _ => false

/-- A piece of the field defect list arrives, or cannot be read (R403, R409). -/
def defectsArrived (y : Sys) (pos : Nat) (data : Option (List Byte)) : Sys :=
  if !stepBusy y.dev 1 then y
  else match data with
    | none => stepFail y 1 8 false
    | some b =>
      let y := y.onHost fun h => { h with refData := h.refData ++ [(16, pos, b)] }
      if defectsLeft y.dev then y
      else
        let whole := (y.dev.host.refData.filter fun p => p.1 == 16).foldl (fun l p => splice l p.2.1 p.2.2) []
        let y := y.onHost fun h => { h with refData := h.refData.filter fun p => p.1 != 16 }
        match parseDefects whole y.dev.boot.defectLen with
        | some l => useDefects y l
        | none => stepFail y 1 6 false

/-- The mesh has a port for the control complex and at most two failed routers (R307). -/
def meshUsable (failed : List Nat) : Bool := decide (failed.length ≤ 2) && !(failed.contains 8 && failed.contains 9)

/-- SELFTEST_COMPLETE: findings enter the map; failed routers, halves and the mesh follow from it (R307, R401, R403, R406, R408). -/
def selftestComplete (found : List BadUnit) (baseFailed : Bool) (y : Sys) : Sys :=
  if !stepBusy y.dev 1 || defectsLeft y.dev then y
  else
    let y := addFindings y found
    let f := badRouters y.dev
    let y := y.onNoc fun n => { n with failed := f, ccSingle := f.contains 8 || f.contains 9 }
    let y := y.each [0, 1] fun y h => if halfUsable y.dev h then y else y.onHalf h fun x => { x with state := 0, idleElectric := true }
    if baseFailed then stepFail y 1 3 true
    else if !meshUsable f then stepFail (event y 0x0602 (leBytes 4 (maskOf f))) 1 3 true
    else stepDone y

def execSelftestComplete (found : List BadUnit) (baseFailed : Bool) (s : State) : Host.Outcome State Fault Refusal :=
  onSys (selftestComplete found baseFailed) s

/-- DRAM_INIT: DRAM leaves self-refresh at a warm start, and is initialised at a cold one (R401). -/
def execDramInit (s : State) : Host.Outcome State Fault Refusal := onSys (bootGo 2 id) s

/-- DRAM_INIT_COMPLETE: fatal when no site has usable memory (R403). -/
def dramInitComplete (found : List BadUnit) (y : Sys) : Sys :=
  if !stepBusy y.dev 2 then y
  else
    let y := addFindings y found
    let y := y.onBoot fun b => { b with selfRefresh := false }
    if (List.range 18).any (memUsable y.dev) then stepDone y else stepFail y 2 4 true

def execDramInitComplete (found : List BadUnit) (s : State) : Host.Outcome State Fault Refusal := onSys (dramInitComplete found) s

/-- FILL (R284, R285). -/
def execFill (s : State) : Host.Outcome State Fault Refusal := onSys (bootGo 3 id) s

/-- The errors of a stretch of keys are gone. -/
def clearErrs (errs : List (Nat × List Nat)) (lo len : Nat) : List (Nat × List Nat) :=
  errs.filter fun e => !(decide (lo ≤ e.1) && decide (e.1 < lo + len))

/-- Fills the buffer tile of a site with zeros and valid check bits (R284, R285). -/
def fillBuffer (y : Sys) (s : Nat) : Sys :=
  (y.zero (bufKey s 0) bufBytes).onProt fun p => { p with
    bufErr := clearErrs p.bufErr (bufKey s 0) bufBytes, writeBacks := p.writeBacks.filter fun w => w.site != s }

/-- Fills the DRAM of a site. -/
def fillDram (y : Sys) (s : Nat) : Sys :=
  (y.zero (dramKey s 0) colBytes).onProt fun p => { p with dramErr := clearErrs p.dramErr (dramKey s 0) colBytes }

/-- Beats within which the memory fill ends; a warm start fills the buffers only (R284, R285, R401). -/
def fillBound (warm : Bool) : Nat := if warm then 1024 else 312500

/-- MEMORY_FILL_COMPLETE: every usable site is filled, at a warm start its buffer only; past its bound it is fatal (R284, R285,
R403). -/
def fillComplete (beats : Nat) (expired : Bool) (y : Sys) : Sys :=
  if !stepBusy y.dev 3 then y
  else if expired || fillBound y.dev.boot.warmStart < beats then stepFail y 3 5 true
  else
    let sites := (List.range 18).filter (memUsable y.dev)
    let warm := y.dev.boot.warmStart
    let y := y.each sites fun y s => fillBuffer (if warm then y else fillDram y s) s
    stepDone (y.onProt fun p => { p with fillDone := true, fillBeats := beats })

def execMemoryFillComplete (beats : Nat) (expired : Bool) (s : State) : Host.Outcome State Fault Refusal :=
  onSys (fillComplete beats expired) s

/-- CHECKER (R287). -/
def execChecker (s : State) : Host.Outcome State Fault Refusal := onSys (bootGo 4 id) s

/-- At a warm start the map is kept; a column whose site is bad is marked and reported (R411). -/
def keepMap (y : Sys) : Sys :=
  let bad := (List.range y.dev.map.n).filter fun c => !canCarry y.dev (siteOf y.dev c)
  let y := y.onBoot fun b => { b with colFailed := bad }
  let y := y.each bad fun y c => event y 0x0806 (leBytes 1 c ++ leBytes 1 (siteOf y.dev c))
  renumberSpares (markCores y) []

/-- At a cold start the sites that no finding excludes take logical columns in increasing order; the rest are provisional spares
(R410). -/
def provisionalMap (y : Sys) : Sys :=
  let ok := (List.range 18).filter (canCarry y.dev)
  let y := y.onBoot fun b => { b with provSpares := ok.drop 16, colFailed := [], unassigned := [], passedSpares := [], mapFinal := false, mapDigest := [] }
  assignCols y (ok.take 16)

/-- CHECKER_COMPLETE: the answers to the vectors are compared with what R288 expects; failed checkers exclude their sites, columns are assigned, the provisional map is written, MEM_READY (R287,
R289, R397, R403, R408, R410 to R412). -/
def checkerComplete (failed : List Nat) (y : Sys) : Sys :=
  if !stepBusy y.dev 4 then y
  else
    let y := addFindings y (failed.map fun s => ⟨7, s, 0, false, false, false, false⟩)
    let y := y.onProt fun p => { p with selfDone := true, selfFail := !failed.isEmpty, selfSites := failed }
    let y := y.onBoot fun b => { b with
      memOk := (List.range 18).filter (memUsable y.dev), coreOk := (List.range 18).filter (coreUsable y.dev) }
    let y := if y.dev.boot.warmStart then keepMap y else provisionalMap y
    if !(List.range 18).any (canCarry y.dev) then stepFail y 4 9 true
    else
      let y := stepDone (writeMap y)
      enterPower (y.onBoot fun b => { b with reachedMem := true }) .memReady

def execCheckerComplete (answers : List CheckerAnswer) (s : State) : Host.Outcome State Fault Refusal :=
  onSys (checkerComplete (failedSites answers)) s

end Sys2Proof.Machine
end

