-- ==== Sys2Proof/Machine/Boundary.lean ====
section
/-! DEFINITION. The beat boundary: counts, throttle tokens, bubble ratios, and what ports and halves send (R42, R45, R46, R68, R78, R86,
R271, R326, R353, R451). -/

namespace Sys2Proof.Machine

/-- The stack as the events stamped with the SBC of the present beat leave it: the swap, starts, repeats and ends whose commands
follow the boundary act on this beat's slots, markers and tokens already (R46, R78, R86; DEDUCED, log 89). -/
def atBoundary (y : Sys) : Sys :=
  (configurationSwap y).each (List.range 4) fun y q => imageFinish q (imageRunRepeat q (partitionStart q y))

/-- Every core is brought to the end of the present beat (R101, R104, R453). -/
def coresToBeatEnd (y : Sys) : Sys := y.each (List.range 18) fun y k => endGating (advanceCore 64 y k) k

/-- BEAT_BOUNDARY: WBC and HOLD_ACC advance, tokens are added, new bubble ratios take effect, ports and halves send; without the
reference clock no beat begins (R42, R45, R49, R68, R271, R326, R353, R451). -/
def beatBoundary (y : Sys) : Sys :=
  if y.dev.beat.clockStopped then y else
  let y := (coresToBeatEnd y).onBeat beatAdvance
  let y := y.onBeat fun b => { b with
    points := b.points.filter fun p => !p.over b.wbc
    recent := b.recent.filter fun r => decide (b.wbc ≤ r.2.2.2.2 + 1024) }
  let y := releaseHeld y
  let v := atBoundary y
  let y := y.onProt fun p => { p with layers := (List.range 12).map fun l => tokenStep (rowBudget v l) (nth p.layers l {}) }
  let y := y.onPower fun p => { p with sites := p.sites.map fun s => { s with ratio := s.newRatio } }
  let y := y.each (List.range 12) portBoundary
  let y := sendAccs y
  let y := y.each (List.range 12) (portBeat v)
  y.each [0, 1] halfBeat

def execBeatBoundary (s : State) : Host.Outcome State Fault Refusal := onSys beatBoundary s

end Sys2Proof.Machine
end

