-- ==== Sys2Proof/Machine/Hss.lean ====
section
/-! DEFINITION. Hash-based signatures: LM-OTS with W = 4, LMS trees and two-level HSS, by the published standard that R427 and R440
name (PRESUMED, log 8). -/

namespace Sys2Proof.Machine

/-- Type codes: LMOTS_SHA256_N32_W4, and LMS_SHA256_M32 with heights 10, 15 and 20 (R427, R440). -/
def otsType : Nat := 3
def lmsType (h : Nat) : Nat := if h = 10 then 6 else if h = 15 then 7 else 8

/-- Digit i of a string cut into 4-bit digits. -/
def otsDigit (s : List Byte) (i : Nat) : Nat :=
  let b := (nth s (i / 2) 0).toNat
  if i % 2 = 0 then b / 16 else b % 16

/-- The checksum of a 32-byte digest, as two bytes. -/
def otsChecksum (q : List Byte) : List Byte := beBytes 2 (((List.range 64).map fun i => 15 - otsDigit q i).sum * 16)

/-- The digest that the one-time key signs, with its checksum. -/
def otsMessage (id : List Byte) (q : Nat) (c msg : List Byte) : List Byte :=
  let d := sha256 (id ++ beBytes 4 q ++ beBytes 2 0x8181 ++ c ++ msg)
  d ++ otsChecksum d

/-- The hash chain of digit i: n further steps after step j. -/
def otsChain (id : List Byte) (q i : Nat) : Nat → Nat → List Byte → List Byte
  | 0, _, x => x
  | n + 1, j, x => otsChain id q i n (j + 1) (sha256 (id ++ beBytes 4 q ++ beBytes 2 i ++ beBytes 1 j ++ x))

/-- The public key of a one-time key from the 67 ends of its chains. -/
def otsPublic (id : List Byte) (q : Nat) (zs : List (List Byte)) : List Byte :=
  sha256 (id ++ beBytes 4 q ++ beBytes 2 0x8080 ++ zs.flatten)

/-- The public key that a one-time signature implies for a message. -/
def otsCandidate (id : List Byte) (q : Nat) (c : List Byte) (ys : List (List Byte)) (msg : List Byte) : List Byte :=
  let m := otsMessage id q c msg
  otsPublic id q (ys.mapIdx fun i y => otsChain id q i (15 - otsDigit m i) (otsDigit m i) y)

/-- An inner node of a tree. -/
def lmsInner (id : List Byte) (node : Nat) (l r : List Byte) : List Byte :=
  sha256 (id ++ beBytes 4 node ++ beBytes 2 0x8383 ++ l ++ r)

/-- A leaf of a tree. -/
def lmsLeaf (id : List Byte) (node : Nat) (key : List Byte) : List Byte :=
  sha256 (id ++ beBytes 4 node ++ beBytes 2 0x8282 ++ key)

/-- The root that a leaf and its path imply. -/
def lmsRoot (id : List Byte) : Nat → List Byte → List (List Byte) → List Byte
  | _, x, [] => x
  | node, x, p :: ps =>
    lmsRoot id (node / 2) (if node % 2 = 1 then lmsInner id (node / 2) p x else lmsInner id (node / 2) x p) ps

/-- Bytes of an LMS signature of height h. -/
def lmsSigLen (h : Nat) : Nat := 4 + 2180 + 4 + 32 * h

/-- A number stored highest byte first. -/
def beNat (l : List Byte) : Nat := leNat l.reverse

/-- Verifies an LMS signature of height h by a 56-byte public key (R427). -/
def lmsVerify (h : Nat) (pub msg sig : List Byte) : Bool :=
  let id := slice pub 8 16
  let q := beNat (slice sig 0 4)
  let path := chunks 32 (slice sig 2188 (32 * h))
  let key := otsCandidate id q (slice sig 8 32) (chunks 32 (slice sig 40 2144)) msg
  decide (pub.length = 56) && decide (sig.length = lmsSigLen h) && beNat (slice pub 0 4) == lmsType h
    && beNat (slice pub 4 4) == otsType && beNat (slice sig 4 4) == otsType && beNat (slice sig 2184 4) == lmsType h
    && decide (q < 2 ^ h) && lmsRoot id (2 ^ h + q) (lmsLeaf id (2 ^ h + q) key) path == slice pub 24 32

/-- Verifies the vendor's two-level signature by a 60-byte public key (R427). -/
def hssVerify (pub msg sig : List Byte) : Bool :=
  let n := lmsSigLen 20
  let inner := slice sig (4 + n) 56
  beNat (slice pub 0 4) == 2 && beNat (slice sig 0 4) == 1 && decide (sig.length = 5716)
    && lmsVerify 20 (slice pub 4 56) inner (slice sig 4 n) && lmsVerify 20 inner msg (slice sig (4 + n + 56) n)

/-- Private value i of one-time key q, by the pseudorandom key generation of the standard (R440). -/
def otsPrivate (id seed : List Byte) (q i : Nat) : List Byte := sha256 (id ++ beBytes 4 q ++ beBytes 2 i ++ beBytes 1 0xFF ++ seed)

/-- The public key of one-time key q of a tree. -/
def otsKey (id seed : List Byte) (q : Nat) : List Byte :=
  otsPublic id q ((List.range 67).map fun i => otsChain id q i 15 0 (otsPrivate id seed q i))

/-- The node of a tree of height h that stands k levels above the leaves and has number `node`. -/
def lmsNode (id seed : List Byte) (h : Nat) : Nat → Nat → List Byte
  | 0, node => lmsLeaf id node (otsKey id seed (node - 2 ^ h))
  | k + 1, node => lmsInner id node (lmsNode id seed h k (2 * node)) (lmsNode id seed h k (2 * node + 1))

/-- The public key of a tree. -/
def lmsPublic (id seed : List Byte) (h : Nat) : List Byte :=
  beBytes 4 (lmsType h) ++ beBytes 4 otsType ++ id ++ lmsNode id seed h h 1

/-- Signs with leaf q of a tree, with a randomiser. -/
def lmsSign (id seed : List Byte) (h q : Nat) (c msg : List Byte) : List Byte :=
  let m := otsMessage id q c msg
  let ys := (List.range 67).flatMap fun i => otsChain id q i (otsDigit m i) 0 (otsPrivate id seed q i)
  let path := (List.range h).flatMap fun k => lmsNode id seed h k (Nat.xor ((2 ^ h + q) / 2 ^ k) 1)
  beBytes 4 q ++ beBytes 4 otsType ++ c ++ ys ++ beBytes 4 (lmsType h) ++ path

/-- Public key of lower identity tree i (R440). -/
def lowerPublic (i : Nat) : List Byte := lmsPublic (Config.treeId (i + 1)) (Config.treeSeed (i + 1)) 15

/-- The identity signature of a message with a leaf number (R440). -/
def identitySign (q : Nat) (msg : List Byte) : List Byte :=
  let i := q / 2 ^ 15
  let pub := lowerPublic i
  beBytes 4 1 ++ lmsSign (Config.treeId 0) (Config.treeSeed 0) 10 i (Config.signRandom 0 i) pub ++ pub
    ++ lmsSign (Config.treeId (i + 1)) (Config.treeSeed (i + 1)) 15 (q % 2 ^ 15) (Config.signRandom (i + 1) (q % 2 ^ 15)) msg

end Sys2Proof.Machine
end

