-- ==== Sys2Proof/Machine/Firmware.lean ====
section
/-! DEFINITION. The firmware object and its checks, FW_LOAD, the distribution across a span, delivery to the cores, identity and
attestation (R372, R375, R391, R397, R401, R425 to R446). -/

namespace Sys2Proof.Machine

/- The firmware object and its checks (R425 to R430). -/

/-- Bytes of the manifest (R425). -/
def manLen : Nat := 7380

/-- The longest image that the firmware store holds beside the padded manifest (R425, R435). -/
def maxImage : Nat := 2088960

/-- The manifest in the firmware store. -/
def storedManifest (y : Sys) : List Byte := y.getN (fwKey 0) manLen

/-- The image in the firmware store, of a length. -/
def storedImage (y : Sys) (n : Nat) : List Byte := y.getN (fwKey 8192) (min n maxImage)

/-- A segment entry (R425). -/
structure FwSeg where
  type : Nat
  off : Nat
  len : Nat
  digest : List Byte
  deriving DecidableEq, Repr

/-- Segment entry k of a manifest. -/
def segAt (man : List Byte) (k : Nat) : FwSeg :=
  let e := slice man (0x40 + 48 * k) 48
  ⟨fld e 0 2, fld e 4 4, fld e 8 4, slice e 16 32⟩

/-- The segment entries of a manifest. -/
def segsOf (man : List Byte) : List FwSeg := (List.range (fld man 6 2)).map (segAt man)

/-- Reserved fields of a segment entry are zero. -/
def segReserved (man : List Byte) (k : Nat) : Bool := fld man (0x42 + 48 * k) 2 == 0 && fld man (0x4C + 48 * k) 4 == 0

/-- The segment table obeys R425 and R426. -/
def segTableOk (man : List Byte) : Bool :=
  let segs := segsOf man
  let len := fld man 0xC 4
  segs.all (fun s => decide (1 ≤ s.type) && decide (s.type ≤ 3) && s.off % 64 == 0 && decide (s.off + s.len ≤ len)
      && (s.type != 2 || decide (s.len ≤ 196608)))
    && (segs.filter fun s => s.type == 1).length == 1 && (segs.filter fun s => s.type == 2).length == 1
    && (List.range segs.length).all (fun i => (List.range i).all fun j =>
      let a := segAt man i
      let b := segAt man j
      decide (a.off + a.len ≤ b.off) || decide (b.off + b.len ≤ a.off))
    && (List.range segs.length).all (segReserved man)
    && (slice man (0x40 + 48 * segs.length) (48 * (32 - segs.length))).all (· == 0)

/-- Check MAN_FORMAT (R429). -/
def manFormatOk (man : List Byte) : Bool :=
  fld man 0 4 == 0x4D414E31 && fld man 4 2 == 1 && decide (1 ≤ fld man 6 2) && decide (fld man 6 2 ≤ 32) && fld man 0x67C 4 == 5716
    && bits (fld man 0x32 2) 3 13 == 0 && fld man 0x34 12 == 0 && segTableOk man

/-- Check PART (R429). -/
def manPartOk (man : List Byte) : Bool := fld man 0x30 2 == 0x72 && bitAt (fld man 0x32 2) 0 == Config.samplePart

/-- The unrevoked key-digest slot that a manifest's key matches (R428, R429). -/
def keySlotOf (f : Fw) (man : List Byte) : Option Bool :=
  let h := sha256 (slice man 0x640 60)
  if h = Config.keyDigest false ∧ f.revoked0 = false then some false
  else if h = Config.keyDigest true ∧ f.revoked1 = false then some true
  else none

/-- Every segment's digest is right (R429). -/
def segDigestsOk (man img : List Byte) : Bool := (segsOf man).all fun s => sha256 (slice img s.off s.len) == s.digest

/-- Checks 0x01 to 0x08 in their order: the detail of the first that fails, or the key slot (R429). -/
def checkObject (f : Fw) (man img : List Byte) (received : Nat) : Except Nat Bool :=
  if !manFormatOk man then .error 1
  else if !manPartOk man then .error 2
  else match keySlotOf f man with
    | none => .error 3
    | some slot =>
      if !hssVerify (slice man 0x640 60) (slice man 0 0x680) (slice man 0x680 5716) then .error 4
      else if fld man 8 4 < f.version then .error 5
      else if maxImage < fld man 0xC 4 then .error 6
      else if received ≠ fld man 0xC 4 ∨ sha256 img ≠ slice man 0x10 32 then .error 7
      else if !segDigestsOk man img then .error 8
      else .ok slot

/-- The checks of a warm re-verification: key, version, and the digests over the retained image (R431). -/
def recheckObject (f : Fw) (man img : List Byte) : Except Nat Bool :=
  if !f.retained then .error 0xA
  else match keySlotOf f man with
    | none => .error 3
    | some slot =>
      if fld man 8 4 < f.version then .error 5
      else if sha256 img ≠ slice man 0x10 32 ∨ segDigestsOk man img = false then .error 0xA
      else .ok slot

/-- One fuse is programmed; whether it took is physics (R430). -/
def blowFuse (f : Fw) : Bool × Fw := (Config.fuseOk f.fuseTries, { f with fuseTries := f.fuseTries + 1 })

/-- Thermometer bits are blown up to a version; the flag says that one failed (R430). -/
def blowVersion (f : Fw) (target : Nat) : Bool × Fw :=
  (List.range (min target 64 - f.version)).foldl (fun r _ =>
    let b := blowFuse r.2
    (r.1 || !b.1, if b.1 then { b.2 with version := b.2.version + 1 } else b.2)) (false, f)

/-- The revocation bit of the other slot is blown (R430). -/
def blowRevoke (f : Fw) (slot : Bool) : Bool × Fw :=
  let b := blowFuse f
  (!b.1, if !b.1 then b.2 else if slot then { b.2 with revoked0 := true } else { b.2 with revoked1 := true })

/-- What the flags of an accepted manifest order, with its event (R430, R445). -/
def programFuses (y : Sys) (man : List Byte) (slot : Bool) : Sys :=
  let f := y.dev.fw
  let flags := fld man 0x32 2
  let adv := bitAt flags 1 && decide (f.version < fld man 8 4)
  let rev := bitAt flags 2 && !(if slot then f.revoked0 else f.revoked1)
  if !adv && !rev then y
  else
    let r1 := if adv then blowVersion f (fld man 8 4) else (false, f)
    let r2 := if rev then blowRevoke r1.2 slot else (false, r1.2)
    let g := r2.2
    event (y.onFw fun _ => g) 0x0905
      (leBytes 1 g.version ++ leBytes 1 (b2n g.revoked0 + 2 * b2n g.revoked1) ++ leBytes 1 0 ++ leBytes 1 (b2n (r1.1 || r2.1)))

/- Acceptance and refusal (R372, R375, R383, R397, R429, R431, R442). -/

/-- The reserved limit of the log (R441). -/
def logLimit (l : List FlashSlot) : Nat :=
  l.foldl (fun m s => match s with
    | .valid n => max m n
    | .torn => m) 0

/-- After FW_LOADED the log is scanned; unused leaves are skipped (R442). -/
def scanLog (f : Fw) : Fw :=
  let n := logLimit f.log
  { f with limit := n, nextLeaf := n, ready := true, flashFault := false, exhausted := n == 2 ^ 25 }

/-- Firmware takes handovers from now on, first those that are there, in mailbox order; commands that a reset ended are reported
(R372, R375, R383). -/
def firmwareRuns (y : Sys) : Sys :=
  let y := y.onHost fun h => { h with taking := true, handovers := (List.range 16).filter h.handovers.contains }
  let y := y.each y.dev.host.aborted fun y a => doneEvent y a.1 stAborted a.2.1 a.2.2.1 a.2.2.2 []
  let y := match y.dev.host.resetDeferred with
    | some r => doneEvent y r.1 0 r.2.1 1 5 []
    | none => y
  y.onHost fun h => { h with aborted := [], resetDeferred := none }

/-- An image is accepted and runs: its flags are acted on, then FW_LOADED is entered (R397, R430, R445). -/
def fwAccept (y : Sys) (slot : Bool) : Sys :=
  let man := storedManifest y
  let y := programFuses y man slot
  let col := ((segsOf man).find? fun s => s.type == 2).map FwSeg.digest
  let y := y.onFw fun f => { f with
    state := 3, retained := true, detail := 0, keySlot := slot, checking := false, receiving := false
    imageVersion := fld man 8 4, imageLen := fld man 0xC 4, manifestDigest := sha256 man, imageDigest := slice man 0x10 32
    columnDigest := col.getD [] }
  let y := event y 0x0901 (leBytes 1 y.dev.fw.session ++ leBytes 1 (fld man 8 4) ++ leBytes 1 (b2n slot))
  let y := enterPower (stepDone y) .fwLoaded
  settleLinks (firmwareRuns (y.onFw scanLog))

/-- The object in the store is discarded. -/
def dropObject (y : Sys) : Sys := (y.zero (fwKey 0) (2 ^ 21)).onFw fun f => { f with retained := false }

/-- An object fails a check (R403, R429, R445). -/
def fwRefuse (y : Sys) (step detail : Nat) : Sys :=
  let y := (dropObject y).onFw fun f => { f with state := 4, detail := detail, checking := false, receiving := false }
  stepFail (event y 0x0902 (leBytes 1 detail)) step 7 false

/-- The outcome of the checks of a step. -/
def fwVerdict (y : Sys) (step : Nat) (r : Except Nat Bool) : Sys :=
  match r with
  | .error d => fwRefuse y step d
  | .ok slot => fwAccept y slot

/- FW_LOAD (R431). -/

/-- The present start re-verifies the retained image (R431). -/
def reverifies (d : Dev) : Bool := d.boot.warmStart && d.boot.imgLen == 0

/-- A use of host memory by FW_LOAD. -/
def fwUse : HostUse → Bool
  | .fwManifest _ => true
  | .fwImage _ => true
  | _ => false

/-- Reads of an earlier attempt are not waited for any more. -/
def forgetReads (y : Sys) (p : HostUse → Bool) : Sys :=
  y.onHost fun h => { h with accs := h.accs.map fun a => if p a.use then { a with use := .mapOut } else a }

/-- FW_LOAD begins: manifest and image are read by DRD, unless the retained image is re-verified (R401, R431). -/
def startFwLoad (y : Sys) : Sys :=
  let b := y.dev.boot
  if reverifies y.dev then y.onFw fun f => { f with state := 2 }
  else if b.manLen ≠ manLen then fwRefuse y 5 1
  else
    let y := (forgetReads (dropObject y) fwUse).onFw fun f => { f with state := 1, detail := 0 }
    drdRange (drdRange y b.manAddr manLen .fwManifest) b.imgAddr (min b.imgLen maxImage) .fwImage

def execFwLoad (s : State) : Host.Outcome State Fault Refusal := onSys (bootGo 5 startFwLoad) s

/-- Reads of FW_LOAD that are still out. -/
def fwReadsLeft (d : Dev) : Bool := d.host.accs.any fun a => fwUse a.use

/-- A piece of manifest or image arrives, or cannot be read (R403, R431). -/
def fwArrived (y : Sys) (at0 : Nat) (data : Option (List Byte)) : Sys :=
  if !stepBusy y.dev 5 then y
  else match data with
    | none => stepFail (y.onFw fun f => { f with state := 0 }) 5 8 false
    | some b =>
      let y := y.put (fwKey at0) b
      if fwReadsLeft y.dev then y else y.onFw fun f => { f with state := 2 }

/-- FW_LOAD_COMPLETE: the object's checks, or those of a re-verification (R403, R429, R431). -/
def fwLoadComplete (y : Sys) : Sys :=
  if !stepBusy y.dev 5 || fwReadsLeft y.dev then y
  else
    let man := storedManifest y
    if reverifies y.dev then fwVerdict y 5 (recheckObject y.dev.fw man (storedImage y (fld man 0xC 4)))
    else fwVerdict y 5 (checkObject y.dev.fw man (storedImage y y.dev.boot.imgLen) y.dev.boot.imgLen)

def execFwLoadComplete (s : State) : Host.Outcome State Fault Refusal := onSys fwLoadComplete s

/- FW_RECEIVE (R432 to R435). -/

/-- FW_RECEIVE begins (R401, R435). -/
def startReceive (y : Sys) : Sys :=
  let w := y.dev.beat.wbc
  y.onFw fun f => { f with
    state := 1, detail := 0, receiving := true, checking := false, session := 0, round := 0, pieces := [], chunks := none
    reported := [], lastEnd := w, lastFlit := w }

def execFwReceive (s : State) : Host.Outcome State Fault Refusal := onSys (bootGo 6 startReceive) s

/-- Every piece of a chunk is held (R435). -/
def chunkHeld (f : Fw) (c : Nat) : Bool := (List.range 16).all fun k => f.pieces.contains (16 * c + k)

/-- Chunks held (R435, R446). -/
def chunksHeld (f : Fw) : Nat := ((List.range 512).filter (chunkHeld f)).length

/-- Chunks that are lacking; before an end marker has told their number, up to the highest of which a piece is held. -/
def chunksLacking (f : Fw) : List Nat :=
  let n := f.chunks.getD ((f.pieces.foldl max 0) / 16 + b2n (!f.pieces.isEmpty))
  (List.range (min n 512)).filter fun c => !chunkHeld f c

/-- Bytes of a firmware report (R434). -/
def reportBytes (r : FwReport) : List Byte :=
  leBytes 1 0xA ++ leBytes 1 r.kind ++ leBytes 2 r.id ++ leBytes 1 r.inc ++ leBytes 1 r.round ++ leBytes 1 r.session ++ leBytes 1 r.page
    ++ leBytes 2 r.missingTotal ++ List.replicate 6 0 ++ leBytes 16 r.missingBits.toNat

/-- What the master knows of a device after a report (R434, R436). -/
def progressAfter (old : FwProgress) (r : FwReport) : FwProgress :=
  let p := { old with round := r.round }
  let bitsOf := (bitList 128 r.missingBits.toNat).map fun k => 128 * r.page + k
  match r.kind with
  | 1 => { p with fwState := 2, missing := [] }
  | 2 =>
    let kept := if old.fwState = 1 ∧ old.round = r.round then old.missing.filter fun c => c / 128 != r.page else []
    { p with fwState := 1, missing := kept ++ bitsOf }
  | 3 => { p with fwState := 3, missing := [] }
  | 4 => { p with fwState := 4, missing := [], detail := r.page }
  | _ => old

/-- The master takes a report of its session (R433, R436). -/
def takeReport (y : Sys) (r : FwReport) : Sys :=
  if y.dev.beat.role ≠ .master ∨ r.session ≠ y.dev.fw.sendSession ∨ r.kind < 1 ∨ 4 < r.kind then y
  else y.onFw fun f =>
    let old := (f.progress.find? fun p => p.id == r.id).getD ⟨r.id, 0, 0, [], 0⟩
    { f with progress := (f.progress.filter fun p => p.id != r.id) ++ [progressAfter old r] }

/-- A report goes out of the IN_PORT of group 0; the root of group 0 delivers it locally (R434). -/
def passReport (y : Sys) (r : FwReport) : Sys :=
  match groupOf y 0 with
  | none => y
  | some g =>
    if g.1 < 12 then (if portTrained (y.port g.1) then y.onPort g.1 fun x => queueRec x ⟨5, reportBytes r⟩ else y)
    else takeReport y r

/-- FIRMWARE_REPORT (R434). -/
def execFirmwareReport (port : Port) (r : FwReport) (s : State) : Host.Outcome State Fault Refusal :=
  onSys (fun y => passReport (wakePort y port) r) s

/-- The report of this device of a kind; PAGE is the page of a MISSING report or the detail of a REFUSED one (R434). -/
def ownReport (y : Sys) (kind page total bitsV : Nat) : Sys :=
  let f := y.dev.fw
  passReport y ⟨kind, y.dev.span.deviceId, y.dev.span.selfInc, f.round, f.session, page, total, BitVec.ofNat 128 bitsV⟩

/-- One MISSING record for each page in which chunks are lacking (R434). -/
def sendMissing (y : Sys) : Sys :=
  let l := chunksLacking y.dev.fw
  y.each (List.range 4) fun y p =>
    let mine := l.filter fun c => c / 128 == p
    if mine.isEmpty then y else ownReport y 2 p l.length (maskOf (mine.map (· % 128)))

/-- With all chunks held COMPLETE is sent and the check begins (R434, R435). -/
def receiveWhole (y : Sys) : Sys :=
  let f := y.dev.fw
  if f.chunks.isSome && (chunksLacking f).isEmpty && !f.checking then
    ownReport (y.onFw fun f => { f with checking := true, state := 2 }) 1 0 0 0
  else y

/-- The first session that is met is accepted; the image that the store held is replaced (R435). -/
def meetSession (y : Sys) (session : Nat) : Sys :=
  if y.dev.fw.session = 0 ∧ 1 ≤ session then
    (dropObject y).onFw fun f => { f with session := session, lastEnd := y.dev.beat.wbc }
  else y

/-- A firmware flit is taken by the receiver (R342, R432, R435). -/
def fwFlitHere (y : Sys) (p : Nat) (f : Flit) (kind : Nat) : Bool :=
  stepBusy y.dev 6 && y.dev.fw.receiving && (mgmtOk y p f).1 && mgmtHere y p f && f.flow == 0xFF && bits f.seq 20 4 == kind

/-- FW_PIECE: a piece is held unless it belongs to another session or is held already (R432, R435). -/
def fwPiece (p : Nat) (f : Flit) (y : Sys) : Sys :=
  if !fwFlitHere y p f 1 then y
  else
    let y := meetSession (y.onFw fun w => { w with lastFlit := y.dev.beat.wbc }) (bits f.seq 13 7)
    let at0 := f.seq % 8192
    if bits f.seq 13 7 ≠ y.dev.fw.session ∨ y.dev.fw.checking = true ∨ y.dev.fw.pieces.contains at0 then y
    else
      let y := (y.put (fwKey (256 * at0)) (padTo 256 f.payload)).onFw fun w => { w with pieces := w.pieces ++ [at0] }
      receiveWhole y

def execFwPiece (port : Port) (f : Flit) (s : State) : Host.Outcome State Fault Refusal := onSys (fwPiece port f) s

/-- The report of a round; chunks lacking after round 4 end the step (R433 to R435). -/
def reportRound (y : Sys) (round : Nat) : Sys :=
  if y.dev.fw.reported.contains round || y.dev.fw.checking then y
  else
    let y := y.onFw fun f => { f with reported := round :: f.reported, round := round }
    let y := receiveWhole y
    if y.dev.fw.checking then y
    else
      let y := sendMissing y
      if round = 4 then fwRefuse y 6 9 else y

/-- END_MARKER: the receiver acts on the first of each round (R432, R433). -/
def endMarker (p : Nat) (f : Flit) (y : Sys) : Sys :=
  if !fwFlitHere y p f 2 then y
  else
    let w := y.dev.beat.wbc
    let y := meetSession (y.onFw fun x => { x with lastFlit := w }) (bits f.seq 13 7)
    if bits f.seq 13 7 ≠ y.dev.fw.session then y
    else
      let y := y.onFw fun x => { x with
        lastEnd := w, chunks := some (fld f.payload 4 4), imageLen := fld f.payload 8 4 }
      reportRound y (fld f.payload 0 1)

def execEndMarker (port : Port) (f : Flit) (s : State) : Host.Outcome State Fault Refusal := onSys (endMarker port f) s

/-- FW_END_MARKER_TIMEOUT: without an end marker for 8,192 beats, as if that of the next round had arrived (R435). -/
def endMarkerTimeout (y : Sys) : Sys :=
  let f := y.dev.fw
  if stepBusy y.dev 6 && f.receiving && !f.checking && decide (0 < chunksHeld f) && decide (f.lastEnd + 8192 ≤ y.dev.beat.wbc) then
    let next := if f.reported.isEmpty then 0 else f.reported.foldl max 0 + 1
    reportRound (y.onFw fun f => { f with lastEnd := y.dev.beat.wbc }) next
  else y

def execFwEndMarkerTimeout (s : State) : Host.Outcome State Fault Refusal := onSys endMarkerTimeout s

/-- FW_RECEIVE_TIMEOUT: no firmware flit of any session for 31,250,000 beats (R435). -/
def receiveTimeout (y : Sys) : Sys :=
  let f := y.dev.fw
  if stepBusy y.dev 6 && f.receiving && !f.checking && decide (f.lastFlit + 31250000 ≤ y.dev.beat.wbc) then fwRefuse y 6 9 else y

def execFwReceiveTimeout (s : State) : Host.Outcome State Fault Refusal := onSys receiveTimeout s

/-- FW_OBJECT_CHECK_DONE: the received object is accepted or refused, and the master is told (R403, R429, R434). -/
def objectCheckDone (y : Sys) : Sys :=
  if !stepBusy y.dev 6 || !y.dev.fw.checking then y
  else
    let man := storedManifest y
    let n := y.dev.fw.imageLen
    match checkObject y.dev.fw man (storedImage y n) n with
    | .error d => fwRefuse (ownReport y 4 d 0 0) 6 d
    | .ok slot => fwAccept (ownReport y 3 0 0 0) slot

def execFwObjectCheckDone (s : State) : Host.Outcome State Fault Refusal := onSys objectCheckDone s

/- The master's distribution (R433, R436, R437). -/

/-- SEQ of a firmware flit (R432). -/
def fwSeq (kind session chunk piece : Nat) : Nat := kind * 2 ^ 20 + session * 2 ^ 13 + chunk * 16 + piece

/-- Sends a management flit of the device's own along group 0 from a beat on (R342, R433). -/
def sendGroup0 (y : Sys) (t : Nat) (f : Flit) : Sys :=
  match groupOf y 0 with
  | none => y
  | some g => y.each (bitList 12 g.2.2) fun y q =>
    if portCarries (y.port q) then y.onPort q fun x => { x with mgmt := x.mgmt ++ [(t, f)] } else transitEvent y q

/-- Sends a management flit of the device's own to one device (R342). -/
def sendUnicast (y : Sys) (f : Flit) : Sys :=
  if !y.dev.sched.haveActive then sendGroup0 y y.dev.beat.wbc f
  else if uroute y f.dst < 12 then toMgmt y (uroute y f.dst) f
  else y

/-- Piece k of chunk c of the object that is sent. -/
def pieceFlit (d : Dev) (dst : Nat) (mcast : Bool) (c k : Nat) : Flit :=
  mkFlit d 4 dst mcast 0xFF (fwSeq 1 d.fw.sendSession c k) (padTo 256 (slice d.fw.sendObj (4096 * c + 256 * k) 256))

/-- A chunk is sent on group 0. -/
def chunkToAll (y : Sys) (c : Nat) : Sys :=
  y.each (List.range 16) fun y k => sendGroup0 y y.dev.beat.wbc (pieceFlit y.dev 0 true c k)

/-- A chunk is sent to one device. -/
def chunkTo (y : Sys) (id c : Nat) : Sys := y.each (List.range 16) fun y k => sendUnicast y (pieceFlit y.dev id false c k)

/-- Chunks of the object that is sent. -/
def sendChunks (f : Fw) : Nat := f.sendObj.length / 4096

/-- The device's own firmware flits that a port has still to send. -/
def ownQueued (d : Dev) (p : PortS) : Nat := (p.mgmt.filter fun t => t.2.srcId == d.span.deviceId && t.2.flow == 0xFF).length

/-- The four end markers of a round, in consecutive beats after its last piece (R432, R433). -/
def sendEndMarkers (y : Sys) : Sys :=
  let d := y.dev
  let wait := d.span.ports.foldl (fun m p => max m (ceilDiv (ownQueued d p) (if p.lanes = 15 then 22 else 15))) 0
  let f := mkFlit d 4 0 true 0xFF (fwSeq 2 d.fw.sendSession 0 0) (padTo 256
    (leBytes 1 d.fw.sendRound ++ leBytes 3 0 ++ leBytes 4 (sendChunks d.fw) ++ leBytes 4 (d.fw.sendObj.length - 8192)
      ++ leBytes 2 d.span.deviceId))
  let base := d.beat.wbc + 1 + wait
  let y := y.each (List.range 4) fun y j => sendGroup0 y (base + j) f
  y.onFw fun x => { x with sendWindow := some (base + 3 + 4096) }

/-- Sends a round: every chunk in round 0, else a repair of what devices lack (R433). -/
def sendRound (y : Sys) (r : Nat) : Sys :=
  let y := y.onFw fun f => { f with sendRound := r, round := r }
  let lacking := fun c => (y.dev.fw.progress.filter fun p => p.fwState == 1 && p.missing.contains c).map FwProgress.id
  let y := y.each (List.range (sendChunks y.dev.fw)) fun y c =>
    if r = 0 then chunkToAll y c
    else if (lacking c).isEmpty then y
    else if 8 < (lacking c).length then chunkToAll y c
    else y.each (lacking c) fun y id => chunkTo y id c
  sendEndMarkers y

/-- A session that a standby has taken over from the master's mirror and that may go on (R437). -/
def sessionGoesOn (f : Fw) : Bool :=
  f.sendSession != 0 && f.sendObj.isEmpty && f.sendWindow.isNone && decide (f.sendRound < 4) && f.progress.any fun p => p.fwState == 1

/-- The object of an FW.SEND is checked and its session opens or goes on (R433, R437). -/
def openSession (y : Sys) (m : Nat) (man img : List Byte) (received : Nat) : Sys :=
  match checkObject y.dev.fw man img received with
  | .error d => finish y m stRefused (leBytes 1 d)
  | .ok _ =>
    let obj := padTo 8192 man ++ padTo (ceilDiv img.length 4096 * 4096) img
    let f := y.dev.fw
    let y := progress y m []
    if sessionGoesOn f then sendRound (y.onFw fun f => { f with sendObj := obj, session := f.sendSession }) (f.sendRound + 1)
    else
      let s := f.sendSession % 127 + 1
      sendRound (y.onFw fun f => { f with sendObj := obj, sendSession := s, session := s, progress := [] }) 0

/-- FW_SEND: on the span master; the object is first read from host memory (R391, R433). -/
def fwSend (m : Nat) : Sys → Sys := command 8 1 0x1C m fun r y =>
  if y.dev.beat.role ≠ .master then finish y m stNotMaster []
  else if r.destPending = 1 then
    let n := r.field 0x18 4
    openSession (onOpen y m fun r => { r with destPending := 0 }) m (slice r.payload 32 manLen)
      (slice r.payload (32 + 8192) (min n maxImage)) n
  else if !destOk (r.field 0 8) || !destOk (r.field 0x10 8) then finish y m stPayload []
  else if r.field 8 4 ≠ manLen then finish y m stRefused (leBytes 1 1)
  else
    let man := r.field 0 8
    let img := r.field 0x10 8
    let n := min (r.field 0x18 4) maxImage
    let k := (hostPieces (manLen / 128 + 2) 0 man manLen).length + (hostPieces (n / 128 + 2) 0 img n).length
    let y := onOpen y m fun x => { x with pendingRefs := k, destPending := 1, refLen := 32 + 8192 + n, refOk := true }
    let y := y.onHost fun h => { h with refData := h.refData ++ [(m, 0, padTo 32 r.payload)] }
    drdRange (drdRange y man manLen fun p => .cmdRef m (32 + p)) img n fun p => .cmdRef m (32 + 8192 + p)

def execFwSend (mb : Mbx) (s : State) : Host.Outcome State Fault Refusal := onSys (fwSend mb) s

/-- The devices that FW.STATUS lists (R436). -/
def fwDevices (d : Dev) : List Nat :=
  (List.range 2048).filter fun id => incOf d id != 0 || d.fw.progress.any fun p => p.id == id

/-- What the master knows of a device; SILENT when it has never reported (R436). -/
def fwEntry (d : Dev) (id : Nat) : FwProgress := (d.fw.progress.find? fun p => p.id == id).getD ⟨id, 0, 0, [], 0⟩

/-- FW_REPORT_WINDOW_CLOSE: the round's event; a repair round or the end of the distribution (R433, R445). -/
def reportWindowClose (y : Sys) : Sys :=
  match y.dev.fw.sendWindow with
  | none => y
  | some w =>
    if y.dev.beat.wbc < w || y.dev.span.ports.any fun p => decide (0 < ownQueued y.dev p) then y
    else
      let es := (fwDevices y.dev).map (fwEntry y.dev)
      let count := fun (f : FwProgress → Bool) => leBytes 2 (es.filter f).length
      let missing := es.any fun p => p.fwState == 1
      let r := y.dev.fw.sendRound
      let y := event y 0x0904 (leBytes 1 r ++ count (fun p => decide (2 ≤ p.fwState)) ++ count (fun p => p.fwState == 1)
        ++ count fun p => p.fwState == 0)
      if missing ∧ r < 4 then sendRound y (r + 1)
      else complete (y.onFw fun f => { f with sendWindow := none, sendObj := [] }) 8 1 0 []

def execFwReportWindowClose (s : State) : Host.Outcome State Fault Refusal := onSys reportWindowClose s

/-- An entry of FW.STATUS (R436). -/
def fwEntryBytes (p : FwProgress) : List Byte :=
  leBytes 2 p.id ++ leBytes 1 p.fwState ++ leBytes 1 p.round ++ leBytes 2 p.missing.length ++ leBytes 1 p.detail ++ leBytes 1 0

/-- FW_STATUS: header and entries, no more than LENGTH bytes (R391, R436). -/
def fwStatus (m : Nat) : Sys → Sys := command 8 2 0xC m fun r y =>
  if !destOk (r.field 0 8) then finish y m stPayload []
  else
    let es := (fwDevices y.dev).map (fwEntry y.dev)
    let f := y.dev.fw
    let bytes := leBytes 1 f.sendSession ++ leBytes 1 f.sendRound ++ leBytes 2 0 ++ leBytes 4 es.length ++ leBytes 8 0
      ++ es.flatMap fwEntryBytes
    finishDest y m (r.field 0 8) (bytes.take (r.field 8 4)) 0 []

def execFwStatus (mb : Mbx) (s : State) : Host.Outcome State Fault Refusal := onSys (fwStatus mb) s

/- Identity and attestation (R440 to R444). -/

/-- FW_IDENTITY: the certificate unchanged (R391, R443). -/
def fwIdentity (m : Nat) : Sys → Sys := command 8 3 0xC m fun r y =>
  let cert := padTo 5904 Config.certificate
  if !destOk (r.field 0 8) then finish y m stPayload []
  else if fld cert 8 8 ≠ Config.serial.toNat then finish y m stRefused (leBytes 1 3)
  else finishDest y m (r.field 0 8) (cert.take (r.field 8 4)) 0 []

def execFwIdentity (mb : Mbx) (s : State) : Host.Outcome State Fault Refusal := onSys (fwIdentity mb) s

/-- Bytes of a configuration set: up to the end of its last section (R82, R83). -/
def setExtent (y : Sys) (bank : Nat) : Nat := (List.range 9).foldl (fun m i => max m (secOff y bank i + secLen y bank i)) 0

/-- SHA-256 of a configuration set; zeros while the set is not there (R444). -/
def setDigest (y : Sys) (bank : Nat) : List Byte :=
  let n := setExtent y bank
  if n = 0 then List.replicate 32 0 else sha256 (y.getN (setKey bank 0) n)

/-- IMG_DIGEST of the image loaded for a partition: the one that the active set names, else the first (R444). -/
def partDigest (y : Sys) (q : Nat) : List Byte :=
  let l := y.dev.sched.images.filter fun i => i.part == q
  let named := l.find? fun i => y.dev.sched.haveActive && i.addr == imageIn y y.dev.sched.bank q
  match named.orElse fun _ => l.head? with
  | some i => padTo 32 i.digest
  | none => List.replicate 32 0

/-- Bytes 0x000 to 0x1FF of an attestation report (R444). -/
def attestBody (y : Sys) (nonce : List Byte) : List Byte :=
  let d := y.dev
  let f := d.fw
  let bank := d.sched.bank
  let active := if d.sched.haveActive then setDigest y bank else List.replicate 32 0
  leBytes 4 0x41545431 ++ leBytes 2 1 ++ leBytes 2 (b2n d.boot.warmStart + 2 * b2n Config.samplePart) ++ leBytes 8 Config.serial.toNat
    ++ leBytes 2 d.span.deviceId ++ leBytes 1 d.span.selfInc ++ leBytes 1 d.boot.power.code ++ leBytes 4 f.version
    ++ leBytes 4 f.imageVersion ++ leBytes 1 (b2n f.keySlot + 2 * b2n f.revoked0 + 4 * b2n f.revoked1) ++ leBytes 3 0
    ++ leBytes 8 d.beat.wbc ++ leBytes 8 (sbcShown d) ++ padTo 32 nonce ++ padTo 32 Config.romDigest ++ padTo 32 f.manifestDigest
    ++ padTo 32 f.imageDigest ++ padTo 32 f.columnDigest ++ active ++ setDigest y (1 - bank) ++ leBytes 4 (generation y) ++ leBytes 4 0
    ++ (List.range 4).flatMap (partDigest y)
    ++ leBytes 2 (maskOf ((List.range d.map.n).filter fun c => f.loaded.contains (siteOf d c))) ++ leBytes 6 0
    ++ padTo 32 d.boot.mapDigest ++ leBytes 4 5236 ++ List.replicate 60 0

/-- Programs reservation records until one reads back as it was written, at most so many times (R441, R442). -/
def reserve : Nat → List Bool → Fw → Bool × Fw
  | 0, _, f => (false, f)
  | n + 1, ok, f =>
    if nth ok 0 true then
      let l := f.limit + 256
      (true, { f with log := f.log ++ [.valid l], limit := l, exhausted := l == 2 ^ 25 })
    else reserve n (ok.drop 1) { f with log := f.log ++ [.torn] }

/-- The signed report of the next leaf (R442, R444). -/
def signReport (y : Sys) (body : List Byte) : List Byte × Sys :=
  (body ++ identitySign y.dev.fw.nextLeaf body, y.onFw fun f => { f with nextLeaf := f.nextLeaf + 1 })

/-- A leaf is reserved for a report that has been formed; its lower tree is computed first when it is not there (R442). -/
def attestWith (y : Sys) (m dest : Nat) (body : List Byte) : Sys :=
  if y.dev.fw.trees.contains (y.dev.fw.nextLeaf / 2 ^ 15) then
    let r := signReport y body
    finishDest r.2 m dest r.1 0 []
  else (progress y m []).onFw fun f => { f with treeBusy := true, waiting := some ⟨dest, body⟩ }

/-- FW_ATTEST: the report is formed; a record is programmed when every reserved leaf is used (R391, R442, R444). -/
def fwAttest (m : Nat) (readBack : List Bool) : Sys → Sys := command 8 4 0x2C m fun r y =>
  if !destOk (r.field 0x20 8) || decide (r.field 0x28 4 < 5748) then finish y m stPayload []
  else if y.dev.fw.flashFault then finish y m stRefused (leBytes 1 1)
  else
    let body := attestBody y (slice r.payload 0 32)
    let dest := r.field 0x20 8
    if y.dev.fw.nextLeaf ≠ y.dev.fw.limit then attestWith y m dest body
    else if y.dev.fw.limit = 2 ^ 25 then finish y m stRefused (leBytes 1 2)
    else
      let t := reserve 3 readBack y.dev.fw
      let y := y.onFw fun _ => t.2
      if t.1 then attestWith y m dest body
      else
        let y := y.onFw fun f => { f with flashFault := true }
        finish (event y 0x0906 (leBytes 4 (y.dev.fw.log.length - 1))) m stRefused (leBytes 1 1)

def execFwAttest (mb : Mbx) (readBack : List Bool) (s : State) : Host.Outcome State Fault Refusal := onSys (fwAttest mb readBack) s

/-- An IN_PROGRESS command's answer goes to a host address; it ends with the last DWR (R367, R373). -/
def completeDest (y : Sys) (group verb dest : Nat) (data : List Byte) : Sys :=
  match y.dev.host.cmds.find? fun r => r.group == group && r.verb == verb && r.inProgress && r.final.isNone with
  | none => y
  | some r =>
    let n := (hostPieces (data.length / 128 + 2) 0 dest data.length).length
    let y := y.onHost fun h => { h with cmds := h.cmds.map fun x =>
      if x == r then { r with destPending := n, final := some (0, []) } else x }
    dwrRange y dest data (.cmdDest r.mb)

/-- LOWER_TREE_COMPUTED: the attestation that waits for the tree signs (R442). -/
def treeThere (y : Sys) : Sys :=
  if !y.dev.fw.treeBusy then y
  else
    let w := y.dev.fw.waiting
    let y := y.onFw fun f => { f with treeBusy := false, trees := addTo f.trees (f.nextLeaf / 2 ^ 15), waiting := none }
    match w with
    | none => y
    | some a =>
      let r := signReport y a.body
      completeDest r.2 8 4 a.dest r.1

def execLowerTreeComputed (s : State) : Host.Outcome State Fault Refusal := onSys treeThere s

/- Delivery to the cores (R438, R439). -/

/-- The COLUMN segment of the running image. -/
def columnSeg (y : Sys) : Option FwSeg := (segsOf (storedManifest y)).find? fun s => s.type == 2

/-- Delivery to a core begins (R438). -/
def startDelivery (y : Sys) (site : Nat) : Sys := y.onFw fun f => { f with segPieces := assocSet f.segPieces site [] }

/-- COLUMN_SEGMENT_PIECE: a core holds a piece; one with a parity error is lost until it is sent again (R317, R438). -/
def segmentPiece (site piece : Nat) (data : List Byte) (parityError : Option Site) (y : Sys) : Sys :=
  match assoc y.dev.fw.segPieces site with
  | none => y
  | some l =>
    withParity y 24 site parityError (shuttleError y) <|
    if l.any fun p => p.1 == piece then y
    else y.onFw fun f => { f with segPieces := assocSet f.segPieces site (l ++ [(piece, padTo 24 data)]) }

def execColumnSegmentPiece (site : Site) (piece _session : Nat) (data : List Byte) (parityError : Option Site) (s : State) :
    Host.Outcome State Fault Refusal :=
  onSys (segmentPiece site piece data parityError) s

/-- The pieces of a core make up the segment with its digest (R438, R439). -/
def segmentGood (s : FwSeg) (l : List (Nat × List Byte)) : Bool :=
  let n := ceilDiv s.len 24
  (List.range n).all (fun k => l.any fun p => p.1 == k)
    && sha256 (((List.range n).flatMap fun k => (assoc l k).getD []).take s.len) == s.digest

/-- A core is load-failed: its fence order is sent, it is marked and reported (R318, R439). -/
def loadFailed (y : Sys) (site : Nat) : Sys :=
  let c := (colAt y.dev site).getD 0xFF
  let y := y.onNoc fun n => { n with fences := n.fences ++ [⟨site, 0, 1⟩], fenceWhy := assocSet n.fenceWhy site 1 }
  let y := y.onFw fun f => { f with loaded := takeOut f.loaded site, loadFailed := addTo f.loadFailed site }
  let y := y.onNoc fun n => { n with admits := n.admits.map fun a => if a.wave then { a with cols := takeOut a.cols c } else a }
  event y 0x0903 (leBytes 1 c ++ leBytes 1 site)

/-- The rails of a core are removed (R414, R477). -/
def railsOff (y : Sys) (site : Nat) : Sys :=
  (y.onBoot fun b => { b with powered := takeOut b.powered site, cleanSites := takeOut b.cleanSites site }).onSitePow site fun p =>
    { p with setCode := 0, limitW := 0, ratio := 0, newRatio := 0, boosts := [], gates := [], gatedCyc := 0 }

/-- A column whose core failed at a warm start keeps its number; its core is fenced and unpowered (R411). -/
def columnFailed (y : Sys) (c : Nat) : Sys :=
  let site := siteOf y.dev c
  let y := railsOff (fenceCore y site) site
  let y := y.onBoot fun b => { b with colFailed := addTo b.colFailed c }
  event y 0x0806 (leBytes 1 c ++ leBytes 1 site)

/-- COLUMN_SEGMENT_DELIVERY_END (R410, R411, R439). -/
def deliveryEnd (site : Nat) (y : Sys) : Sys :=
  match assoc y.dev.fw.segPieces site with
  | none => y
  | some l =>
    let y := y.onFw fun f => { f with segPieces := assocDel f.segPieces site }
    let good := match columnSeg y with
      | some s => segmentGood s l
      | none => false
    if good then y.onFw fun f => { f with loaded := addTo f.loaded site, loadFailed := takeOut f.loadFailed site }
    else
      let y := loadFailed y site
      if !y.dev.boot.wavesBusy || y.dev.boot.wave == 7 then y
      else match colAt y.dev site with
        | some c =>
          if y.dev.boot.warmStart then columnFailed y c
          else
            let y := railsOff y site
            y.onBoot fun b => { b with unassigned := addTo b.unassigned c, coreOk := takeOut b.coreOk site }
        | none => (railsOff y site).onBoot fun b => { b with passedSpares := takeOut b.passedSpares site }

def execColumnSegmentDeliveryEnd (site : Site) (s : State) : Host.Outcome State Fault Refusal := onSys (deliveryEnd site) s

end Sys2Proof.Machine
end

