-- ==== Sys2Proof/Machine/Power.lean ====
section
/-! DEFINITION. Power, droop and heat: the device limit and its division, bubbles, droop, slack, heavy phases, voltage, sensors,
the thermal model's effects, coolant, the trip, and the PWR commands (R39, R40, R270, R271, R298, R388, R389, R447 to R477,
R492). -/

namespace Sys2Proof.Machine

/-- A field of the power limits section (R474). -/
def pwrCfg (y : Sys) (off n dflt : Nat) : Nat := cfg y 3 off n dflt

/-- CORE_MIN_W, CORE_MAX_W and the weight of a class (R474). -/
def coreMin (y : Sys) : Nat := pwrCfg y 4 1 8
def coreMax (y : Sys) : Nat := pwrCfg y 5 1 120
def classWeight (y : Sys) (k : Nat) : Nat := pwrCfg y (6 + k) 1 (2 ^ k)

/-- A limit of the thermal limits section, in 0.125 C (R475). -/
def thermCfg (y : Sys) (off dflt : Nat) : Int := 8 * (cfg y 4 off 1 dflt : Nat)

/-- The power state of a site. -/
def Sys.pow (y : Sys) (s : Nat) : SitePower := nth y.dev.power.sites s {}

/-- A sensor. -/
def Sys.sensor (y : Sys) (i : Nat) : Sensor := nth y.dev.power.sensors i {}

/-- Changes a sensor. -/
def Sys.onSensor (y : Sys) (i : Nat) (f : Sensor → Sensor) : Sys := y.onPower fun p => { p with sensors := upd p.sensors i f }

/-- The sites whose compute rails are on. -/
def poweredSites (d : Dev) : List Nat := (List.range 18).filter d.boot.powered.contains

/- Voltage (R458, R460 to R462). -/

/-- The voltage table entry of a temperature in 0.125 C (R460). -/
def tableEntry (t : Int) : Nat := if t < 240 then 0 else if 800 ≤ t then 15 else ((t - 200) / 40).toNat

/-- The entry in use: it falls only 2 C below the lower bound of the present one (R460). -/
def nextEntry (now : Nat) (t : Int) : Nat :=
  let e := tableEntry t
  if now ≤ e then e else if t ≤ 200 + 40 * (now : Int) - 16 then e else now

/-- Codes that a boost adds (R458). -/
def boostCodes (y : Sys) (p : SitePower) : Nat := if p.boosts.isEmpty then 0 else ceilDiv (2 * pwrCfg y 0xC 1 10) 5

/-- The set point of a site from its mode, trim or table code, and boost (R458, R461, R462). -/
def setPoint (y : Sys) (p : SitePower) : Nat := min 160 ((if y.dev.power.voltTable then p.tableCode else p.trim) + boostCodes y p)

/-- Brings the set point of a site in force; 0 while its rail is off (R477). -/
def applySetPoint (y : Sys) (s : Nat) : Sys :=
  y.onSitePow s fun p => { p with setCode := if y.dev.boot.powered.contains s then setPoint y p else 0 }

/-- A trim code within its bounds (R462). -/
def clampTrim (s : Nat) (p : SitePower) (v : Nat) : Nat := max (Config.vminCode s).toNat (min v (p.tableCode + 8))

/-- A compute rail is ramped: the trim starts at the table code (R460, R462). -/
def railOn (y : Sys) (s : Nat) : Sys :=
  let e := tableEntry (siteTemp y.dev s)
  let code := (Config.voltTable s e).toNat
  let y := (y.onBoot fun b => { b with powered := addTo b.powered s }).onSitePow s fun p =>
    { p with entry := e, tableCode := code, trim := code, passes := 0 }
  applySetPoint y s

/-- Voltage of a site at a window boundary (R460 to R462). -/
def windowVolt (m : WindowMeasure) (y : Sys) (s : Nat) : Sys :=
  let e := nextEntry (y.pow s).entry (siteTemp y.dev s)
  let y := y.onSitePow s fun p => { p with entry := e, tableCode := (Config.voltTable s e).toNat }
  let y := if y.dev.power.voltTable || !y.dev.boot.powered.contains s then y
    else y.onSitePow s fun p =>
      if nth m.monitorFail s false then { p with trim := clampTrim s p (p.trim + 1), passes := 0 }
      else if !nth m.monitorEasy s false then { p with trim := clampTrim s p p.trim, passes := 0 }
      else if p.passes = 99 then { p with trim := clampTrim s p (p.trim - 1), passes := 0 }
      else { p with trim := clampTrim s p p.trim, passes := p.passes + 1 }
  applySetPoint y s

/- The device limit and its division (R448 to R450, R459). -/

/-- The sources of the device limit in force, in the order of their codes (R448, R477). -/
def limitSources (y : Sys) : List (Nat × Nat) :=
  let p := y.dev.power
  [(0, 1750), (1, pwrCfg y 0 2 1750), (2, p.grant.getD (pwrCfg y 2 2 1750)), (3, p.flowSource)]
    ++ (if p.envStale then [(4, 1183)] else []) ++ (if p.coolantLoss then [(5, 300)] else [])

/-- The smallest source; the lowest code of equal ones. -/
def setLimit (y : Sys) : Sys :=
  let l := limitSources y
  let w := l.foldl (fun m s => min m s.2) 1750
  let src := ((l.find? fun s => s.2 == w).map Prod.fst).getD 0
  y.onPower fun p => { p with limit := w, limitSrc := src }

/-- The class of a core: the largest CRIT_CLASS of its steps that have issued and not ended (R450). -/
def coreClass (y : Sys) (s : Nat) : Nat :=
  ((y.core s).steps.filter fun st => !st.done && st.endAt.isNone).foldl (fun m st => max m (bits (fld st.desc 1 1) 0 2)) 0

/-- A core of the division: its site, class, weight and share in W. -/
structure Share where
  site : Nat
  cls : Nat
  weight : Nat
  share : Int
  deriving DecidableEq, Repr

/-- The shares in W before reservations; the power of everything else is in microwatts (R450). -/
def baseShares (y : Sys) (cores : List Nat) : List Share :=
  let avail : Int := (10 ^ 6 * y.dev.power.limit : Nat) - (y.dev.power.otherUw : Int)
  let n := cores.length
  let lo : Int := coreMin y
  let hi : Int := coreMax y
  let rest : Int := avail - 1000000 * (lo * n)
  let of := fun s => (⟨s, coreClass y s, classWeight y (coreClass y s), 0⟩ : Share)
  let l := cores.map of
  if rest < 0 then l.map fun c => { c with share := max 0 (avail / (1000000 * (n : Int))) }
  else
    let sum : Int := ((l.map Share.weight).sum : Nat)
    let l := l.map fun c => { c with share := lo + rest * c.weight / (1000000 * sum) }
    let excess := (l.map fun c => max 0 (c.share - hi)).foldl (· + ·) 0
    let below : Int := (((l.filter fun c => decide (c.share < hi)).map Share.weight).sum : Nat)
    l.map fun c => if c.share < hi then { c with share := min hi (c.share + excess * c.weight / below) } else c

/-- W that a heavy phase announced by HINT adds: its current at the set point of 0.5 V + k * 2.5 mV (R447, R459). -/
def reservation (y : Sys) (s : Nat) : Nat :=
  let p := y.pow s
  let t := sbc y.dev
  let amps := ((p.boosts.filter fun b => b.hint && decide (b.fromSbc ≤ t) && decide (t < b.toSbc)).map Boost.amps).sum
  amps * (200 + p.setCode) / 400

/-- Takes W from the cores of lower classes, the lowest class first, none below CORE_MIN_W (R459). -/
def takeFrom (lo : Int) (donors : List Share) (want : Int) (l : List Share) : Int × List Share :=
  donors.foldl (fun r c =>
    let can := max 0 (min (want - r.1) (c.share - lo))
    (r.1 + can, r.2.map fun x => if x.site == c.site then { x with share := x.share - can } else x)) (0, l)

/-- One core's reservation (R459). -/
def reserveFor (y : Sys) (l : List Share) (s : Nat) : List Share :=
  match l.find? fun c => c.site == s with
  | none => l
  | some c =>
    let want : Int := reservation y s
    if want = 0 then l
    else
      let donors := (List.range 4).flatMap fun k => l.filter fun x => x.cls == k && decide (k < c.cls)
      let r := takeFrom (coreMin y) donors want l
      r.2.map fun x => if x.site == s then { x with share := x.share + r.1 } else x

/-- The points of a site or of the whole base die at which a limit of R465 holds. -/
def limitedPoint (y : Sys) (s : Nat) : Bool :=
  let own := [4 * s, 4 * s + 2, 72 + s, 306 + s] ++ (List.range 12).map fun l => 90 + 18 * l + s
  (own ++ [324, 325, 326, 327, 328, 329]).any fun i => (y.sensor i).limited

/-- thermal_limit of a core (R465). -/
def thermalLimit (y : Sys) (s : Nat) : Nat := if limitedPoint y s then coreMin y else Config.thermLimit s (windowOf y.dev)

/-- Divides the device limit among the powered cores (R450). -/
def divide (y : Sys) : Sys :=
  let cores := poweredSites y.dev
  let l := cores.foldl (reserveFor y) (baseShares y cores)
  y.each l fun y c =>
    let w := min (min c.share.toNat (coreMax y)) (thermalLimit y c.site)
    y.onSitePow c.site fun p => { p with limitW := w, cls := c.cls }

/- Sudden coolant loss (R470). -/

/-- A sudden loss is detected on path 1 (report) or 2 (slope): the limit that stands is divided again at once, its 300 W source
counts from the next window boundary; a second detection changes nothing (R470). -/
def coolantLost (y : Sys) (path flow : Nat) : Sys :=
  if y.dev.power.coolantLoss then y
  else
    let y := divide (y.onPower fun p => { p with coolantLoss := true })
    let y := requestHold y 5 0
    event y 0x0A06 (leBytes 1 path ++ leBytes 2 flow)

/- Sensors (R40, R463, R464, R468, R469, R473). -/

/-- A temperature as a signed 16-bit value (R476). -/
def tempBytes (t : Int) : List Byte := leBytes 2 (toBits 16 t)

/-- A hot spot's two sensors differ by more than 5 C: once per start (R464). -/
def checkDisagree (y : Sys) (k : Nat) : Sys :=
  let a := (y.sensor (2 * k)).reading
  let b := (y.sensor (2 * k + 1)).reading
  if 40 < (a : Int) - b ∨ 40 < (b : Int) - a then
    if y.dev.power.disagreed.contains k then y
    else
      let y := y.onPower fun p => { p with
        disagreed := p.disagreed ++ [k], disagree := if k < 32 ∧ bitAt p.disagree k = false then p.disagree + 2 ^ k else p.disagree }
      event y 0x0A03 (leBytes 1 (k / 2) ++ leBytes 1 (k % 2) ++ leBytes 2 a ++ leBytes 2 b)
  else y

/-- A sensor against the model's estimate: 50 windows beyond 10 C make it suspect (R464). -/
def checkSuspect (y : Sys) (i : Nat) : Sys :=
  let x := y.sensor i
  let est := Config.thermEstimate i (windowOf y.dev)
  let far := decide (80 < est - x.reading) || decide (80 < (x.reading : Int) - est)
  let n := if far then x.beyond + 1 else 0
  let y := y.onSensor i fun x => { x with gap := est - x.reading, beyond := n }
  if 50 ≤ n ∧ x.suspect = false then
    event (y.onSensor i fun x => { x with suspect := true }) 0x0A04 (leBytes 2 i ++ leBytes 2 x.reading ++ tempBytes est)
  else y

/-- A DRAM tile's reading against the estimate from its neighbours and its activity (R468, R469). -/
def checkOverride (y : Sys) (i : Nat) : Sys :=
  let x := y.sensor i
  let gap := Config.tileEstimate i (windowOf y.dev) - x.reading
  let low := if 48 < gap then x.lowWindows + 1 else 0
  let ok := if gap ≤ 24 then x.okWindows + 1 else 0
  let y := y.onSensor i fun x => { x with lowWindows := low, okWindows := ok }
  let say := fun (y : Sys) (set : Bool) =>
    event y 0x0A05 (leBytes 1 (b2n set) ++ leBytes 1 ((i - 90) % 18) ++ leBytes 1 ((i - 90) / 18 + 1) ++ tempBytes gap)
  if !x.override && decide (50 ≤ low) then say (y.onSensor i fun x => { x with override := true, okWindows := 0 }) true
  else if x.override && decide (1000 ≤ ok) then say (y.onSensor i fun x => { x with override := false, lowWindows := 0 }) false
  else y

/-- The temperature of a point that a limit acts on: a hot spot's arbitrated one at its even sensor (R464, R465). -/
def limitTemp (y : Sys) (i : Nat) : Int := arbitrated y.dev i

/-- The limit of a point and the margin by which it must fall again, in 0.125 C (R465). -/
def pointLimit (y : Sys) (i : Nat) : Int × Int :=
  if i < 72 then (thermCfg y 0 105, 16)
  else if i < 90 then (thermCfg y 1 100, 24)
  else if i < 306 then (thermCfg y 2 95, 24)
  else (thermCfg y 3 105, 24)

/-- A point against its configured limit and its operating limit (R40, R465, R473). -/
def checkLimit (y : Sys) (i : Nat) : Sys :=
  let t := limitTemp y i
  let lim := pointLimit y i
  let was := (y.sensor i).limited
  let now := if was then decide (lim.1 - lim.2 < t) else decide (lim.1 < t)
  let y := y.onSensor i fun x => { x with
    limited := now, overLimit := if i < 72 then decide (840 < t) else if 90 ≤ i ∧ i < 306 then decide (760 < t) else false }
  if i < 72 ∧ now = true ∧ was = false then event y 0x0A0A (leBytes 1 (i / 4) ++ leBytes 1 (i % 4 / 2)) else y

/-- Points with a limit of their own: hot spots by their even sensor, and every other sensor. -/
def limitPoints : List Nat := (List.range 36).map (2 * ·) ++ (List.range 258).map (72 + ·)

/-- A hot spot rose faster than predicted; the second window in a row is a sudden loss (R470). -/
def checkSlope (old : Int) (sampled : Bool) (y : Sys) (i : Nat) : Sys :=
  let past := (arbitrated y.dev i - old - Config.thermRise i (windowOf y.dev)) * 10
  let fast := sampled && decide (8 * (cfg y 4 4 1 20 : Int) < past)
  let n := if fast then (y.sensor i).rises + 1 else 0
  let y := y.onSensor i fun x => { x with rises := n }
  if 2 ≤ n then coolantLost y 2 (y.dev.power.flow.getD 0) else y

/- Memory layers (R270, R271, R465, R468). -/

/-- The tiles of a memory layer, 0 to 11, as sensors. -/
def layerTiles (l : Nat) : List Nat := (List.range 18).map fun s => 90 + 18 * l + s

/-- The governor and throttle of a layer at a window boundary (R270, R271, R465, R468). -/
def windowLayer (y : Sys) (l : Nat) : Sys :=
  let w := windowOf y.dev
  let tiles := layerTiles l
  let hot := tiles.any fun i => decide (680 ≤ arbitrated y.dev i)
  let past := tiles.any fun i => (y.sensor i).override
  let model := past || tiles.any fun i => decide (680 ≤ Config.thermBound i w)
  let halved := past || tiles.any fun i => decide (thermCfg y 2 95 - 40 < Config.thermBound i w)
  let stop := tiles.any fun i => (y.sensor i).limited
  y.onLayer l fun x => { x with
    actLast := x.actWindow, actWindow := 0, causeTemp := hot, causeActivity := false, causeModel := model
    dbl := x.dirtyWindow || hot || model, dirtyWindow := hot || model, halved := halved, noTokens := stop }

/- The window (R447 to R450, R455, R477). -/

/-- The accepted grant takes effect at the first window boundary at or after its beat (R449). -/
def windowGrant (y : Sys) : Sys :=
  match y.dev.power.nextGrant with
  | some g => if g.2 ≤ y.dev.beat.wbc then y.onPower fun p => { p with grant := some g.1, nextGrant := none } else y
  | none => y

/-- Lost STATUS and FAULT messages of a site: one record of class SHUTTLE_PARITY for the window (R492, R495). -/
def windowLosses (y : Sys) (s : Nat) : Sys :=
  let n := nth y.dev.noc.sites s {}
  let rec1 := fun (y : Sys) (detail count : Nat) =>
    if count = 0 then y else faultRecCc y (faultSite y s { cls := 0x0A, location := s, detail := detail, count := count })
  let y := rec1 (rec1 y 3 n.lostStatus) 4 n.lostFault
  y.onSiteNoc s fun n => { n with lostStatus := 0, lostFault := 0 }

/-- What the window measured of a site's power and slack; its counts begin again (R455, R457, R477). -/
def windowSite (m : WindowMeasure) (y : Sys) (s : Nat) : Sys :=
  let y := y.onSitePow s fun p => { p with
    powerW := min 255 (nth m.vcoreUw s 0 / 10 ^ 6), slack := p.slackNow, slackNow := 255, burstsWin := 0, stormed := false }
  y.onSiteProt s fun p => { p with recsInWindow := 0 }

/-- The parity of an entry of the control complex's storage fails: every partition stops, and an open hold is requested (R283, R492,
R495). -/
def spoiledStorage (spoiled : Option Nat) (y : Sys) : Sys :=
  match spoiled with
  | none => y
  | some e => requestHold (faultStopAll (faultRecCc y { cls := 0x0B, location := e, detail := 6, flags := 5 })) 4 0

/-- WINDOW_BOUNDARY: in a beat whose WBC is a multiple of 31,250 (R270, R298, R447 to R450, R460 to R470, R492). -/
def windowBoundary (m : WindowMeasure) (y : Sys) : Sys :=
  if y.dev.beat.wbc % 31250 ≠ 0 ∨ y.dev.boot.power = .off then y
  else
    let before := (List.range 36).map fun k => arbitrated y.dev (2 * k)
    let seen := (y.sensor 0).sampled
    let vcore := ((List.range 18).map fun s => nth m.vcoreUw s 0).sum
    let y := y.onPower fun p => { p with
      sensors := (List.range 330).map fun i => { nth p.sensors i {} with reading := nth m.readings i 0, sampled := true }
      vcoreW := vcore / 10 ^ 6, otherUw := m.otherUw, inputW := (vcore + m.otherUw) / 10 ^ 6, voltTable := pwrCfg y 0xA 1 0 == 1 }
    let y := y.each (List.range 36) checkDisagree
    let y := y.each (List.range 330) checkSuspect
    let y := y.each limitPoints checkLimit
    let y := y.each (List.range 12) windowLayer
    let y := y.each ((List.range 216).map (90 + ·)) checkOverride
    let y := y.each (List.range 18) (windowSite m)
    let y := divide (setLimit (windowGrant y))
    let y := y.each (List.range 36) fun y k => checkSlope (nth before k 0) seen y (2 * k)
    let y := y.each (List.range 18) (windowVolt m)
    spoiledStorage m.spoiled (y.each (List.range 18) windowLosses)

def execWindowBoundary (m : WindowMeasure) (s : State) : Host.Outcome State Fault Refusal := onSys (windowBoundary m) s

/-- GRANT_TIMEOUT: no grant has been accepted for GRANT_TIMEOUT_MS (R449). -/
def grantTimeout (y : Sys) : Sys :=
  let p := y.dev.power
  match p.grantSeq with
  | none => y
  | some q =>
    if p.grantStale || y.dev.beat.wbc < p.grantAt + pwrCfg y 0xE 2 100 * 31250 then y
    else event (y.onPower fun p => { p with grant := none, nextGrant := none, grantStale := true }) 0x0A01 (leBytes 4 q)

def execGrantTimeout (s : State) : Host.Outcome State Fault Refusal := onSys grantTimeout s

/-- ENV_STALE_TIMEOUT: no report has been accepted for 3,125,000 beats (R467; DEDUCED, log 66). -/
def envStaleTimeout (y : Sys) : Sys :=
  let p := y.dev.power
  if p.envStale || y.dev.beat.wbc < p.envAt + 3125000 then y
  else event (y.onPower fun p => { p with envStale := true }) 0x0A02 (leBytes 4 (p.envSeq.getD 0))

def execEnvStaleTimeout (s : State) : Host.Outcome State Fault Refusal := onSys envStaleTimeout s

/- Bubbles, slack and droop (R451 to R457). -/

/-- The next bubble ratio, from the power of the rail in microwatts and the limit in W (R451). -/
def nextRatio (y : Sys) (r p limit : Nat) : Nat :=
  let top : Int := if y.dev.power.coolantLoss ∨ limit < coreMin y then 63 else 56
  let l : Int := 1000000 * (limit : Int)
  if limit = 0 then 63 else (max 0 (min top ((r : Int) + (128 * ((p : Int) - l) + l) / (2 * l)))).toNat

/-- Engines that a step still holds, with the cycles at which they release (R157, R456). -/
def openEngines (s : StepRun) (now : Nat) : List (Nat × Nat) :=
  (s.release.map fun r => (r.1, r.2 + s.lengthen)).filter fun r => decide (now < r.2)

/-- The projected release of a step in flight (R456). -/
def projected (s : StepRun) (now ratio : Nat) : Option Nat :=
  match openEngines s now with
  | [] => none
  | es =>
    match releaseA s with
    | some a => if now < a then some (now + ceilDiv ((a - now) * 64) (64 - ratio)) else some (es.foldl (fun m e => max m e.2) 0)
    | none => some (es.foldl (fun m e => max m e.2) 0)

/-- The issue cycle of the next step in the list that uses one of some engines (R456). -/
def threatened (y : Sys) (col : Nat) (engines : List Nat) : Option Nat :=
  match columnRun y col with
  | none => none
  | some (q, i, _) =>
    let site := siteOf y.dev col
    let from0 := (y.core site).nextIndex
    let n := match i.secAt 1 col with
      | some (_, len) => len / 64
      | none => 0
    ((List.range (n - from0)).find? fun k => match stepDesc y site i col (from0 + k) with
      | some d => (nominalRelease d 0 0).any fun r => engines.contains r.1
      | none => false).bind fun k =>
        (stepDesc y site i col (from0 + k)).map fun d => startCycle y q i d (placeInBeat y i col (from0 + k))

/-- The projection of one step: its margin is recorded, a shortfall requests a hold (R456, R457). -/
def projectStep (site col now ratio : Nat) (y : Sys) (s : StepRun) : Sys :=
  match projected s now ratio, threatened y col ((openEngines s now).map Prod.fst) with
  | some rel, some start =>
    let margin := min 255 ((start - rel) / 64)
    let y := y.onSitePow site fun p => { p with slackNow := min p.slackNow margin }
    shortfallHold y (if s.lengthen < 2 * s.droopCycles then 3 else 1) rel start
  | _, _ => y

/-- BUBBLE_LOOP_PERIOD: every 2,000 cycles the powered cores set their ratios and project their steps (R451, R456, R457). -/
def bubbleLoop (powerUw : List Nat) (cyc : Nat) (y : Sys) : Sys :=
  y.each (poweredSites y.dev) fun y s =>
    let y := gateTo cyc y s
    let p := y.pow s
    let y := y.onSitePow s fun p => { p with newRatio := nextRatio y p.ratio (nth powerUw s 0) p.limitW }
    match colAt y.dev s with
    | none => y
    | some col =>
      y.each ((y.core s).steps.filter fun st => !st.done && st.endAt.isNone && !isHostMove st.desc)
        (projectStep s col (cycNow y.dev cyc) p.ratio)

def execBubbleLoopPeriod (powerUw : List Nat) (cyc : Nat) (s : State) : Host.Outcome State Fault Refusal := onSys (bubbleLoop powerUw cyc) s

/-- DROOP_TRIP: array issue is gated from cycle t + 2 to t + 9; a trip during a burst extends it (R454, R455). -/
def droopTrip (site cyc : Nat) (y : Sys) : Sys :=
  if !y.dev.boot.powered.contains site then y
  else
    let t := cycNow y.dev cyc
    let p := y.pow site
    let during := p.gates.any fun g => decide (t ≤ g.2)
    let gates := if during then p.gates.map fun g => if t ≤ g.2 then (g.1, max g.2 (t + 9)) else g else p.gates ++ [(t + 2, t + 9)]
    let n := p.burstsWin + b2n (!during)
    let y := y.onSitePow site fun p => { p with gates := gates, bursts := sat32 (p.bursts + 1), burstsWin := n }
    if n ≤ 64 ∨ p.stormed = true then y
    else
      let y := y.onSitePow site fun p => { p with
        stormed := true, trim := if y.dev.power.voltTable then p.trim else clampTrim site p (p.trim + 1) }
      event (applySetPoint y site) 0x0A09 (leBytes 1 site ++ leBytes 2 n)

def execDroopTrip (site : Site) (cyc : Nat) (s : State) : Host.Outcome State Fault Refusal := onSys (droopTrip site cyc) s

/- Heavy phases (R165, R458). -/

/-- HEAVY_PHASE_START: the first wall beat HEAVY_LEAD before a step's start beat, or the own start beat of a HINT (R458). -/
def heavyStart (col index : Nat) (y : Sys) : Sys :=
  match columnRun y col with
  | none => y
  | some (_, i, r) =>
    let site := siteOf y.dev col
    match stepDesc y site i col index with
    | none => y
    | some d =>
      let start := r.start + r.run * i.length + startOffset d
      let lead := fld d 4 1
      let hint := opOf d == 13
      let due := if hint then firstBeatOf y.dev start else decide (0 < lead) && firstBeatOf y.dev (start - lead)
      if !due || !y.dev.boot.powered.contains site then y
      else
        let b : Boost := ⟨index, start + lead, start + lead + fld d 0x1C 4, fld d 0x18 1, hint⟩
        applySetPoint (y.onSitePow site fun p => { p with boosts := (p.boosts.filter fun x => x.index != index) ++ [b] }) site

def execHeavyPhaseStart (col : Col) (index : Nat) (s : State) : Host.Outcome State Fault Refusal := onSys (heavyStart col index) s

/-- A boost has ended: the step has ended or can no longer issue, or the announced phase is over (R458). -/
def boostOver (y : Sys) (site : Nat) (b : Boost) : Bool :=
  let c := y.core site
  if b.hint then decide (b.toSbc ≤ sbc y.dev)
  else match liveStep c b.index with
    | some s => s.endAt.isSome
    | none => decide (b.index < c.nextIndex) || c.seqState == 3

/-- HEAVY_PHASE_END (R458). -/
def heavyEnd (col index : Nat) (y : Sys) : Sys :=
  let site := siteOf y.dev col
  if (y.pow site).boosts.any fun b => b.index == index && boostOver y site b then
    applySetPoint (y.onSitePow site fun p => { p with boosts := p.boosts.filter fun b => b.index != index }) site
  else y

def execHeavyPhaseEnd (col : Col) (index : Nat) (s : State) : Host.Outcome State Fault Refusal := onSys (heavyEnd col index) s

/- The trip (R39, R399, R472). -/

/-- Every compute rail is removed. -/
def allRailsOff (y : Sys) : Sys := y.each (List.range 18) railsOff

/-- THERMAL_TRIP: clocks stop, rails go, the pin is latched low; every partition stops (R39, R397, R399, R472). -/
def thermalTrip (sensor : Nat) (m : Module) (y : Sys) : Module × Sys :=
  if y.dev.boot.power = .off ∨ m.tripLatched = true ∨ 72 ≤ sensor then (m, y)
  else
    let y := (allRailsOff y).onPower fun p => { p with clocksStopped := true }
    let y := y.onBoot fun b => { b with warmOk := false }
    let y := requestHold (faultStopAll y) 5 0
    ({ m with tripLatched := true }, event y 0x0A08 (leBytes 2 sensor))

def execThermalTrip (sensor : Nat) (s : State) : Host.Outcome State Fault Refusal := onAll (thermalTrip sensor) s

/- The PWR commands (R388, R389, R449, R466, R467, R470, R471). -/

/-- A sequence number is 1 to 2^31 ahead of the last accepted one; the first is always accepted (R389, R449). -/
def seqAhead (last : Option Nat) (n : Nat) : Bool :=
  match last with
  | none => true
  | some l => let d := (n + 2 ^ 32 - l) % 2 ^ 32; decide (1 ≤ d) && decide (d ≤ 2 ^ 31)

/-- PWR_GRANT (R388, R449). -/
def pwrGrant (m : Nat) : Sys → Sys := command 6 1 0x10 m fun r y =>
  let w := r.field 0 2
  if w < 300 ∨ 2000 < w ∨ 2 ^ 56 ≤ r.field 8 8 then finish y m stPayload []
  else if !seqAhead y.dev.power.grantSeq (r.field 4 4) then finish y m stRefused []
  else
    finish (y.onPower fun p => { p with
      nextGrant := some (w, r.field 8 8), grantSeq := some (r.field 4 4), grantAt := y.dev.beat.wbc, grantStale := false }) m 0 []

def execPwrGrant (mb : Mbx) (s : State) : Host.Outcome State Fault Refusal := onSys (pwrGrant mb) s

/-- The coolant flow source of a flow (R466). -/
def flowWatts (f : Nat) : Nat := if 1800 ≤ f then 1750 else if f < 900 then 900 else 900 + (f - 900) * 850 / 900

/-- The flow source is computed again; crossing 1,750 W is reported (R466). -/
def setFlow (y : Sys) (flow : Option Nat) : Sys :=
  let old := y.dev.power.flowSource
  let new := flowWatts (flow.getD 1200)
  let y := y.onPower fun p => { p with flow := flow, flowSource := new }
  if (old < 1750) = (new < 1750) then y
  else event y 0x0A07 (leBytes 1 (b2n (decide (new < 1750))) ++ leBytes 2 new)

/-- An accepted report is used (R389, R466, R467, R470). -/
def useReport (y : Sys) (r : CmdRun) : Sys :=
  let v := r.field 0xC 1
  let temp := fun off b => if bitAt v b then some (sext 16 (r.field off 2)) else none
  let flow := if bitAt v 3 then some (r.field 0xA 2) else none
  let last := y.dev.power.lastFlow
  let y := y.onPower fun p => { p with
    envSeq := some (r.field 0 4), envAt := y.dev.beat.wbc, envStale := false, inlet := temp 4 0, mid := temp 6 1, outlet := temp 8 2
    lastFlow := flow.orElse fun _ => p.lastFlow }
  let y := setFlow y flow
  match flow with
  | none => y
  | some f =>
    let halved := match last with
      | some l => decide (2 * f < l)
      | none => false
    if f < 300 || halved then coolantLost y 1 f else y

/-- PWR_ENV (R388, R389). -/
def pwrEnv (m : Nat) : Sys → Sys := command 6 2 0x10 m fun r y =>
  if 16 ≤ r.field 0xC 1 ∨ r.field 0xE 2 ≠ 0 then finish y m stPayload []
  else if !seqAhead y.dev.power.envSeq (r.field 0 4) then finish y m stRefused []
  else finish (useReport y r) m 0 []

def execPwrEnv (mb : Mbx) (s : State) : Host.Outcome State Fault Refusal := onSys (pwrEnv mb) s

/-- PWR_HINT: an input of the thermal model (R388). -/
def pwrHint (m : Nat) : Sys → Sys := command 6 3 4 m fun r y =>
  finish (y.onPower fun p => { p with hintW := r.field 0 2, hintMs := r.field 2 2 }) m 0 []

def execPwrHint (mb : Mbx) (s : State) : Host.Outcome State Fault Refusal := onSys (pwrHint mb) s

/-- PWR.COOLANT with one of its actions (R388, R471); an action that is not defined is refused by any of the rows. -/
def pwrCoolant (action m : Nat) (act : Sys → Sys) : Sys → Sys := command 6 4 1 m fun r y =>
  if 2 < r.field 0 1 then finish y m stPayload []
  else if r.field 0 1 ≠ action then y
  else if !y.dev.power.coolantLoss then finish y m stState []
  else finish (act y) m 0 []

/-- ACTION 0 keeps the 300 W source (R471). -/
def execPwrCoolantStay (mb : Mbx) (s : State) : Host.Outcome State Fault Refusal := onSys (pwrCoolant 0 mb id) s

/-- The 300 W source goes and COOLANT_LOSS is cleared (R471). -/
def coolantOver (y : Sys) : Sys := y.onPower fun p => { p with coolantLoss := false }

def execPwrCoolantResume (mb : Mbx) (s : State) : Host.Outcome State Fault Refusal := onSys (pwrCoolant 1 mb coolantOver) s

/-- ACTION 2: every partition stops and every compute rail is removed (R471). -/
def coolantStop (y : Sys) : Sys := coolantOver (allRailsOff (faultStopAll y))

def execPwrCoolantStop (mb : Mbx) (s : State) : Host.Outcome State Fault Refusal := onSys (pwrCoolant 2 mb coolantStop) s

end Sys2Proof.Machine
end

