-- ==== Sys2Proof/Machine/Csr.lean ====
section
/-! DEFINITION. The CSR space: what a read of each register returns and what a write of it does (R6, R92, R122, R148, R189, R225,
R227, R253, R272, R299, R300, R323, R349, R394, R400, R424, R446, R477, R498). Offsets count from 0x7F_0000_0000. -/

namespace Sys2Proof.Machine

/-- Index of a register of a group with a base, a stride and a number of members. -/
def regIndex (r base stride count : Nat) : Option Nat :=
  if base ≤ r ∧ (r - base) % stride = 0 ∧ (r - base) / stride < count then some ((r - base) / stride) else none

/-- The low 32 bits of a number, and the bits above them. -/
def lo32 (n : Nat) : Nat := bits n 0 32
def hi32 (n : Nat) : Nat := n / 2 ^ 32

/-- A number with its low 32 bits replaced, and with the w bits above them replaced (R424). -/
def setLo (old v : Nat) : Nat := hi32 old * 2 ^ 32 + lo32 v
def setHi (w old v : Nat) : Nat := bits v 0 w * 2 ^ 32 + lo32 old

/-- The code of a partition state (R396, R424). -/
def PartState.code : PartState → Nat
  | .idle => 0 | .running => 1 | .held => 2 | .faultStop => 3

/-- The code of a beat role (R92). -/
def Role.code : Role → Nat
  | .lone => 0 | .member => 1 | .master => 2 | .standby => 3

section Read

variable (y : Sys)

/-- BOOT_STATE (R424). -/
def bootState : Nat :=
  let b := y.dev.boot
  b.power.code + 16 * b2n b.warmOk + 32 * b2n b.warmStart + 64 * b2n b.fatal
    + ((List.range 4).map fun q => (partState y.dev q).code * 2 ^ (2 * q + 8)).sum
    + maskOf ((List.range 4).filter fun q => nth b.disabling q .no != .no) * 2 ^ 16

/-- The boot block (R424). -/
def readBoot (r : Nat) : Nat :=
  let b := y.dev.boot
  match r with
  | 0x000 => bootState y
  | 0x004 => b.ctrlStep + 512 * b2n b.ctrlWarm
  | 0x008 => b.stepCode + 256 * b.stepResult + 65536 * b.stepError
  | 0x010 => lo32 b.defectAddr
  | 0x014 => hi32 b.defectAddr
  | 0x018 => b.defectLen
  | 0x020 => lo32 b.mapAddr
  | 0x024 => hi32 b.mapAddr
  | 0x028 => b.mapLen
  | 0x030 => lo32 b.manAddr
  | 0x034 => hi32 b.manAddr
  | 0x038 => b.manLen
  | 0x040 => lo32 b.imgAddr
  | 0x044 => hi32 b.imgAddr
  | 0x048 => b.imgLen
  | 0x050 => lo32 Config.serial.toNat
  | 0x054 => hi32 Config.serial.toNat
  | 0x060 => maskOf b.coreOk
  | 0x064 => maskOf b.memOk
  | 0x068 => b.wave + 8 * b2n b.wavesBusy + 16 * maskOf b.powered
  | 0x070 => b.rstLevel + 8 * b2n b.rstBusy + 16 * b.rstTarget + 65536 * b.rstCount
  | 0x074 => b.discards
  | _ => 0

/-- BEAT_STATUS (R92). -/
def beatStatus : Nat :=
  let b := y.dev.beat
  b2n b.aligned + 2 * b2n b.holdover + 4 * b2n b.holdActive + 8 * b2n b.takeover + 16 * b2n b.alignLost
    + 32 * b2n b.ledgerMismatch + 64 * b2n b.holdLate + 128 * b2n b.confirmMissing + 256 * b2n b.setMismatch
    + 4096 * b.upstream + 65536 * toBits 8 b.phaseErr

/-- The beat block (R92). -/
def readBeat (r : Nat) : Nat :=
  let b := y.dev.beat
  match r with
  | 0x000 => lo32 b.wbc
  | 0x004 => b.latchWbc
  | 0x008 => lo32 (sbc y.dev)
  | 0x00C => b.latchSbc
  | 0x010 => lo32 b.holdAcc
  | 0x014 => b.latchAcc
  | 0x020 => b.role.code + 256 * b.term + 65536 * b.masterId
  | 0x024 => beatStatus y
  | 0x070 => propBeats y + 65536 * b.holdsIssued
  | 0x088 => 2 * b2n b.loadRefused
  | _ => match regIndex r 0x040 4 12 with
    | some p => let x := y.port p; x.delay + 64 * b2n x.measured + 65536 * x.pad
    | none => 0

/-- Columns whose preparation is in progress (R225). -/
def prepBusy : Nat :=
  maskOf ((List.range y.dev.map.n).filter fun c => match (y.core (siteOf y.dev c)).prep with
    | some p => !p.finished
    | none => false)

/-- The walker block (R225). -/
def readWalker (r : Nat) : Nat :=
  let w := y.dev.walker
  match r with
  | 0x000 => prepBusy y
  | 0x004 => w.errCode + 256 * w.errCol + 2 ^ 31 * b2n w.errValid
  | 0x008 => w.descCount
  | 0x00C => w.dropped
  | 0x010 => w.rowsBank + 65536 * w.rowsDma
  | _ => match regIndex r 0x040 4 16 with
    | some c => bits (nth w.free c 0) 0 24 + 2 ^ 24 * b2n (nth w.low c false)
    | none => 0

/-- The memory-map block (R253). -/
def readMap (r : Nat) : Nat :=
  let m := y.dev.map
  match r with
  | 0x000 => b2n m.maint + 2 * b2n m.maintRefused
  | 0x004 => m.n + 256 * m.spare0 + 65536 * m.spare1
  | 0x080 => lo32 m.errAddr
  | 0x084 => hi32 m.errAddr
  | 0x088 => m.errCause + 16 * m.errSource + 64 * b2n m.errWrite + 2 ^ 31 * b2n m.errValid
  | 0x08C => m.errCount
  | 0x0C0 => migStatus m.mig
  | 0x0C4 => m.mig.poisonCount
  | _ => match regIndex r 0x010 4 16 with
    | some c => let e := nth m.cols c {}; e.site + 256 * e.incarnation + 65536 * b2n e.valid + 131072 * b2n e.migrating
    | none => 0

/-- RL_LAYER of a layer, 0 to 11 (R272). -/
def layerStatus (l : Nat) : Nat :=
  let x := nth y.dev.prot.layers l {}
  b2n x.dbl + 2 * b2n x.causeTemp + 4 * b2n x.causeActivity + 8 * b2n x.causeModel + 16 * b2n x.halved
    + 32 * b2n (!(waitingOps y l).isEmpty) + 256 * bits (x.tokens / 65536) 0 24

/-- The row-logic block (R272). -/
def readRow (r : Nat) : Nat :=
  let p := y.dev.prot
  match r with
  | 0x100 => p.rlRefused
  | 0x104 => p.rlThrottleWait
  | 0x108 => p.rlBusCopies
  | 0x10C => p.rlReqWaits
  | _ => match regIndex r 0x040 4 12, regIndex r 0x080 4 12, regIndex r 0x0C0 4 12 with
    | some l, _, _ => layerStatus y l
    | _, some l, _ => (nth p.layers l {}).actWindow
    | _, _, some l => (nth p.layers l {}).actLast
    | _, _, _ => 0

/-- A register of a site's protection (R300). -/
def readSiteProt (s k : Nat) : Nat :=
  let x := nth y.dev.prot.sites s {}
  match k with
  | 0x00 => x.ce
  | 0x04 => x.ue
  | 0x08 => x.suppressed
  | 0x0C => x.loc.place + 2 ^ 28 * b2n x.loc.unc + 2 ^ 29 * x.loc.source + 2 ^ 31 * b2n x.loc.valid
  | 0x10 => x.bufCe
  | 0x14 => x.bufUe
  | 0x18 => x.bufLoc.place + 2 ^ 24 * b2n x.bufLoc.unc + 2 ^ 25 * x.bufLoc.source + 2 ^ 31 * b2n x.bufLoc.valid
  | 0x1C => siteLaps y s
  | 0x20 => x.scrubLap
  | 0x24 => x.scrubLaps
  | _ => 0

/-- The protection block (R300). -/
def readProt (r : Nat) : Nat :=
  let p := y.dev.prot
  match r with
  | 0x000 => b2n p.fillDone + 2 * b2n p.selfDone + 4 * b2n p.selfFail + 256 * maskOf p.selfSites
  | 0x004 => p.fillBeats
  | 0x010 => lo32 p.injAddr
  | 0x014 => hi32 p.injAddr
  | 0x018 => p.injCount + 4 * b2n p.injArm + 8 * b2n p.injDone + 16 * b2n p.injCancelled
  | _ => match regIndex (r / 64 * 64) 0x100 64 18 with
    | some s => readSiteProt y s (r % 64)
    | none => 0

/-- The network block (R323). -/
def readNoc (r : Nat) : Nat :=
  let n := y.dev.noc
  match r with
  | 0x000 => maskOf n.failed + 2 ^ 18 * b2n (hostTables y) + 2 ^ 19 * b2n (detoured y) + 2 ^ 20 * b2n n.ccSingle
  | 0x004 => maskOf n.fenced
  | 0x008 => n.hopSrc + 256 * n.hopDst
  | 0x00C => hopInfo y
  | _ => match regIndex (r / 16 * 16) 0x100 16 18 with
    | some s =>
      let x := nth n.sites s {}
      match r % 16 with
      | 0 => x.fenceDrops
      | 4 => x.staleDrops
      | 8 => x.vcRetries
      | 12 => x.shuttleErr
      | _ => 0
    | none => 0

/-- A register of a span port (R349). -/
def readPort (p k : Nat) : Nat :=
  let x := y.port p
  match k with
  | 0x00 => x.state.code + 16 * x.lanes + 256 * x.lanesFailed + 4096 * b2n x.lost + 8192 * b2n x.misplaced
      + 16384 * b2n x.degradeEvent + 32768 * b2n x.qualLong
  | 0x04 => x.expId + 4096 * x.expPort + 65536 * b2n x.use + 131072 * b2n x.fast
  | 0x08 => x.pId + 4096 * x.pPort + 65536 * x.pInc + 2 ^ 24 * b2n x.pValid
  | 0x0C => x.lanePass + 16 * x.laneFail + 256 * b2n x.qualDone
  | 0x10 => x.corr
  | 0x14 => x.uncorr
  | 0x18 => x.crc
  | 0x1C => x.stale
  | 0x20 => x.unarmed
  | 0x24 => x.transitN
  | 0x28 => x.pauseN
  | _ => 0

/-- The span block (R349). -/
def readSpan (r : Nat) : Nat :=
  let s := y.dev.span
  match r with
  | 0x000 => s.deviceId + 65536 * s.selfInc + 2 ^ 24 * b2n s.dismissed + 2 ^ 25 * b2n (s.ports.any fun p => p.state != .down)
  | 0x004 => s.bootIn + 16 * b2n s.bootLocal + 65536 * s.bootOut + 2 ^ 31 * b2n s.bootValid
  | _ => match regIndex (r / 64 * 64) 0x100 64 12 with
    | some p => readPort y p (r % 64)
    | none => 0

/-- Mailboxes whose OWNER is 1 (R394). -/
def ownedMbx : Nat := maskOf ((List.range 16).filter fun m => mbxOwner y m == 1)

/-- The host-link block (R394). -/
def readHost (r : Nat) : Nat :=
  let h := y.dev.host
  match r with
  | 0x000 => (y.half 0).state + 4 * (y.half 1).state + 16 * b2n h.taking + 32 * b2n h.ringSet + 65536 * ownedMbx y
  | 0x004 => h.evtConsumer
  | 0x008 => h.evtDropped
  | 0x020 => h.snoopTimeouts
  | 0x024 => h.filter.length
  | 0x040 => (y.half 0).retries
  | 0x044 => (y.half 0).crcErr
  | 0x050 => (y.half 1).retries
  | 0x054 => (y.half 1).crcErr
  | _ => match regIndex r 0x010 4 4 with
    | some q => (nth y.dev.sched.rings q {}).consumer
    | none => 0

/-- The firmware block (R446). -/
def readFw (r : Nat) : Nat :=
  let f := y.dev.fw
  match r with
  | 0x000 => f.state + 8 * b2n f.retained + 256 * f.detail + 65536 * b2n f.keySlot
  | 0x004 => f.version + 256 * b2n f.revoked0 + 512 * b2n f.revoked1 + 1024 * b2n Config.samplePart
  | 0x008 => f.session + 256 * f.round + 65536 * chunksHeld f
  | 0x00C => maskOf f.loaded + 65536 * maskOf f.loadFailed
  | 0x010 => b2n f.ready + 2 * b2n f.flashFault + 4 * b2n f.exhausted + 8 * b2n f.treeBusy
  | 0x014 => bits f.nextLeaf 0 26
  | 0x018 => bits f.limit 0 26
  | _ => 0

/-- THERM_STATUS (R477). -/
def thermStatus : Nat :=
  let past := maskOf ((List.range 12).filter fun l => (layerTiles l).any fun i => (y.sensor i).override)
  let hottest := (List.range 18).foldl (fun (t : Int) s => max t (siteTemp y.dev s)) (siteTemp y.dev 0)
  past + 65536 * toBits 16 hottest

/-- THERM_READ of the selected sensor; GAP is the model's estimate less the reading, in whole degrees (R477). -/
def thermRead : Nat :=
  if 330 ≤ y.dev.power.sel then 0
  else
    let x := y.sensor y.dev.power.sel
    bits x.reading 0 16 + 65536 * toBits 8 (max (-128) (min 127 (x.gap / 8))) + 2 ^ 24 * b2n x.suspect + 2 ^ 25 * b2n x.sampled

/-- A register of a site's power (R477). -/
def pwrCore (s : Nat) : Nat :=
  let x := y.pow s
  bits x.limitW 0 8 + 256 * bits x.ratio 0 6 + 16384 * bits x.cls 0 2 + 65536 * min 255 x.powerW + 2 ^ 24 * min 255 x.slack

/-- VCORE of a site (R477). -/
def vcoreReg (s : Nat) : Nat :=
  let x := y.pow s
  x.setCode + 256 * x.tableCode + 65536 * x.trim + 2 ^ 24 * b2n (!x.boosts.isEmpty) + 2 ^ 25 * x.entry

/-- The power block (R477). -/
def readPower (r : Nat) : Nat :=
  let p := y.dev.power
  match r with
  | 0x000 => p.limitSrc + 8 * b2n p.grantStale + 16 * b2n p.envStale + 32 * b2n p.coolantLoss + 64 * b2n p.clocksStopped
      + 128 * b2n p.voltTable
  | 0x004 => sat16 p.limit + 65536 * sat16 (p.grant.getD 0)
  | 0x008 => sat16 p.inputW + 65536 * sat16 p.vcoreW
  | 0x010 => thermStatus y
  | 0x014 => p.disagree
  | 0x018 => p.sel
  | 0x01C => thermRead y
  | _ => match regIndex r 0x020 4 4, regIndex r 0x040 4 18, regIndex r 0x0A0 4 18, regIndex (r / 16 * 16) 0x100 16 18 with
    | some q, _, _, _ =>
      let s := if p.sel < 72 then p.sel / 4 else 0
      leNat ((List.range 4).map fun i => Config.voltTable s (4 * q + i))
    | _, some s, _, _ => pwrCore y s
    | _, _, some s, _ => vcoreReg y s
    | _, _, _, some s => (match r % 16 with
      | 0 => (y.pow s).bubble
      | 4 => (y.pow s).droop
      | 8 => (y.pow s).bursts
      | _ => 0)
    | _, _, _, _ => 0

/-- The silent-error block (R498). -/
def readFaults (r : Nat) : Nat :=
  let f := y.dev.faults
  match r with
  | 0x000 => maskOf ((List.range 18).filter fun s => (y.core s).replay.isSome)
  | 0x004 => lo32 f.frSeq
  | 0x00C => f.resends
  | _ => match regIndex (r / 16 * 16) 0x100 16 18 with
    | some s =>
      let x := nth f.sites s {}
      match r % 16 with
      | 0 => x.replays
      | 4 => x.replayFail
      | 8 => x.discards
      | 12 => bits x.peak 0 15
      | _ => 0
    | none => 0

/-- SEQ_STATE of a site: stopped, or as its partition is (R189; DEDUCED, log 91). -/
def seqStateOf (s : Nat) : Nat :=
  if (y.core s).seqState = 3 then 3
  else match partOfSite y s with
    | none => 0
    | some q => match partState y.dev q with
      | .running => 1
      | .held => 2
      | .idle => 0
      | .faultStop => 3

/-- SEQ_STATUS; the engines are those busy in cycle 0 of the present beat (R189; DEDUCED, log 91). -/
def seqStatus (s : Nat) : Nat :=
  let c := y.core s
  let now := y.dev.beat.wbc * 64
  seqStateOf y s + maskOf ((List.range 5).filter (engineBusy c now)) * 4
    + 128 * b2n ((List.range 255).any fun f => engineBusy c now (engF f)) + 256 * bits c.lastStep 0 24

/-- The core block of a site (R122, R148, R189). -/
def readCore (s r : Nat) : Nat :=
  let c := y.core s
  match r with
  | 0x000 => s + 256 * c.logical + 4096 * b2n c.mapped + 8192 * b2n c.bad
  | 0x004 => c.fillLat + 256 * c.drainLat + 65536 * c.spareStage + 131072 * c.sparesUsed + 524288 * b2n c.repairDone
  | 0x008 => c.badRow0 + 256 * c.badRow1 + 65536 * b2n c.spare64 + 131072 * b2n c.spare65 + 262144 * b2n c.chkRowBad
      + 524288 * b2n c.chkColBad + 1048576 * b2n c.dpuBad
  | 0x020 => c.checkCount
  | 0x024 => c.checkFail
  | 0x028 => c.checkSkipped
  | 0x030 => c.feedStall
  | 0x034 => c.drainStall
  | 0x200 => c.fp
  | 0x300 => seqStatus y s
  | 0x304 => c.missed + 65536 * c.retViol
  | _ => match regIndex r 0x100 4 16, regIndex r 0x140 4 4 with
    | some q, _ => leNat ((List.range 4).map fun i => BitVec.ofNat 8 (nth c.skew (4 * q + i) 0))
    | _, some q => ((List.range 16).map fun i => nth c.reed (16 * q + i) 2 * 4 ^ i).sum
    | _, _ => 0

end Read

/-- The site of a core block, or none (R122). -/
def coreBlock (off : Nat) : Option Nat := regIndex (off / 65536) 0x100 1 18

/-- True where an access of the boot ROM or of firmware reaches the walker block: from FW_LOADED on (R225, R400). -/
def walkerOpen (d : Dev) : Bool := decide (3 ≤ d.boot.power.code)

/-- The value that a CSR read returns; a block that no chapter assigns reads as zero (R227, R400). -/
def csrValue (y : Sys) (off : Nat) : Nat :=
  let r := off % 65536
  match off / 65536 with
  | 0x0 => readBoot y r
  | 0x2 => readBeat y r
  | 0x3 => if walkerOpen y.dev then readWalker y r else 0
  | 0x4 => readMap y r
  | 0x5 => readRow y r
  | 0x6 => readProt y r
  | 0x7 => readNoc y r
  | 0x8 => readSpan y r
  | 0x9 => readHost y r
  | 0xA => readFw y r
  | 0xB => readPower y r
  | 0xC => readFaults y r
  | _ => match coreBlock off with
    | some s => readCore y s r
    | none => 0

/-- A CSR read: its value, and the latch of a beat count (R92). -/
def csrRead (y : Sys) (off : Nat) : Nat × Sys :=
  let v := csrValue y off
  let latch := fun w => (v, y.onBeat (beatLatch w))
  match off with
  | 0x20000 => latch .wbc
  | 0x20008 => latch .sbc
  | 0x20010 => latch .holdAcc
  | _ => (v, y)

/- Writes. -/

/-- MEM_MAP_CTRL: MAINT, refused while a partition is RUNNING or HELD (R229, R253). -/
def mapCtrlWrite (v : Nat) (y : Sys) : Sys :=
  let refused := bitAt v 0 && anyLive y.dev
  y.onMap fun m => { m with
    maint := if refused then m.maint else bitAt v 0
    maintRefused := refused || (m.maintRefused && !bitAt v 1) }

/-- A device address at which an error can be injected (R299). -/
def injectable (y : Sys) (a count : Nat) : Bool :=
  if inWindow a then false
  else match place y.dev.map.n a with
    | .dram c o => !isOpen y c (granuleOf o)
    | .buf _ _ => count != 3
    | _ => false

/-- DP_INJ_CTRL: COUNT, the flags, and ARM with its refusals (R299, R300). -/
def injCtrlWrite (v : Nat) (y : Sys) : Sys :=
  let count := bits v 0 2
  let arm := bitAt v 2
  let refused := arm && (anyLive y.dev || !injectable y y.dev.prot.injAddr count)
  y.onProt fun p => { p with
    injCount := count
    injArm := if refused then false else p.injArm || arm
    injDone := p.injDone && !bitAt v 3
    injCancelled := refused || (p.injCancelled && !bitAt v 4) }

/-- SEQ_COUNTS: a 1 in a field clears the field (R189). -/
def seqCountsWrite (s v : Nat) (y : Sys) : Sys :=
  y.onCore s fun c => { c with
    missed := if bits v 0 16 = 0 then c.missed else 0
    retViol := if bits v 16 16 = 0 then c.retViol else 0 }

/-- ARRAY_COUNT_CTRL (R122). -/
def arrayClear (s v : Nat) (y : Sys) : Sys :=
  y.when (bitAt v 0) fun y => y.onCore s fun c =>
    { c with checkCount := 0, checkFail := 0, checkSkipped := 0, feedStall := 0, drainStall := 0 }

/-- RL_COUNT_CTRL (R272). -/
def rowClear (v : Nat) (y : Sys) : Sys :=
  y.when (bitAt v 0) fun y => y.onProt fun p => { p with rlRefused := 0, rlThrottleWait := 0, rlBusCopies := 0, rlReqWaits := 0 }

/-- NOC_COUNT_CTRL (R323). -/
def nocClear (v : Nat) (y : Sys) : Sys :=
  y.when (bitAt v 0) fun y => y.onNoc fun n => { n with
    sites := n.sites.map fun s => { s with fenceDrops := 0, staleDrops := 0, vcRetries := 0, shuttleErr := 0 } }

/-- SPAN_COUNT_CTRL (R349). -/
def spanClear (v : Nat) (y : Sys) : Sys :=
  y.when (bitAt v 0) fun y => y.onSpan fun s => { s with
    ports := s.ports.map fun p => { p with corr := 0, uncorr := 0, crc := 0, stale := 0, unarmed := 0, transitN := 0, pauseN := 0 } }

/-- PWR_COUNT_CTRL (R477). -/
def powerClear (v : Nat) (y : Sys) : Sys :=
  y.when (bitAt v 0) fun y => y.onPower fun p => { p with
    sites := p.sites.map fun s => { s with bubble := 0, droop := 0, bursts := 0 } }

/-- SE_COUNT_CTRL (R498). -/
def faultsClear (v : Nat) (y : Sys) : Sys :=
  y.when (bitAt v 0) fun y => y.onFaults fun f => { f with
    resends := 0, sites := f.sites.map fun _ => {} }

/-- HL_EVT_CONSUMER (R377, R394). -/
def evtConsumerWrite (v : Nat) (y : Sys) : Sys := y.onHost fun h => { h with evtConsumer := v }

/-- HL_STS_CONSUMER of a partition (R377, R394). -/
def stsConsumerWrite (q v : Nat) (y : Sys) : Sys :=
  y.onSched fun s => { s with rings := upd s.rings q fun r => { r with consumer := v } }

/-- The start of a boot step by its code (R401). -/
def stepStart (code : Nat) : Sys → Sys :=
  match code with
  | 1 => startSelftest
  | 5 => startFwLoad
  | 6 => startReceive
  | _ => id

/-- The boot block (R401, R424). -/
def writeBoot (r v : Nat) (y : Sys) : Sys :=
  match r with
  | 0x004 =>
    let y := y.onBoot fun b => { b with ctrlStep := bits v 0 8, ctrlWarm := bitAt v 9 }
    y.when (bitAt v 8) (bootGo (bits v 0 8) (stepStart (bits v 0 8)))
  | 0x010 => y.onBoot fun b => { b with defectAddr := setLo b.defectAddr v }
  | 0x014 => y.onBoot fun b => { b with defectAddr := setHi 20 b.defectAddr v }
  | 0x018 => y.onBoot fun b => { b with defectLen := bits v 0 13 }
  | 0x020 => y.onBoot fun b => { b with mapAddr := setLo b.mapAddr v }
  | 0x024 => y.onBoot fun b => { b with mapAddr := setHi 20 b.mapAddr v }
  | 0x028 => y.onBoot fun b => { b with mapLen := bits v 0 24 }
  | 0x030 => y.onBoot fun b => { b with manAddr := setLo b.manAddr v }
  | 0x034 => y.onBoot fun b => { b with manAddr := setHi 20 b.manAddr v }
  | 0x038 => y.onBoot fun b => { b with manLen := v }
  | 0x040 => y.onBoot fun b => { b with imgAddr := setLo b.imgAddr v }
  | 0x044 => y.onBoot fun b => { b with imgAddr := setHi 20 b.imgAddr v }
  | 0x048 => y.onBoot fun b => { b with imgLen := v }
  | _ => y

/-- The beat block (R56, R92). -/
def writeBeat (r v : Nat) (y : Sys) : Sys :=
  match r with
  | 0x024 => y.onBeat fun b => { b with
      alignLost := b.alignLost && !bitAt v 4, ledgerMismatch := b.ledgerMismatch && !bitAt v 5
      holdLate := b.holdLate && !bitAt v 6, confirmMissing := b.confirmMissing && !bitAt v 7
      setMismatch := b.setMismatch && !bitAt v 8 }
  | 0x080 => y.onBeat fun b => { b with loadLo := v }
  | 0x084 => y.onBeat fun b => { b with loadHi := bits v 0 24 }
  | 0x088 => beatLoadCtrl (BitVec.ofNat 32 v) y
  | _ => y

/-- The walker block (R225). -/
def writeWalker (r v : Nat) (y : Sys) : Sys :=
  if r = 0x004 ∧ bitAt v 31 = true then y.onWalker fun w => { w with errCode := 0, errCol := 0, errValid := false } else y

/-- The memory-map block (R253). -/
def writeMapReg (r v : Nat) (y : Sys) : Sys :=
  match r with
  | 0x000 => mapCtrlWrite v y
  | 0x088 => if bitAt v 31 then
      y.onMap fun m => { m with errAddr := 0, errCause := 0, errSource := 0, errWrite := false, errValid := false }
    else y
  | _ => y

/-- The protection block (R299, R300). -/
def writeProt (r v : Nat) (y : Sys) : Sys :=
  match r with
  | 0x010 => y.onProt fun p => { p with injAddr := setLo p.injAddr v }
  | 0x014 => y.onProt fun p => { p with injAddr := setHi 8 p.injAddr v }
  | 0x018 => injCtrlWrite v y
  | _ => match regIndex r 0x10C 64 18, regIndex r 0x118 64 18 with
    | some s, _ => y.when (bitAt v 31) fun y => y.onSiteProt s fun x => { x with loc := {} }
    | _, some s => y.when (bitAt v 31) fun y => y.onSiteProt s fun x => { x with bufLoc := {} }
    | _, _ => y

/-- The network block (R323). -/
def writeNoc (r v : Nat) (y : Sys) : Sys :=
  match r with
  | 0x008 => y.onNoc fun n => { n with hopSrc := bits v 0 5, hopDst := bits v 8 5 }
  | 0x010 => nocClear v y
  | _ => y

/-- The W1C flags of SPAN_PORT_STATUS (R349). -/
def portFlags (p v : Nat) (y : Sys) : Sys :=
  y.onPort p fun x => { x with
    lost := x.lost && !bitAt v 12, misplaced := x.misplaced && !bitAt v 13, degradeEvent := x.degradeEvent && !bitAt v 14 }

/-- SPAN_BOOT_MCAST (R342, R349). -/
def bootMcastWrite (v : Nat) (y : Sys) : Sys :=
  y.onSpan fun s => { s with bootIn := bits v 0 4, bootLocal := bitAt v 4, bootOut := bits v 16 12, bootValid := bitAt v 31 }

/-- The span block (R349). -/
def writeSpan (r v : Nat) (y : Sys) : Sys :=
  match r with
  | 0x000 => spanSelfWrite (BitVec.ofNat 32 v) y
  | 0x004 => bootMcastWrite v y
  | 0x008 => spanClear v y
  | _ => match regIndex r 0x100 64 12, regIndex r 0x104 64 12 with
    | some p, _ => portFlags p v y
    | _, some p => placeWrite p (BitVec.ofNat 32 v) y
    | _, _ => y

/-- The host-link block (R377, R394). -/
def writeHost (r v : Nat) (y : Sys) : Sys :=
  match r with
  | 0x004 => evtConsumerWrite v y
  | _ => match regIndex r 0x010 4 4 with
    | some q => stsConsumerWrite q v y
    | none => y

/-- The power block (R464, R477). -/
def writePower (r v : Nat) (y : Sys) : Sys :=
  match r with
  | 0x014 => y.onPower fun p => { p with disagree := maskOf ((bitList 32 p.disagree).filter fun i => !bitAt v i) }
  | 0x018 => y.onPower fun p => { p with sel := bits v 0 9 }
  | 0x300 => powerClear v y
  | _ => y

/-- The core block of a site (R122, R148, R189). -/
def writeCore (s r v : Nat) (y : Sys) : Sys :=
  match r with
  | 0x03C => arrayClear s v y
  | 0x200 => y.onCore s fun c => { c with fp := w1cFp c.fp v }
  | 0x304 => seqCountsWrite s v y
  | _ => y

/-- A CSR write; read-only registers and unassigned blocks ignore it, and so does a stack that is off (R6, R227, R400). -/
def csrWrite (off v : Nat) (y : Sys) : Sys :=
  let r := off % 65536
  if y.dev.boot.power = .off then y
  else match off / 65536 with
    | 0x0 => writeBoot r v y
    | 0x2 => writeBeat r v y
    | 0x3 => if walkerOpen y.dev then writeWalker r v y else y
    | 0x4 => writeMapReg r v y
    | 0x5 => if r = 0x110 then rowClear v y else y
    | 0x6 => writeProt r v y
    | 0x7 => writeNoc r v y
    | 0x8 => writeSpan r v y
    | 0x9 => writeHost r v y
    | 0xB => writePower r v y
    | 0xC => if r = 0x008 then faultsClear v y else y
    | _ => match coreBlock off with
      | some s => writeCore s r v y
      | none => y

/-- A write command acts only while the stack runs (R400). -/
def whenOn (f : Sys → Sys) (y : Sys) : Sys := if y.dev.boot.power = .off then y else f y

def execMemMapCtrlWrite (value : W32) (s : State) : Host.Outcome State Fault Refusal := onSys (whenOn (mapCtrlWrite value.toNat)) s

def execDpInjCtrlWrite (value : W32) (s : State) : Host.Outcome State Fault Refusal := onSys (whenOn (injCtrlWrite value.toNat)) s

def execSeqCountsWrite (site : Site) (value : W32) (s : State) : Host.Outcome State Fault Refusal :=
  onSys (whenOn (seqCountsWrite site value.toNat)) s

def execArrayCountCtrlClear (site : Site) (value : W32) (s : State) : Host.Outcome State Fault Refusal :=
  onSys (whenOn (arrayClear site value.toNat)) s

def execRlCountCtrlClear (value : W32) (s : State) : Host.Outcome State Fault Refusal := onSys (whenOn (rowClear value.toNat)) s

def execNocCountCtrlClear (value : W32) (s : State) : Host.Outcome State Fault Refusal := onSys (whenOn (nocClear value.toNat)) s

def execSpanCountCtrlClear (value : W32) (s : State) : Host.Outcome State Fault Refusal := onSys (whenOn (spanClear value.toNat)) s

def execPwrCountCtrlClear (value : W32) (s : State) : Host.Outcome State Fault Refusal := onSys (whenOn (powerClear value.toNat)) s

def execSeCountCtrlClear (value : W32) (s : State) : Host.Outcome State Fault Refusal := onSys (whenOn (faultsClear value.toNat)) s

def execHlEvtConsumerWrite (value : W32) (s : State) : Host.Outcome State Fault Refusal :=
  onSys (whenOn (evtConsumerWrite value.toNat)) s

def execHlStsConsumerWrite (q : Part) (value : W32) (s : State) : Host.Outcome State Fault Refusal :=
  onSys (whenOn (stsConsumerWrite q value.toNat)) s

/-- REGISTER_WRITE: a write at a device address of CSR space, 4-byte aligned (R6, R366). -/
def registerWrite (addr v : Nat) (y : Sys) : Sys :=
  match place y.dev.map.n addr with
  | .csr off => if off % 4 = 0 then csrWrite off v y else y
  | _ => y

def execRegisterWrite (addr : Nat) (value : W32) (s : State) : Host.Outcome State Fault Refusal :=
  onSys (registerWrite addr value.toNat) s

end Sys2Proof.Machine
end

