-- ==== Sys2Proof/Machine/LoadChecks.lean ====
section
/-! DEFINITION. The checks of SCHED.LOAD: image header and sections, step descriptors, lane programs, slot tables, engines in time,
page-walk bounds (R76, R77, R80, R112, R113, R120, R149 to R182, R184, R188, R198 to R201, R255, R256, R339, R484). -/

namespace Sys2Proof.Machine

/- Fields of a descriptor (R153, R154, R188 sub-codes 1 to 3). -/

/-- A field is zero. -/
def zeroAt (d : Desc) (off n : Nat) : Bool := fld d off n == 0

/-- Reserved bits of the common header, and common fields that the kind does not use (R153, R154). -/
def headerReserved (d : Desc) : Bool :=
  let op := opOf d
  let fmts := fld d 0x10 2
  let modes := fld d 0x12 1
  let plain := !([1, 2, 3, 9].contains op)
  bits (fld d 5 1) 5 3 != 0 || bits (fld d 8 8) 40 24 != 0 || bits fmts 12 4 != 0 || bits modes 5 3 != 0
    || (plain && (fmts != 0 || modes != 0 || !zeroAt d 0x13 1 || !zeroAt d 0x14 4))
    || ((op == 2 || op == 3) && bits fmts 0 8 != 0) || (op == 9 && bits fmts 4 4 != 0)
    || (op != 1 && bitAt modes 4) || (op != 1 && op != 2 && checkTol d != 0)

/-- An address field of a move with a reserved bit set (R174). -/
def moveReserved (d : Desc) (off : Nat) : Bool :=
  let v := fld d off 8
  bits v 52 11 != 0 || (!bitAt v 63 && bits v 40 12 != 0)

/-- Reserved fields of the operand area, and its fields that the kind does not use (R159 to R182, R211, R256). -/
def operandReserved (d : Desc) : Bool :=
  match opOf d with
  | 1 => bits (mmCtrl d) 5 3 != 0 || !zeroAt d 0x3E 2
  | 2 =>
    bits (atPattern d) 6 2 != 0 || !zeroAt d 0x3D 3 || (!bitAt (atPattern d) 0 && !bitAt (atPattern d) 2 && !zeroAt d 0x2C 4)
      || (!bitAt (atPattern d) 5 && !zeroAt d 0x3C 1)
  | 3 => !zeroAt d 0x19 3 || !zeroAt d 0x3C 4
  | 4 =>
    moveReserved d 0x18 || moveReserved d 0x20 || bits (fld d 0x38 1) 3 5 != 0 || !zeroAt d 0x39 3
      || (!isHostMove d && !zeroAt d 0x3C 4)
  | 5 => !zeroAt d 0x1D 3 || !zeroAt d 0x35 3 || !zeroAt d 0x38 8
  | 6 => !zeroAt d 0x1D 3 || !zeroAt d 0x35 3 || !zeroAt d 0x38 8
  | 7 => !zeroAt d 0x19 3 || !zeroAt d 0x21 3 || !zeroAt d 0x28 24
  | 8 => !zeroAt d 0x19 3 || !zeroAt d 0x21 3 || !zeroAt d 0x28 16 || !zeroAt d 0x3D 3
  | 9 => !zeroAt d 0x19 3 || !zeroAt d 0x21 3 || !zeroAt d 0x28 4 || !zeroAt d 0x2D 3 || !zeroAt d 0x3D 3
  | 10 =>
    let n := rowSources (roOp d) (roCompound d)
    !zeroAt d 0x34 12 || (decide (n < 1) && roA d != 0) || (decide (n < 2) && roB d != 0) || (decide (n < 3) && roC d != 0)
  | 11 => !zeroAt d 0x27 1 || !zeroAt d 0x2C 4 || !zeroAt d 0x30 16
  | 12 => bits (fld d 0x18 1) 4 4 != 0 || !zeroAt d 0x19 3 || !zeroAt d 0x20 32
  | 13 => !zeroAt d 0x19 3 || !zeroAt d 0x20 32
  | _ => !zeroAt d 0x27 1 || !zeroAt d 0x30 16

/-- A code or value that the kind does not accept; COMPOUND_INDEX counts with COMPOUND only (R123, R128, R155, R164, R175, R179, R182,
R211, R255; DEDUCED, log 91). -/
def badCode (d : Desc) : Bool :=
  let op := opOf d
  let modes := fld d 0x12 1
  decide (7 < warpFmt d) || decide (7 < weftFmt d) || decide (7 < outFmt d) || bits modes 2 2 == 3 || fld d 0x13 1 == 255
    || replayClass d == 3
    || (op == 4 && bits (fld d 0x38 1) 1 2 == 3)
    || (op == 10 && (roOp d == 0 || decide (10 < roOp d) || (roOp d == 10 && decide (8 < roCompound d))))
    || (op == 9 && (decide (2 < fld d 0x2C 1) || (warpFmt d != 0 && warpFmt d != 2) || (fld d 0x2C 1 == 2 && outFmt d != 0)))
    || (op == 2 && ((!atFinal d && outFmt d != 0) || (bitAt (atPattern d) 5 && !atFinal d)))
    || ([7, 8, 9].contains op && flowOf d == 0xFF)

/- Addresses, extents, counts (R188 sub-code 5). -/

/-- A device range lies within the DRAM or the buffer of one logical column; `own`, where given, must be that column. -/
def rangeFits (n : Nat) (own : Option Nat) (a len : Nat) : Bool :=
  let ok := fun c => match own with
    | some k => c == k
    | none => true
  if len = 0 ∨ inWindow a = true then false
  else match place n a with
    | .dram c o => ok c && decide (o + len ≤ colBytes)
    | .buf c o => ok c && decide (o + len ≤ bufBytes)
    | _ => false

/-- A buffer range of the column's own buffer. -/
def bufFits (a len : Nat) : Bool := decide (a + len ≤ bufBytes)

/-- Ranges that lie in the column's own buffer. -/
def ownBuf (col : Nat) (l : List (Nat × Nat)) : Bool :=
  l.all fun r => decide (bufAddr col 0 ≤ r.1) && decide (r.2 < bufAddr col 0 + bufBytes)

/-- Rows of a transposed or plain operand start where R112 and R113 ask. -/
def operandPlaced (addr stride : Nat) (t : Bool) : Bool :=
  if t then addr % 256 == 0 && stride % 4 == 0 else addr % 64 == 0

/-- Write entries that a move, gather, scatter or append holds in the sluice (R482, R484); more than 8,192 rows are over the limit in
any case. -/
def entryCount (n col : Nat) (d : Desc) : Nat :=
  match opOf d with
  | 4 =>
    let t := moveAddr d 0x20
    let s := moveShape d
    if !t.1 && whose n col t.2 == .buf then 0
    else if 8192 < s.1 then s.1
    else ((List.range s.1).map fun r =>
      let a := t.2 + r * fld d 0x34 4
      (a + s.2 - 1) / 256 - a / 256 + 1).sum
  | 6 =>
    if whose n col (gaBase d) == .buf then 0
    else gaCount d * (ceilDiv (gaElem d) 256 + (if gaBase d % 256 = 0 ∧ gaElem d % 256 = 0 then 0 else 1))
  | 14 => apHeads d * apCount d * 160
  | _ => 0

/-- A side of a move: on a 64-byte boundary, its rows within one memory (R174, R175). -/
def moveSideOk (n : Nat) (side : Bool × Nat) (rows stride len : Nat) : Bool :=
  side.2 % 64 == 0 && 0 < len &&
    (if side.1 then decide (side.2 + (rows - 1) * stride + len ≤ 2 ^ 52) else rangeFits n none side.2 ((rows - 1) * stride + len))

/-- The rows of a repetition of a ROWOP lie in one bank of one tile of the column, a COPY's source in another bank at most (R256). -/
def rowsPlaced (col : Nat) (d : Desc) : Bool :=
  (List.range (roCount d)).all fun k =>
    let rows := roRows d k
    let dst := nth rows 0 0
    rows.all fun a =>
      decide (col * colBytes ≤ a) && decide (a < (col + 1) * colBytes) && a % 8192 == 0
        && tileOf (a % colBytes) == tileOf (dst % colBytes)
        && (roOp d == 7 || bankOf (a % colBytes) == bankOf (dst % colBytes))

/-- Addresses, extents, counts and sizes of a step (R112, R113, R159, R164, R165, R174 to R182, R211, R216, R219, R256, R484). -/
def extentsOk (y : Sys) (i : Image) (col : Nat) (d : Desc) : Bool :=
  let n := y.dev.map.n
  match opOf d with
  | 1 =>
    decide (1 ≤ mmU d) && decide (1 ≤ mmV d) && decide (1 ≤ mmK d)
      && operandPlaced (fld d 0x18 4) (fld d 0x30 2) (mmWarpT d) && operandPlaced (fld d 0x1C 4) (fld d 0x32 2) (mmWeftT d)
      && ((!mmWarpT d && !mmWeftT d) || mmK d % 64 == 0)
      && ownBuf col (inputRanges y i col d []) && (mmToVector d || ownBuf col (outputRanges y i col d))
  | 2 =>
    decide (1 ≤ atQHeads d) && decide (atQHeads d ≤ 64) && fld d 0x18 4 % 64 == 0 && fld d 0x20 4 % 64 == 0 && bufFits (fld d 0x18 4) 0x2280
      && bufFits (fld d 0x20 4) 135168 && (atEpilogue d || ownBuf col (outputRanges y i col d))
  | 3 => true
  | 4 =>
    let s := moveAddr d 0x18
    let t := moveAddr d 0x20
    let shape := moveShape d
    mvRowBytes d % 64 == 0 && decide (64 ≤ mvRowBytes d) && decide (mvRowBytes d ≤ 2 ^ 24) && decide (1 ≤ mvRows d)
      && decide (mvRows d ≤ 2 ^ 24) && !(s.1 && t.1) && (!(s.1 || t.1) || !zeroAt d 0x3C 4)
      && (!mvTranspose d || (mvRows d % 64 == 0 && mvRowBytes d / mvElem d % 64 == 0))
      && moveSideOk n s (mvRows d) (fld d 0x30 4) (mvRowBytes d) && moveSideOk n t shape.1 (fld d 0x34 4) shape.2
      && decide (entryCount n col d ≤ 8192)
  | 7 => decide (1 ≤ flitsOf d) && decide (flitsOf d ≤ 2 ^ 24) && rangeFits n (some col) (flowAddr d) (256 * flitsOf d)
  | 8 =>
    decide (1 ≤ flitsOf d) && decide (flitsOf d ≤ 2 ^ 24) && rangeFits n (some col) (flowAddr d) (256 * flitsOf d)
      && decide (startOffset d ≤ lastBeat d) && decide (lastBeat d < i.length)
  | 9 =>
    decide (1 ≤ flitsOf d) && decide (flitsOf d ≤ 2 ^ 24) && rangeFits n (some col) (flowAddr d) (256 * flitsOf d)
      && whose n col (flowAddr d) == .buf && bufFits (fld d 0x30 4) (256 * flitsOf d) && ownBuf col (outputRanges y i col d)
      && decide (startOffset d ≤ lastBeat d) && decide (lastBeat d < i.length)
      && (fld d 0x2C 1 != 2 || flitsOf d * 256 % 576 == 0)
  | 10 => decide (1 ≤ roCount d) && decide (roCount d ≤ 4096) && roStride d % 8192 == 0 && rowsPlaced col d
  | 11 => bufFits (fld d 0x18 4) (512 * skQueries d) && bufFits (fld d 0x1C 4) (4 * skTopk d * skQueries d)
  | 12 => !zeroAt d 0x1C 4
  | 13 => decide (1 ≤ fld d 0x18 1) && decide (fld d 0x18 1 ≤ 160)
  | 14 =>
    decide (1 ≤ apCount d) && bufFits (fld d 0x18 4) (768 * apHeads d * apCount d)
      && bufFits (fld d 0x1C 4) (128 * apHeads d * apCount d) && decide (entryCount n col d ≤ 8192)
  | _ =>
    decide (1 ≤ gaCount d) && decide (gaCount d ≤ 2 ^ 20) && gaElem d % 64 == 0 && decide (64 ≤ gaElem d)
      && decide (gaElem d ≤ 8192) && bufFits (gaLocal d) (gaCount d * gaElem d) && bufFits (gaIndex d) (4 * gaCount d)
      && rangeFits n none (gaBase d) (max 1 (gaLimit d)) && decide (entryCount n col d ≤ 8192)

/- Lane programs (R188 sub-code 7). -/

/-- A step that runs a lane program (R162, R173, R214). -/
def runsLane (d : Desc) : Bool := opOf d == 3 || mmToVector d || atEpilogue d

/-- The program of a step exists and passes the checks with the step's addresses and stream rows (R162, R167, R172, R173). -/
def laneOk (y : Sys) (i : Image) (col : Nat) (d : Desc) : Bool :=
  !runsLane d || laneAccepted (outFmt d) (laneA0 d) (laneWords y i col (laneProgOf d)) (ceilDiv (streamRows d) 4)

/-- A program by itself: known operations, permitted loads and loops, HALT at its end (R167). -/
def laneShape (words : List (BitVec 64)) : Bool :=
  let l := words.map laneIns
  (match l.getLast? with
    | some i => i.op == 0
    | none => true)
    && (l.all fun i => laneOps.contains i.op && (i.op != 8 || decide (i.fmt < 3))) && (laneTree l).isSome

/- Engines in time (R188 sub-code 6). -/

/-- Where a list stands in nominal time: the cycle from which each engine is free, and the last step that used engine P: its issue,
its end, and whether its end is what triggers the next preparation (R151, R157, R201). -/
structure ListClock where
  free : List (Nat × Nat)
  lastP : Option (Nat × Nat × Bool)
  deriving DecidableEq, Repr

/-- The beat at which the next preparation begins by nominal durations (R201). -/
def ListClock.prepBegin (k : ListClock) : Nat :=
  match k.lastP with
  | none => 0
  | some (issue, e, byEnd) => (if byEnd then e else issue) / 64 + 1

/-- A step, issued in run `run` of the list: whether an engine is free and its preparation has time, and the clock after it. -/
def clockStepList (y : Sys) (i : Image) (col m : Nat) (list : List Desc) (run : Nat) (k : ListClock) (idx : Nat) : Bool × ListClock :=
  let d := nth list idx []
  let place1 := beatPlace list idx
  let beat := startOffset d + run * i.length
  let t := beat * 64 + 4 + place1
  let e := nominalEnd y i col d m place1
  let busy := (enginesOf d).any fun g => decide (t < (assoc k.free g).getD 0)
  let late := isPrepared d && decide (beat < k.prepBegin + prepBound d)
  let free := (nominalRelease d m e).foldl (fun f r => assocSet f r.1 (t + r.2)) k.free
  let lastP := if isPrepared d then some (t, t + e, opOf d != 2) else k.lastP
  (!busy && !late, ⟨free, lastP⟩)

/-- Runs the list through the clock; the index of the first step that fails. -/
def clockList (y : Sys) (i : Image) (col m : Nat) (list : List Desc) (run : Nat) (k : ListClock) : Option Nat × ListClock :=
  (List.range list.length).foldl (fun (r : Option Nat × ListClock) idx =>
    let s := clockStepList y i col m list run r.2 idx
    (if r.1.isSome then r.1 else if s.1 then none else some idx, s.2)) (none, k)

/-- The first step of a list at which two steps hold one engine, or a preparation has too little time; a REPEAT image is followed
into its second run (R78, R151, R201). -/
def firstClash (y : Sys) (i : Image) (col m : Nat) (list : List Desc) : Option Nat :=
  let a := clockList y i col m list 0 ⟨[], none⟩
  match a.1 with
  | some idx => some idx
  | none => if i.rep then (clockList y i col m list 1 a.2).1 else none

/- The checks of a step list (R188). -/

/-- The previous MATMUL step of a list kept its tile (R161). -/
def prevKept (list : List Desc) (idx : Nat) : Bool :=
  match ((list.take idx).filter fun d => opOf d == 1).getLast? with
  | some d => mmKeep d
  | none => false

/-- REDUCE_LEN by R113, CONTINUE and KEEP by R161. -/
def reduceOk (list : List Desc) (idx : Nat) : Bool :=
  let d := nth list idx []
  opOf d != 1 ||
    ((!((fmtOf (warpFmt d)).scaled || (fmtOf (weftFmt d)).scaled) || mmK d % 32 == 0)
      && (!mmContinue d || prevKept list idx) && (!mmKeep d || mmTiles d == 1))

/-- FLITS that the image's sends arm on a flow. -/
def flowSent (y : Sys) (i : Image) (flow : Nat) : Nat :=
  (i.columns.flatMap fun c => (stepList y i c).map fun d => if opOf d = 7 ∧ flowOf d = flow then flitsOf d else 0).sum

/-- The sub-code of the first check that a step fails, 0 for none; `clash` is the step of sub-code 6; an address of a lane program is
sub-code 7 (R172, R188; DEDUCED, log 91). -/
def stepSub (y : Sys) (i : Image) (col : Nat) (list : List Desc) (clash : Option Nat) (idx : Nat) : Nat :=
  let d := nth list idx []
  let op := opOf d
  let prev := startOffset (nth list (idx - 1) [])
  if op = 0 ∨ 14 < op then 1
  else if headerReserved d || operandReserved d then 2
  else if badCode d then 3
  else if i.length ≤ startOffset d ∨ (0 < idx ∧ startOffset d < prev) ∨ 16 ≤ beatPlace list idx then 4
  else if !extentsOk y i col d then 5
  else if clash = some idx then 6
  else if !laneOk y i col d then 7
  else if !reduceOk list idx then 8
  else if op = 7 ∧ flowSlots y i (flowOf d) (i.length - 1) ≠ flowSent y i (flowOf d) then 9
  else if op = 7 ∧ i.ports = [] then 10
  else 0

/-- A failed check: sub-code, section, step or entry (R188, R385). -/
structure StepFail where
  sub : Nat
  sec : Nat
  index : Nat
  deriving DecidableEq, Repr

/-- The first failure among numbered entries. -/
def firstFail (sec n : Nat) (f : Nat → Nat) : Option StepFail :=
  ((List.range n).find? fun k => f k != 0).map fun k => ⟨f k, sec, k⟩

/-- An entry of a slot table (R180, R339). -/
def slotSub (y : Sys) (i : Image) (p k : Nat) (a : Nat) : Nat :=
  let l := slotTable y i p
  let e := nth l k (0, 0, [])
  let before := nth l (k - 1) (0, 0, [])
  if !i.ports.contains p then 10
  else if e.2.1 = 0 ∨ devField y (a + 32 * k + 0x1E) 2 ≠ 0 ∨ (0 < k ∧ e.1 < before.1 + before.2.1)
    ∨ (i.ports3.contains p = true ∧ ((e.2.2.drop 15).any fun b => b.toNat != 0xFF) = true) then 9
  else 0

/-- Reserved fields and stated ranges of the page-walk parameters (R198): 0 the section's head, 1 to 16 a pool, from 17 on a walk
entry. -/
def pwSub (y : Sys) (b k : Nat) : Nat :=
  let zero := fun off n => devField y (b + off) n == 0
  if k = 0 then
    if !zero 5 3 || !zero 0xF 1 || !zero 0x12 46 then 2
    else if zero 0xC 1 || zero 0xD 1 || zero 0xE 1 || zero 0x10 2 || decide (512 < devField y (b + 0x10) 2) then 5 else 0
  else if k ≤ 16 then
    let p := 0x40 + 128 * (k - 1)
    let high := fun off => zero (p + off + 5) 3
    if !high 0 || !high 8 || !high 0x10 || !high 0x18 || !zero (p + 0x28) 8 || !zero (p + 0x70) 16
        || !((List.range 8).all fun j => high (0x30 + 8 * j)) then 2
    else if devField y (b + p) 5 % 8192 ≠ 0 ∨ devField y (b + p + 8) 5 % 8192 ≠ 0 ∨ devField y (b + p + 0x10) 5 % 64 ≠ 0
      ∨ 2 ^ 24 < devField y (b + p + 0x20) 4 then 5 else 0
  else if !zero (0x840 + 16 * (k - 17) + 4) 12 then 2 else 0

/-- The checks of one section, in order of index; engines are followed up to the first step without nominal durations (R188). -/
def sectionFail (y : Sys) (i : Image) (sec : Nat) (s : ImgSection) : Option StepFail :=
  let a := i.addr + s.offset
  match s.type with
  | 1 =>
    let list := stepList y i s.index
    let m := (y.core (siteOf y.dev s.index)).spareStage
    let sound := fun (d : Desc) => opOf d != 0 && decide (opOf d ≤ 14) && !headerReserved d && !operandReserved d && !badCode d
    let clash := if list.all sound then firstClash y i s.index m list
      else (clockList y i s.index m (list.takeWhile sound) 0 ⟨[], none⟩).1
    firstFail sec list.length (stepSub y i s.index list clash)
  | 2 => firstFail sec (s.length / 32) fun k => slotSub y i s.index k a
  | 3 => firstFail sec 256 fun n =>
      let start := devField y (a + 4 * n) 2
      let count := devField y (a + 4 * n + 2) 2
      let total := (s.length - 1024) / 8
      if 4096 < total ∨ (count ≠ 0 ∧ total < start + count) ∨ laneShape (laneWords y i s.index n) = false then 7 else 0
  | 4 => firstFail sec (17 + devField y (a + 0x10) 2) (pwSub y a)
  | _ => if rangeFits y.dev.map.n (some s.index) (devField y a 8) (max 1 (s.length - 8))
            && decide (bufAddr 0 0 ≤ devField y a 8) then none else some ⟨5, sec, 0⟩

/-- The first failure of the image in section-table order (R188). -/
def stepFailOf (y : Sys) (i : Image) : Option StepFail :=
  (List.range i.sections.length).findSome? fun k => sectionFail y i k (nth i.sections k ⟨0, 0, 0, 0⟩)

/- Page-walk bounds (R200). -/

/-- The sparse-attention maxima of a bank (R199). -/
def sparseMax (y : Sys) (bank off n : Nat) : Nat := secField y bank 8 off n

/-- The bounds that R200 puts on a step. -/
def walkBoundsOk (y : Sys) (i : Image) (bank : Nat) (list : List Desc) (idx : Nat) : Bool :=
  let d := nth list idx []
  let walks := match i.pw with
    | some b => (readPw y b).walks
    | none => 0
  match opOf d with
  | 2 =>
    decide (atMaxPages d ≤ sparseMax y bank 6 2) && decide (fld d 0x2C 2 ≤ sparseMax y bank 0 2)
      && decide (fld d 0x2E 2 ≤ sparseMax y bank 2 2) && decide (walkIndex d < walks)
      && (!bitAt (atPattern d) 2 || (list.take idx).any fun s =>
        opOf s == 11 && decide (walkIndex s ≤ walkIndex d) && decide (walkIndex d < walkIndex s + skQueries s))
  | 11 =>
    decide (1 ≤ skTopk d) && decide (skTopk d ≤ sparseMax y bank 4 2) && decide (1 ≤ skQueries d) && decide (skQueries d ≤ 16)
      && decide (walkIndex d + skQueries d - 1 < walks)
  | 14 => decide (walkIndex d < walks)
  | _ => true

/-- The bounds that R200 puts on walk entries and pools. -/
def paramBoundsOk (y : Sys) (i : Image) (bank : Nat) : Bool :=
  match i.pw with
  | none => true
  | some b =>
    let p := readPw y b
    ((List.range p.walks).all fun w => decide (walkMax y p w ≤ sparseMax y bank 0xC 4))
      && (List.range 16).all fun c =>
        let q := readPool y p c
        decide (q.frames ≤ q.freeSize) && decide (1 ≤ q.freeSize) && decide (q.freeSize ≤ 2 ^ 24) && q.ring % 64 == 0
          && (List.range 4).all fun k => (q.scratch y k).1 % 8192 == 0 && (q.scratch y k).2 % 8192 == 0

/-- R200 holds for the whole image under the set of a bank. -/
def pageBoundsOk (y : Sys) (i : Image) (bank : Nat) : Bool :=
  paramBoundsOk y i bank && i.columns.all fun c =>
    let list := stepList y i c
    (List.range list.length).all (walkBoundsOk y i bank list)

/- The header and the sections (R76, R77, R80). -/

/-- An entry of the section table as it stands. -/
def sectionAt (y : Sys) (addr k : Nat) : ImgSection :=
  let a := addr + 0x80 + 16 * k
  ⟨devField y a 2, devField y (a + 2) 2, devField y (a + 8) 4, devField y (a + 12) 4⟩

/-- The image that stands at an address (R76, R77). -/
def readImage (y : Sys) (addr part : Nat) (shadow : Bool) : Image :=
  let f := fun off n => devField y (addr + off) n
  let size := f 8 8
  { addr := addr, part := part, shadow := shadow, size := size, rep := bitAt (f 6 2) 0, device := f 0x10 2
    columns := bitList 16 (f 0x12 2), ports := bitList 12 (f 0x14 2), ports3 := bitList 12 (f 0x16 2), startSbc := f 0x18 7
    length := f 0x20 8, holdProp := bits (f 0x2C 2) 0 9
    fillB := (devBytes y (addr + 0x30) 16).map (·.toNat), drainB := (devBytes y (addr + 0x40) 16).map (·.toNat)
    digest := devBytes y (addr + 0x60) 32
    sections := if 0x80 + 16 * f 0x2E 2 ≤ size then (List.range (f 0x2E 2)).map (sectionAt y addr) else []
    latencyBad := false }

/-- FORMAT: magic, version and reserved fields; a size that is no multiple of 64 and a length out of range count with them (R76, R80). -/
def imageFormatOk (y : Sys) (addr : Nat) : Bool :=
  let f := fun off n => devField y (addr + off) n
  f 0 4 == 0x51534931 && f 4 2 == 1 && bits (f 6 2) 1 15 == 0 && f 8 8 % 64 == 0 && decide (128 ≤ f 8 8)
    && bits (f 0x10 2) 11 4 == 0 && bits (f 0x14 2) 12 4 == 0 && bits (f 0x16 2) 12 4 == 0 && f 0x1F 1 == 0
    && decide (1 ≤ f 0x20 8) && decide (f 0x20 8 ≤ 2 ^ 40) && f 0x28 4 == 0 && bits (f 0x2C 2) 9 7 == 0 && f 0x50 16 == 0
    && (decide (f 8 8 < 0x80 + 16 * f 0x2E 2) || (List.range (f 0x2E 2)).all fun k => f (0x80 + 16 * k + 4) 4 == 0)

/-- A section by itself: its type, index, place and length (R77, R80, R172). -/
def sectionOk (i : Image) (count : Nat) (s : ImgSection) : Bool :=
  s.offset % 64 == 0 && decide (0x80 + 16 * count ≤ s.offset) && decide (s.offset + s.length ≤ i.size) &&
    match s.type with
    | 1 => i.columns.contains s.index && s.length % 64 == 0
    | 2 => decide (s.index < 12) && s.length % 32 == 0
    | 3 => i.columns.contains s.index && decide (1024 ≤ s.length) && (s.length - 1024) % 8 == 0
    | 4 => s.index == 0xFFFF && decide (0x840 ≤ s.length)
    | 5 => i.columns.contains s.index && decide (8 ≤ s.length)
    | _ => false

/-- Two sections share a byte, or are of one type and index. -/
def sectionsClash (s t : ImgSection) : Bool :=
  (s.type == t.type && s.index == t.index)
    || (decide (0 < s.length) && decide (0 < t.length) && decide (s.offset < t.offset + t.length) && decide (t.offset < s.offset + s.length))

/-- No two elements of a list clash. -/
def noClash : List ImgSection → Bool
  | [] => true
  | s :: r => r.all (fun t => !sectionsClash s t) && noClash r

/-- LAYOUT (R77, R80, R172). -/
def imageLayoutOk (y : Sys) (i : Image) : Bool :=
  let count := devField y (i.addr + 0x2E) 2
  decide (0x80 + 16 * count ≤ i.size) && i.sections.all (sectionOk i count) && noClash i.sections
    && (i.columns.all fun c => i.sections.any fun s => s.type == 1 && s.index == c)
    && i.sections.all fun s => s.type != 4 || decide (0x840 + 16 * devField y (i.addr + s.offset + 0x10) 2 ≤ s.length)

/-- The image lies wholly in Protected granules of active DRAM (R79, R80). -/
def imageProtected (y : Sys) (a size : Nat) : Bool :=
  decide (a + size ≤ y.dev.map.n * colBytes) && (granulesOf a size).all fun g => !isOpen y g.1 g.2

/-- The columns of a partition in the set of a bank (R84). -/
def colsIn (y : Sys) (bank q : Nat) : List Nat :=
  (List.range 16).filter fun c => partIn y bank c == some q

/-- A port that is degraded, also while it is paused (R334, R346). -/
def portDegraded (x : PortS) : Bool := x.state == .degraded || (x.state == .paused && x.wasDegraded)

/-- PORTS (R80): every port of the image is up, not the standby port, planned for its lanes, and used by no other loaded image. -/
def imagePortsOk (y : Sys) (i : Image) (bank : Nat) : Bool :=
  let standby := bits (secField y bank 1 0x32 2) 12 4
  i.ports.all fun p =>
    let x := y.port p
    (portCarries x || x.state == .paused) && p != standby && (!portDegraded x || i.ports3.contains p)
      && !(y.dev.sched.images.any fun j => j.addr != i.addr && j.ports.contains p)

/-- The first check of R80 that an image fails: 0, or its code with what R188 reports. -/
def loadCheck (y : Sys) (addr part : Nat) (shadow : Bool) : Nat × Option StepFail :=
  let bank := if shadow then 1 - y.dev.sched.bank else y.dev.sched.bank
  let i := readImage y addr part shadow
  if !imageFormatOk y addr then (1, none)
  else if !imageLayoutOk y i then (2, none)
  else if !digestNow y addr i.size then (3, none)
  else if !imageProtected y addr i.size then (4, none)
  else if !bitAt i.device 15 && bits i.device 0 11 != y.dev.span.deviceId then (5, none)
  else if (!shadow && !y.dev.sched.haveActive) || i.columns != colsIn y bank part then (6, none)
  else if !latencyMatches y i then (7, none)
  else if !imagePortsOk y i bank then (8, none)
  else if i.holdProp < bits (secField y bank 1 0x30 2) 0 9 then (9, none)
  else match stepFailOf y i with
    | some f => (10, some f)
    | none =>
      if !pageBoundsOk y i bank then (11, none)
      else if partLive y.dev part || (y.dev.sched.images.any fun j => j.addr == addr && partLive y.dev j.part) then (12, none)
      else (0, none)

/- The listings of R184. -/

/-- Device ranges that a step writes by its static addresses: in its column's buffer, and elsewhere (R184). -/
def staticWrites (y : Sys) (i : Image) (col : Nat) (d : Desc) : List (Nat × Nat) :=
  outputRanges y i col d ++
    match opOf d with
    | 4 => let t := moveAddr d 0x20
           if t.1 then [] else hull t.2 (moveShape d).1 (fld d 0x34 4) (moveShape d).2
    | 6 => if gaLimit d = 0 then [] else [(gaBase d, gaBase d + gaLimit d - 1)]
    | 8 => if flitsOf d = 0 then [] else [(flowAddr d, flowAddr d + 256 * flitsOf d - 1)]
    | 10 => (List.range (roCount d)).flatMap fun k =>
        let row := fun a => (a + k * roStride d, a + k * roStride d + 8191)
        row (roDst d) :: (if roOp d = 10 ∧ roCompound d = 8 then [row (roC d)] else [])
    | _ => []

/-- Where the flits of a REDUCE land (R181, R182). -/
def stagingWrites (d : Desc) : List (Nat × Nat) :=
  if opOf d = 9 ∧ flitsOf d ≠ 0 then [(flowAddr d, flowAddr d + 256 * flitsOf d - 1)] else []

/-- The later steps of a list that issue while a step is retained: up to the second one that uses an engine of it (R183). -/
def whileRetained (list : List Desc) (engines : List Nat) : Nat → List Nat → List Nat
  | _, [] => []
  | used, j :: r =>
    if (enginesOf (nth list j [])).any engines.contains then
      (if 1 ≤ used then [] else j :: whileRetained list engines 1 r)
    else j :: whileRetained list engines used r

/-- The listing of a step: the step itself, or the first later step, that overwrites its retained ranges (R184, R385). -/
def listing (y : Sys) (i : Image) (col : Nat) (list : List Desc) (idx : Nat) : Option Nat :=
  let d := nth list idx []
  let ins := inputRanges y i col d []
  if !isRetained d || ins.isEmpty then none
  else if rangesMeet ins (staticWrites y i col d) then some idx
  else (whileRetained list (enginesOf d) 0 ((List.range list.length).drop (idx + 1))).find? fun j =>
    let e := nth list j []
    rangesMeet ins (staticWrites y i col e ++ stagingWrites e)

/-- Every listing of an image, 8 bytes each (R385). -/
def listings (y : Sys) (i : Image) : List (List Byte) :=
  i.columns.flatMap fun c =>
    let list := stepList y i c
    (List.range list.length).filterMap fun idx => (listing y i c list idx).map fun j => leBytes 4 idx ++ leBytes 4 j

end Sys2Proof.Machine
end

