-- ==== Sys2Proof/Machine/SchedCmds.lean ====
section
/-! DEFINITION. The CFG and SCHED command groups (R79 to R91, R121, R199, R238 to R240, R258, R266 to R268, R297, R309, R341,
R384, R385, R474, R475). -/

namespace Sys2Proof.Machine

/- CFG.WRITE and CFG.READ (R384). -/

/-- CFG.WRITE: bytes go into the shadow set (R85, R88, R384). -/
def cfgWrite (m : Nat) (y : Sys) : Sys :=
  command 2 1 8 m (fun r y =>
    let off := r.field 0 4
    let n := r.field 4 4
    if r.payload.length < 8 + n ∨ 2 ^ 32 < off + n then finish y m stPayload []
    else if y.dev.sched.swap.isSome then finish y m 0x28 []
    else finish (y.put (setKey (1 - y.dev.sched.bank) off) (slice r.payload 8 n)) m 0 []) y

def execCfgWrite (mb : Mbx) (s : State) : Host.Outcome State Fault Refusal := onSys (cfgWrite mb) s

/-- CFG.READ: bytes of a set go to the host (R382, R384). -/
def cfgRead (m : Nat) (y : Sys) : Sys :=
  command 2 2 0x18 m (fun r y =>
    let which := r.field 0 1
    let off := r.field 4 4
    let n := r.field 8 4
    if 1 < which ∨ r.field 1 3 ≠ 0 ∨ r.field 0xC 4 ≠ 0 ∨ 2 ^ 32 < off + n ∨ destOk (r.field 0x10 8) = false then finish y m stPayload []
    else
      let bank := if which = 0 then y.dev.sched.bank else 1 - y.dev.sched.bank
      finishDest y m (r.field 0x10 8) (y.getN (setKey bank off) n) 0 []) y

def execCfgRead (mb : Mbx) (s : State) : Host.Outcome State Fault Refusal := onSys (cfgRead mb) s

/- The checks of CFG.SWAP (R85), on the set of a bank. -/

/-- A field of section i of a set lies in a range. -/
def inRange (y : Sys) (bank i off n lo hi : Nat) : Bool :=
  decide (lo ≤ secField y bank i off n) && decide (secField y bank i off n ≤ hi)

/-- Bytes of section i of a set are zero. -/
def zeroIn (y : Sys) (bank i off n : Nat) : Bool := (List.range n).all fun k => secField y bank i (off + k) 1 == 0

/-- Lengths of the nine sections, in the order of R82. -/
def sectionLens : List Nat := [80, 64, 3088, 32, 64, 64, 336, 1168, 32]

/-- The directory is well formed: every section has its length and a place of its own (R83). -/
def directoryOk (y : Sys) (bank : Nat) : Bool :=
  let at0 := fun i => secOff y bank i
  let len := fun i => nth sectionLens i 0
  setField y bank 4 4 == 0 && at0 0 == 0 && (List.range 9).all fun i =>
    secLen y bank i == len i && decide (at0 i + len i ≤ 2 ^ 32) &&
      (List.range i).all fun j => decide (at0 i + len i ≤ at0 j) || decide (at0 j + len j ≤ at0 i)

/-- The timing and partitions section (R84). -/
def timingFormatOk (y : Sys) (bank : Nat) : Bool :=
  ((List.range 4).all fun q => zeroIn y bank 1 (0x15 + 8 * q) 3) && bits (secField y bank 1 0x30 2) 9 7 == 0
    && ((List.range 4).all fun k =>
      let p := bits (secField y bank 1 0x32 2) (4 * k) 4
      decide (p < 12) || p == 15)
    && zeroIn y bank 1 0x34 12

/-- The GRANULE byte of a granule in a bank (R238). -/
def granuleIn (y : Sys) (bank c g : Nat) : Nat := secField y bank 2 (0x10 + 192 * c + g) 1

/-- The region map (R238). -/
def regionFormatOk (y : Sys) (bank : Nat) : Bool :=
  let n := y.dev.map.n
  zeroIn y bank 2 4 12 && (List.range 16).all fun c =>
    let b := bits (secField y bank 2 0 4) (2 * c) 2
    if c < n then decide (b < 2) && (List.range 192).all fun g =>
      let v := granuleIn y bank c g
      decide (v < 8) && bits v 1 2 != 3
    else b == 0 && (List.range 192).all fun g => granuleIn y bank c g == 0

/-- The scrub rates (R297). -/
def scrubFormatOk (y : Sys) (bank : Nat) : Bool :=
  inRange y bank 5 0 2 60 10080 && inRange y bank 5 2 1 1 255 && zeroIn y bank 5 3 1
    && ((List.range 12).all fun l => secField y bank 5 (4 + 2 * l) 2 == 0 || inRange y bank 5 (4 + 2 * l) 2 60 10080)
    && decide (secField y bank 5 0x1E 2 < 2 ^ y.dev.map.n) && zeroIn y bank 5 0x22 30

/-- The sparse-attention defaults (R199). -/
def sparseFormatOk (y : Sys) (bank : Nat) : Bool :=
  let f := fun off n => secField y bank 8 off n
  inRange y bank 8 0 2 1 256 && decide (f 2 2 ≤ 256) && decide (f 4 2 ≤ 512) && inRange y bank 8 6 2 1 1024
    && inRange y bank 8 8 2 1 (f 0 2) && decide (f 0xA 2 ≤ f 2 2) && inRange y bank 8 0xC 4 1 65535 && zeroIn y bank 8 0x14 12

/-- Reserved fields of the remaining sections (R309, R341, R474, R475). -/
def otherFormatOk (y : Sys) (bank : Nat) : Bool :=
  zeroIn y bank 3 0x10 16 && zeroIn y bank 4 5 11 && zeroIn y bank 6 1 7 && zeroIn y bank 6 0x14C 4
    && ((List.range 324).all fun k => decide (secField y bank 6 (8 + k) 1 < 16)) && zeroIn y bank 7 0 16
    && (List.range 16).all fun g =>
      let a := 0x410 + 8 * g
      decide (secField y bank 7 a 1 < 32) && zeroIn y bank 7 (a + 1) 1 && decide (secField y bank 7 (a + 2) 2 < 4096)
        && zeroIn y bank 7 (a + 4) 4

/-- SET_FORMAT (R85, R199, R238, R297). -/
def setFormatOk (y : Sys) (bank : Nat) : Bool :=
  directoryOk y bank && timingFormatOk y bank && regionFormatOk y bank && scrubFormatOk y bank && sparseFormatOk y bank
    && otherFormatOk y bank

/-- PARTITION (R85). -/
def partitionOk (y : Sys) (bank : Nat) : Bool :=
  ((List.range 16).all fun c =>
    let p := secField y bank 1 c 1
    p == 0xFF || (decide (p < 4) && decide (c < y.dev.map.n)))
    && (List.range 4).all fun q => !partLive y.dev q || colsIn y bank q == colsOf y q

/-- The rows that the ROWOP steps of an image name, over all repetitions (R258). -/
def rowopRows (y : Sys) (i : Image) : List Nat :=
  i.columns.flatMap fun c => (stepList y i c).flatMap fun d =>
    if opOf d = 10 then (List.range (roCount d)).flatMap (roRows d) else []

/-- The granules that hold a loaded image, or a structure that must be Protected (R79, R197). -/
def guardedGranules (y : Sys) : List (Nat × Nat) :=
  y.dev.sched.images.flatMap fun i =>
    granulesOf i.addr i.size ++
      match i.pw with
      | some b => (kvInUse y (readPw y b)).flatMap fun s => if s.1 = .protectedTable then granulesOf s.2.1 s.2.2 else []
      | none => []

/-- The granules that hold sketch lists, scratch rows, or rows of ROWOP steps, of loaded images (R239, R258). -/
def openGranules (y : Sys) : List (Nat × Nat) :=
  y.dev.sched.images.flatMap fun i =>
    ((rowopRows y i).map fun a => (a / colBytes, granuleOf (a % colBytes))) ++
      match i.pw with
      | some b => (kvInUse y (readPw y b)).flatMap fun s => if s.1 = .openRows then granulesOf s.2.1 s.2.2 else []
      | none => []

/-- REGION (R85, R239, R258). -/
def mapOk (y : Sys) (bank : Nat) : Bool :=
  ((allGranules y.dev.map.n).all fun g => granuleIn y bank g.1 g.2 != 5)
    && ((guardedGranules y).all fun g =>
      let v := granuleIn y bank g.1 g.2
      !bitAt v 0 && bits v 1 2 != 2)
    && (openGranules y).all fun g => bitAt (granuleIn y bank g.1 g.2) 0

/-- LIMITS: the ranges of the power limits (R474). -/
def powerLimitsOk (y : Sys) (bank : Nat) : Bool :=
  let f := fun off n => secField y bank 3 off n
  inRange y bank 3 0 2 300 2000 && inRange y bank 3 2 2 300 (f 0 2) && inRange y bank 3 4 1 4 40 && inRange y bank 3 5 1 (f 4 1) 136
    && ((List.range 4).all fun k => inRange y bank 3 (6 + k) 1 1 255) && decide (f 0xA 1 ≤ 1) && inRange y bank 3 0xB 1 20 60
    && decide (f 0xC 1 ≤ 30) && decide (f 0xD 1 ≤ 16) && inRange y bank 3 0xE 2 10 10000

/-- LIMITS: the ranges of the thermal limits (R475). -/
def thermLimitsOk (y : Sys) (bank : Nat) : Bool :=
  inRange y bank 4 0 1 80 105 && inRange y bank 4 1 1 80 100 && inRange y bank 4 2 1 70 95 && inRange y bank 4 3 1 80 105
    && inRange y bank 4 4 1 10 100 && (List.range 12).all fun l => inRange y bank 4 (0x10 + 4 * l) 4 8 (2 ^ 24)

/-- The images that will run under the set of a bank: those that its pointers name (R85). -/
def setImages (y : Sys) (bank : Nat) : List Image := (List.range 4).filterMap fun q => imageAt y.dev (imageIn y bank q)

/-- A partition's pointer differs from the one of the active set. -/
def pointerChanges (y : Sys) (bank q : Nat) : Bool :=
  !y.dev.sched.haveActive || imageIn y bank q != imageIn y y.dev.sched.bank q

/-- SCHEDULE, for a swap at an SBC or an immediate one (R85, R199). -/
def scheduleOk (y : Sys) (bank : Nat) (at0 : Option Nat) : Bool :=
  ((List.range 4).all fun q =>
    let a := imageIn y bank q
    let changed := partState y.dev q == .running && pointerChanges y bank q
    if a = 0 then true
    else match imageAt y.dev a with
      | none => false
      | some i => !changed || some i.startSbc == at0)
    && (setImages y bank).all fun i => pageBoundsOk y i bank

/-- LATENCY: an image that the swap brings into use no longer matches its columns (R121). -/
def latencyOk (y : Sys) (bank : Nat) : Bool :=
  (List.range 4).all fun q =>
    match imageAt y.dev (imageIn y bank q) with
    | some i => !pointerChanges y bank q || !i.latencyBad
    | none => true

/-- HOLD_PROP (R85). -/
def holdPropOk (y : Sys) (bank : Nat) : Bool :=
  let p := bits (secField y bank 1 0x30 2) 0 9
  decide (p ≤ 320) && (setImages y bank).all fun i => decide (p ≤ i.holdProp)

/-- TABLES: the mesh routing tables (R309). -/
def meshTablesOk (y : Sys) (bank : Nat) : Bool :=
  let entry := fun r d => bits (secField y bank 6 (8 + 18 * r + d) 1) 0 4
  match secField y bank 6 0 1 with
  | 0 => zeroIn y bank 6 8 324
  | 1 => ((List.range 18).all fun r => (List.range 18).all fun d => decide (entry r d % 8 ≤ 4)) && tablesValid y.dev.noc.failed entry
  | _ => false

/-- TABLES: the span routing and multicast tables (R341). -/
def spanTablesOk (y : Sys) (bank : Nat) : Bool :=
  let standby := bits (secField y bank 1 0x32 2) 12 4
  let uroute := fun d => bits (secField y bank 7 (0x10 + d / 2) 1) (4 * (d % 2)) 4
  ((List.range 2048).all fun d =>
    let p := uroute d
    p == 15 || (decide (p < 12) && p != standby && d != y.dev.span.deviceId))
    && (List.range 16).all fun g =>
      let p := bits (secField y bank 7 (0x410 + 8 * g) 1) 0 4
      let out := secField y bank 7 (0x412 + 8 * g) 2
      (p == 15 || (decide (p < 12) && !bitAt out p)) && (standby == 15 || !bitAt out standby)

/-- The granules of active columns that a set changes from one region type to the other: Open in it (`true`) or Protected (R240). -/
def typeChanges (y : Sys) (bank : Nat) (toOpen : Bool) : List (Nat × Nat) :=
  (allGranules y.dev.map.n).filter fun g => isOpen y g.1 g.2 != toOpen && bitAt (granuleIn y bank g.1 g.2) 0 == toOpen

/-- The greatest number of granules of one column that become Protected (R268). -/
def encodeMost (y : Sys) (bank : Nat) : Nat :=
  let l := typeChanges y bank false
  ((List.range 16).map fun c => (l.filter fun g => g.1 == c).length).foldl max 0

/-- TOO_LATE (R85, R268). -/
def tooLate (y : Sys) (bank s : Nat) : Bool :=
  decide (s < sbc y.dev + 31250) || decide (s < sbc y.dev + 16384 * encodeMost y bank + 64)

/-- The first code of R85 that the shadow set fails, 0 for none; the SBC of a stated swap, or none for an immediate one. -/
def swapCheck (y : Sys) (at0 : Option Nat) : Nat :=
  let b := 1 - y.dev.sched.bank
  if !setFormatOk y b then 0x20
  else if !partitionOk y b then 0x21
  else if !mapOk y b then 0x22
  else if !(powerLimitsOk y b && thermLimitsOk y b) then 0x23
  else if !scheduleOk y b at0 then 0x24
  else if !latencyOk y b then 7
  else if !holdPropOk y b then 0x25
  else if !(meshTablesOk y b && spanTablesOk y b) then 0x26
  else if (match at0 with
    | some s => tooLate y b s
    | none => false) then 0x27
  else if y.dev.sched.swap.isSome then 0x28
  else if at0.isNone && anyLive y.dev then 0x29
  else 0

/-- An accepted swap becomes pending: back-invalidation of the granules that leave cached and encoding of those that become Protected
begin (R86, R87, R240, R266, R267). -/
def swapAccept (y : Sys) (at0 : Option Nat) : Sys :=
  let b := 1 - y.dev.sched.bank
  let leaving := (allGranules y.dev.map.n).filter fun g => hostAccess y g.1 g.2 == 2 && bits (granuleIn y b g.1 g.2) 1 2 != 2
  let encode := typeChanges y b false
  let s0 := y.dev.beat.wbc
  let y := y.onSched fun s => { s with swap := some ⟨at0, leaving.map fun g => g.1 * 192 + g.2, s0, s0⟩ }
  let y := y.onProt fun p => { p with encoding := encode, encoded := [] }
  y.each leaving fun y g => backInvalidate y g.1 g.2

/-- SBC of the next wall beat, at whose boundary an immediate swap takes place (R87). -/
def nextSbc (d : Dev) : Nat := if isHoldBeat d.beat (d.beat.wbc + 1) then sbc d else sbc d + 1

/-- CFG.SWAP without its cancel flag: stated, which needs alignment, or immediate (R53, R85 to R88, R384). -/
def swapCommand (immediate : Bool) (m : Nat) (y : Sys) : Sys :=
  command 2 3 9 m (fun r y =>
    let flags := r.field 8 1
    let s := r.field 0 8
    if bitAt flags 1 || bitAt flags 0 != immediate then y
    else if 4 ≤ flags ∨ 2 ^ 56 ≤ s then finish y m stPayload []
    else
      let at0 := if immediate then none else some s
      let code := swapCheck y at0
      if immediate = false ∧ y.dev.beat.aligned = false then finish y m stRefused [2]
      else if code ≠ 0 then finish y m code []
      else
        let gen := setField y (1 - y.dev.sched.bank) 0 4
        finish (swapAccept y at0) m 0 (leBytes 8 (at0.getD (nextSbc y.dev)) ++ leBytes 4 gen)) y

def execCfgSwap (mb : Mbx) (s : State) : Host.Outcome State Fault Refusal := onSys (swapCommand false mb) s

def execCfgSwapImmediate (mb : Mbx) (s : State) : Host.Outcome State Fault Refusal := onSys (swapCommand true mb) s

/-- CFG.SWAP with its cancel flag, until SBC S - 64; check bytes written for it are discarded (R88, R267). -/
def swapCancel (m : Nat) (y : Sys) : Sys :=
  command 2 3 9 m (fun r y =>
    let flags := r.field 8 1
    if !bitAt flags 1 then y
    else if 4 ≤ flags ∨ 2 ^ 56 ≤ r.field 0 8 then finish y m stPayload []
    else match y.dev.sched.swap.bind SwapPending.sbc with
      | none => finish y m stRefused []
      | some s =>
        if s < sbc y.dev + 64 then finish y m stRefused []
        else
          finish ((y.onSched fun x => { x with swap := none }).onProt fun p => { p with encoding := [], encoded := [] }) m 0 []) y

def execCfgSwapCancel (mb : Mbx) (s : State) : Host.Outcome State Fault Refusal := onSys (swapCancel mb) s

/- SCHED (R385). -/

/-- Copies the constants of an image into the buffers of their columns (R77). -/
def loadConstants (y : Sys) (i : Image) : Sys :=
  y.each (i.sections.filter fun s => s.type == 5) fun y s =>
    let data := devBytes y (i.addr + s.offset + 8) (s.length - 8)
    let a := devField y (i.addr + s.offset) 8
    match fencedAt y a with
    | some r => firmwareRecord (refusedTwice y r 2) 0 a
    | none => deviceWrite y a data (fullMask data) .control none

/-- A new status ring takes the place of a partition's old one; answers still due for that one are forgotten (R377, R385). -/
def newRing (y : Sys) (q addr records : Nat) : Sys :=
  let y := y.onSched fun s => { s with rings := upd s.rings q fun _ => { addr := addr, records := records } }
  y.onHost fun h => { h with accs := h.accs.map fun a =>
    if (a.use == .stsRecord q || a.use == .stsProducer q) then { a with use := .mapOut } else a }

/-- The image becomes loaded (R77, R80, R385). -/
def loadImage (y : Sys) (i : Image) (ring records : Nat) : Sys :=
  let y := y.onSched fun s => { s with images := (s.images.filter fun j => j.addr != i.addr) ++ [i] }
  noticePools (loadConstants (newRing y i.part ring records) i) i

/-- SCHED.LOAD (R80, R184, R188, R385). -/
def schedLoad (m : Nat) (y : Sys) : Sys :=
  command 3 1 0x2C m (fun r y =>
    let q := r.field 0 1
    let target := r.field 1 1
    let addr := r.field 8 8
    let ring := r.field 0x10 8
    let records := r.field 0x18 4
    let dest := r.field 0x20 8
    let bad := decide (3 < q) || decide (1 < target) || r.field 2 6 != 0 || decide (2 ^ 40 ≤ addr) || decide (2 ^ 52 ≤ ring)
      || ring % 4096 != 0 || !((List.range 15).any fun k => records == 2 ^ (6 + k)) || r.field 0x1C 4 != 0 || !destOk dest
    if bad then finish y m stPayload []
    else
      let head := ccSnoop y [(addr, 128)] []
      let whole := ccSnoop head.2 [(addr, min (devField y (addr + 8) 8) (2 ^ 40))] []
      let audit := if imageFormatOk y addr then ccRead y addr (devField y (addr + 8) 8) else (true, y)
      let y := audit.2
      let check := loadCheck y addr q (target == 1)
      if !head.1 || !whole.1 then whole.2
      else match (if audit.1 || check.1 == 1 || check.1 == 2 then check else (3, none)) with
        | (0, _) =>
          let i := readImage y addr q (target == 1)
          let l := listings y i
          let y := loadImage y i ring records
          let result := List.replicate 8 0 ++ leBytes 4 l.length
          if l.isEmpty || dest == 0 then finish y m 0 result
          else finishDest y m dest (l.flatten.take (r.field 0x28 4)) 0 result
        | (code, some f) => finish y m code (leBytes 1 f.sub ++ leBytes 1 0 ++ leBytes 2 f.sec ++ leBytes 4 f.index)
        | (code, none) => finish y m code []) y

def execSchedLoad (mb : Mbx) (s : State) : Host.Outcome State Fault Refusal := onSys (schedLoad mb) s

/-- SCHED.UNLOAD (R385): a start that was still to come goes with the image. -/
def schedUnload (m : Nat) (y : Sys) : Sys :=
  command 3 2 8 m (fun r y =>
    let a := r.field 0 8
    if 2 ^ 40 ≤ a then finish y m stPayload []
    else match imageAt y.dev a with
      | none => finish y m stRefused []
      | some i =>
        if partLive y.dev i.part then finish y m stState []
        else
          let y := y.onSched fun s => { s with
            images := s.images.filter fun j => j.addr != a
            runs := s.runs.map fun r => if r.image == some a then { r with image := none, startPending := false } else r }
          finish y m 0 []) y

def execSchedUnload (mb : Mbx) (s : State) : Host.Outcome State Fault Refusal := onSys (schedUnload mb) s

/-- SCHED.START (R46, R79, R81, R121, R385). -/
def schedStart (m : Nat) (y : Sys) : Sys :=
  command 3 3 0x10 m (fun r y =>
    let q := r.field 0 1
    let s := r.field 8 8
    if 3 < q ∨ r.field 1 7 ≠ 0 ∨ 2 ^ 56 ≤ s then finish y m stPayload []
    else
      let d := y.dev
      let ready := decide (6 ≤ d.boot.power.code) && d.sched.haveActive && partState d q == .idle
        && nth d.boot.disabling q .no == .no && !(colsOf y q).isEmpty
      match imageAt d (imageIn y d.sched.bank q) with
      | none => finish y m stState []
      | some i =>
        if !ready then finish y m stState []
        else if !d.beat.aligned then finish y m stRefused [2]
        else if s < sbc d + 64 then finish y m stRefused [1]
        else
        let audit := ccRead y i.addr i.size
        let y := audit.2
        if !audit.1 || !digestNow y i.addr i.size then finish y m 3 []
        else if i.latencyBad then finish y m 7 []
        else
          let y := y.onSched fun x =>
            { x with runs := upd x.runs q fun _ => { image := some i.addr, start := s, run := 0, startPending := true } }
          finish y m 0 []) y

def execSchedStart (mb : Mbx) (s : State) : Host.Outcome State Fault Refusal := onSys (schedStart mb) s

/-- A disable of a partition by SCHED.STOP or SCHED.DRAIN (R385, R420, R421). -/
def disableCommand (verb m : Nat) (start : Nat → Sys → Sys) (y : Sys) : Sys :=
  command 3 verb 1 m (fun r y =>
    let q := r.field 0 1
    if 3 < q then finish y m stPayload []
    else if !partLive y.dev q || nth y.dev.boot.disabling q .no != .no then finish y m stState []
    else progress (start q y) m []) y

/-- SCHED.STOP: the CUT of R421. -/
def cutStart (q : Nat) (y : Sys) : Sys :=
  let y := y.onBoot fun b => { b with disDiscards := b.disDiscards.set q 0 }
  (stopPart y q 0).onBoot fun b => { b with disabling := b.disabling.set q .cut }

def execSchedStop (mb : Mbx) (s : State) : Host.Outcome State Fault Refusal := onSys (disableCommand 4 mb cutStart) s

/-- SCHED.DRAIN: no step issues from the next beat boundary on (R420). -/
def drainStart (q : Nat) (y : Sys) : Sys :=
  y.onBoot fun b => { b with disDiscards := b.disDiscards.set q 0, disabling := b.disabling.set q (.drain y.dev.beat.wbc) }

def execSchedDrain (mb : Mbx) (s : State) : Host.Outcome State Fault Refusal := onSys (disableCommand 5 mb drainStart) s

end Sys2Proof.Machine
end

