-- ==== Sys2Proof/Machine/MemCmds.lean ====
section
/-! DEFINITION. The MEM and KV command groups (R174, R203, R224, R242, R249, R250, R280, R386, R387). -/

namespace Sys2Proof.Machine

/- Memory of the control complex's commands (R280, R386). -/

/-- The pieces of a range that lie within one block of u bytes each: offset from the start, address, length. -/
def rangePieces (u : Nat) : Nat → Nat → Nat → Nat → List (Nat × Nat × Nat)
  | 0, _, _, _ => []
  | fuel + 1, off, addr, len =>
    if len = 0 then []
    else
      let n := min len (u - addr % u)
      (off, addr, n) :: rangePieces u fuel (off + n) (addr + n) (len - n)

/-- The 64-byte blocks that a range touches. -/
def blocksOf (a len : Nat) : List (Nat × Nat × Nat) := rangePieces 64 (len / 64 + 2) 0 a len

/-- The first cause of R242 that a device side of a command meets, with its address; CSR space takes only accesses of one register
(R227), the interleaved window is not mapped for the control complex (R232), the spare sites are open to it (R226), and the host access
attribute does not bind it (R237). -/
def sideCause (y : Sys) (a len : Nat) (write : Bool) : Option (Nat × Nat) :=
  (blocksOf a len).findSome? fun p =>
    if inWindow p.2.1 then some (1, p.2.1)
    else match place y.dev.map.n p.2.1 with
    | .csr _ => some (1, p.2.1)
    | .spare k _ => if (spareSite y.dev k).isNone then some (1, p.2.1) else none
    | _ => match accessCause y p.2.1 p.2.2 write false with
      | some 3 => if write && (match place y.dev.map.n p.2.1 with
          | .dram c o => granuleLocked y c (granuleOf o)
          | _ => false) then some (5, p.2.1) else none
      | c => c.map fun c => (c, p.2.1)

/-- Bytes read for a command, block by block, and the stretches that were uncorrectable or that a fenced router refused: offset and length
(R280, R319, R492). -/
def readBlocks (y : Sys) (a len : Nat) : (List Byte × List (Nat × Nat)) × Sys :=
  (blocksOf a len).foldl (fun (r : (List Byte × List (Nat × Nat)) × Sys) p =>
    match addrKey r.2.dev p.2.1, fencedAt r.2 p.2.1 with
    | none, _ => ((r.1.1 ++ List.replicate p.2.2 0, r.1.2), r.2)
    | some _, some s => ((r.1.1 ++ List.replicate p.2.2 0, r.1.2 ++ [(p.1, p.2.2)]), refusedTwice r.2 s 1)
    | some k, none =>
      let m := readBank r.2 k p.2.2 .control
      match m.1 with
      | .ok b => ((r.1.1 ++ b, r.1.2), m.2)
      | .error _ => ((r.1.1 ++ List.replicate p.2.2 0, r.1.2 ++ [(p.1, p.2.2)]), m.2)) (([], []), y)

/-- The offset of the first uncorrectable stretch of a source from which a block of a destination takes bytes. -/
def sourceBad (bad : List (Nat × Nat)) (off n : Nat) : Option Nat :=
  (bad.find? fun b => decide (b.1 < off + n) && decide (off < b.1 + b.2)).map Prod.fst

/-- The earlier of two first blocks. -/
def firstBad (bad : Option Nat) (a : Nat) : Option Nat := some (bad.getD (a / 64 * 64))

/-- Writes a command's bytes block by block; the address of the first block whose data was uncorrectable: the source's at `src`, or
the destination's where a partial write met it (R280, R376, R386; DEDUCED, log 22). -/
def writeBlocks (y : Sys) (src a : Nat) (data : List Byte) (bad : List (Nat × Nat)) : Option Nat × Sys :=
  (blocksOf a data.length).foldl (fun r p =>
    let bytes := slice data p.1 p.2.2
    let line := lineOf r.2.dev p.2.1
    match sourceBad bad p.1 p.2.2, fencedAt r.2 p.2.1 with
    | some o, _ => (firstBad r.1 (src + o), r.2)
    | none, some s => (firstBad r.1 p.2.1, refusedTwice r.2 s 2)
    | none, none =>
    if (assoc r.2.dev.host.filter line).isSome || r.2.dev.host.txns.any fun t => t.line == line then
      (r.1, homeArrive r.2 line (.devWrite p.2.1 .control bytes (fullMask bytes)))
    else
      let w := writeDev r.2 p.2.1 bytes (fullMask bytes) .control none
      (if w.1 then firstBad r.1 p.2.1 else r.1, w.2)) (none, y)

/-- STATUS and result of a command that left out the blocks from a first one on (R376). -/
def dataResult (first : Option Nat) : Nat × List Byte :=
  match first with
  | none => (0, [])
  | some a => (stData, leBytes 8 a)

/-- A command that moves data ends: to a device address at once, to a host address with its last DWR (R367, R386). -/
def storeData (y : Sys) (m src dst : Nat) (data : List Byte) (bad : List (Nat × Nat)) : Sys :=
  if bitAt dst 63 then
    let a := bits dst 0 52
    let ps := blocksOf a data.length
    let first := (ps.findSome? fun p => sourceBad bad p.1 p.2.2).map fun o => (src + o) / 64 * 64
    let good := ps.filter fun p => (sourceBad bad p.1 p.2.2).isNone
    let f := dataResult first
    if good.isEmpty then finish y m f.1 f.2
    else
      let y := onOpen y m fun r => { r with final := some f, destPending := good.length }
      y.each good fun y p => dwrRange y p.2.1 (slice data p.1 p.2.2) (.cmdDest m)
  else
    let w := writeBlocks y src (bits dst 0 40) data bad
    let f := dataResult w.1
    finish w.2 m f.1 f.2

/-- An address of R174 with a reserved bit set. -/
def addrReserved (v : Nat) : Bool := bits v 52 11 != 0 || (!bitAt v 63 && bits v 40 12 != 0)

/-- A command refused under R242: the cause is recorded with SOURCE 1, reported as a firmware fault, and is the reason (R242, R386,
R495). -/
def refuseAccess (y : Sys) (m : Nat) (cause addr : Nat) (write : Bool) : Sys :=
  finish (firmwareRecord (recordAccess y addr cause 1 write) cause addr) m stRefused [BitVec.ofNat 8 cause]

/-- What a command that reads host memory itself does when the last piece has arrived: MEM.COPY stores it (R386). -/
def memCopyStore (y : Sys) (m : Nat) (r : CmdRun) (data : List Byte) : Sys := storeData y m 0 (r.field 8 8) data []

/-- MEM.COPY (R386). -/
def memCopy (m : Nat) (y : Sys) : Sys :=
  command 4 1 0x18 m (fun r y =>
    let src := r.field 0 8
    let dst := r.field 8 8
    let n := r.field 0x10 8
    if addrReserved src || addrReserved dst || n % 64 != 0 then finish y m stPayload []
    else
      let srcDev := !bitAt src 63
      let dstDev := !bitAt dst 63
      match (if srcDev then sideCause y src n false else none), (if dstDev then sideCause y dst n true else none) with
      | some c, _ => refuseAccess y m c.1 c.2 false
      | none, some c => refuseAccess y m c.1 c.2 true
      | none, none =>
        let snoop := ccSnoop y (if srcDev then [(src, n)] else []) (if dstDev then [(dst, n)] else [])
        if !snoop.1 then snoop.2
        else if srcDev then
          let d := readBlocks y src n
          storeData d.2 m src dst d.1.1 d.1.2
        else if n = 0 then finish y m 0 []
        else
          let a := bits src 0 52
          let y := onOpen y m fun r => { r with pendingRefs := (hostPieces (n / 128 + 2) 0 a n).length }
          drdRange y a n fun p => .memRead m p) y

def execMemCopy (mb : Mbx) (s : State) : Host.Outcome State Fault Refusal := onSys (memCopy mb) s

/-- The bytes of a pattern of 8 bytes over a length (R386). -/
def patternBytes (pattern n : Nat) : List Byte := ((List.replicate (n / 8 + 1) (leBytes 8 pattern)).flatten).take n

/-- MEM.FILL (R386). -/
def memFill (m : Nat) (y : Sys) : Sys :=
  command 4 2 0x18 m (fun r y =>
    let dst := r.field 0 8
    let n := r.field 8 8
    if addrReserved dst then finish y m stPayload []
    else
      let dev := !bitAt dst 63
      match (if dev then sideCause y dst n true else none) with
      | some c => refuseAccess y m c.1 c.2 true
      | none =>
        let snoop := ccSnoop y [] (if dev then [(dst, n)] else [])
        if !snoop.1 then snoop.2 else storeData y m 0 dst (patternBytes (r.field 0x10 8) n) []) y

def execMemFill (mb : Mbx) (s : State) : Host.Outcome State Fault Refusal := onSys (memFill mb) s

/-- A migration that is under way (R253). -/
def migrating (m : Migration) : Bool := m.state == 1 || m.state == 2

/-- MEM.MIGRATE: the old site's core is fenced, the target's buffer is cleared, copying and mirroring begin (R249 to R251). -/
def memMigrate (m : Nat) (y : Sys) : Sys :=
  command 4 3 2 m (fun r y =>
    let c := r.field 0 1
    let t := r.field 1 1
    let d := y.dev
    let live := match partOf y c with
      | some q => partLive d q
      | none => false
    if d.map.n ≤ c ∨ 18 ≤ t then finish y m stPayload []
    else if live || !(t == d.map.spare0 || t == d.map.spare1) || migrating d.map.mig || d.noc.fabricReset then finish y m stRefused []
    else
      let old := siteOf d c
      let y := y.onNoc fun n => { n with fences := n.fences ++ [⟨old, 0, 0⟩] }
      let y := fillBuffer y t
      let y := y.onMap fun x => { x with
        cols := upd x.cols c fun e => { e with migrating := true }
        mig := { state := 1, col := c, fromSite := old, toSite := t, mirroring := true } }
      progress y m []) y

def execMemMigrate (mb : Mbx) (s : State) : Host.Outcome State Fault Refusal := onSys (memMigrate mb) s

/- The page store (R203, R224, R387). -/

/-- The image that a KV command acts on: the one that the active set names for the partition, else the one loaded for its shadow set
(R387). -/
def kvImage (y : Sys) (q : Nat) : Option Image :=
  let named := if y.dev.sched.haveActive then imageAt y.dev (imageIn y y.dev.sched.bank q) else none
  match named with
  | some i => some i
  | none => y.dev.sched.images.find? fun i => i.part == q && i.shadow

/-- The page-walk parameters that a KV command acts on. -/
def kvParams (y : Sys) (q : Nat) : Option Pw := (kvImage y q).bind fun i => i.pw.map (readPw y)

/-- A preparation of one of the columns is in progress, so that a KV command waits (R203). -/
def prepRuns (y : Sys) (cols : List Nat) : Bool :=
  cols.any fun c => match (y.core (siteOf y.dev c)).prep with
    | some p => !p.finished
    | none => false

/-- A prepared or retained step of a partition names a sequence (R203). -/
def seqInUse (y : Sys) (q seq : Nat) : Bool :=
  (colsOf y q).any fun c =>
    let k := y.core (siteOf y.dev c)
    (match k.prep with
      | some p => p.seq == seq
      | none => false)
      || k.steps.any fun s => [2, 11, 14].contains s.op && (!s.done || s.ret.live) && stepSeq s.desc == seq

/-- The work of a KV command: the stack, and the first block that was uncorrectable (R280). -/
structure KvWork where
  y : Sys
  bad : Option Nat

/-- Reads bytes of one structure through the checker; none where they are uncorrectable (R280). -/
def kvRead (w : KvWork) (a len : Nat) : Option (List Byte) × KvWork :=
  let r := readBlocks w.y a len
  match r.1.2 with
  | [] => (some r.1.1, { w with y := r.2 })
  | b :: _ => (none, ⟨r.2, firstBad w.bad (a + b.1)⟩)

/-- Writes bytes of one structure; a block that a partial write finds uncorrectable is left unchanged (R280, R387). -/
def kvPut (w : KvWork) (a : Nat) (data : List Byte) : KvWork :=
  let r := writeBlocks w.y 0 a data []
  ⟨r.2, match r.1 with
    | some x => firstBad w.bad x
    | none => w.bad⟩

/-- Ends a KV command (R376). -/
def kvFinish (w : KvWork) (m : Nat) : Sys :=
  let f := dataResult w.bad
  finish w.y m f.1 f.2

/-- Changes the work for every element of a list. -/
def KvWork.each {α : Type} (w : KvWork) (l : List α) (f : KvWork → α → KvWork) : KvWork := l.foldl f w

/-- KV.WRITE: within one structure that the parameters of a loaded image name (R197, R387). -/
def kvWrite (m : Nat) (y : Sys) : Sys :=
  command 5 1 0xC m (fun r y =>
    let a := r.field 0 8
    let n := r.field 8 4
    if 2 ^ 40 ≤ a ∨ r.payload.length < 0xC + n then finish y m stPayload []
    else
      let owners := y.dev.sched.images.filter fun i => match i.pw with
        | some b => (kvStructs y (readPw y b)).any fun s => decide (s.2.1 ≤ a) && decide (a + n ≤ s.2.1 + s.2.2)
        | none => false
      if owners.isEmpty then finish y m stRefused []
      else if prepRuns y (owners.flatMap fun i => i.columns) then y
      else
        let w := kvPut ⟨y, none⟩ a (slice r.payload 0xC n)
        kvFinish { w with y := w.y.each owners noticePools } m) y

def execKvWrite (mb : Mbx) (s : State) : Host.Outcome State Fault Refusal := onSys (kvWrite mb) s

/-- Address of the frame record of a frame (R192). -/
def recordAddr (p : Pool) (f : Nat) : Nat := (p.parts f).2.2 + 0x800

/-- Local entries of the logical pages below a page (R196). -/
def entriesBelow (e : SeqEntry) (pages : Nat) : Nat := if e.stride = 0 ∨ pages ≤ e.phase then 0 else (pages - e.phase - 1) / e.stride + 1

/-- Pairs of a list of one sequence and the list of another for the same layer and head (R195). -/
def pairedLists (y : Sys) (p : Pw) (from1 to1 : SeqEntry) : List (ListHdr × ListHdr) :=
  if !from1.valid || !to1.valid then []
  else (List.range (p.groups * p.lpg)).flatMap fun layer => (List.range p.kvHeads).filterMap fun h =>
    let a := hdrAddr y p from1 layer h
    let b := hdrAddr y p to1 layer h
    if a.2 && b.2 && (readHdr y a.1).valid && (readHdr y b.1).valid then some (readHdr y a.1, readHdr y b.1) else none

/-- An entry to be copied by KV.BIND: its place in the list of PREFIX_SEQ and in the list of SEQ. -/
def bindEntries (y : Sys) (e : SeqEntry) (pages : Nat) (l : List (ListHdr × ListHdr)) : List (ListHdr × ListHdr × Nat) :=
  l.flatMap fun hh => ((List.range (min (entriesBelow e pages) hh.1.cap)).filter fun n =>
    (readEntry y (hh.1.pl + 16 * n)).valid).map fun n => (hh.1, hh.2, n)

/-- How often the entries to be copied name each frame record. -/
def recordUses (y : Sys) (p : Pw) (l : List (ListHdr × ListHdr × Nat)) : List (Nat × Nat) :=
  l.foldl (fun acc x =>
    let e := readEntry y (x.1.pl + 16 * x.2.2)
    let a := recordAddr (readPool y p e.col) e.frame
    assocSet acc a (((assoc acc a).getD 0) + 1)) []

/-- Copies one entry and its sketch, sets PREFIX and counts the frame (R387). -/
def bindEntry (p : Pw) (w : KvWork) (x : ListHdr × ListHdr × Nat) : KvWork :=
  let n := x.2.2
  let r := kvRead w (x.1.pl + 16 * n) 16
  match r.1 with
  | none => r.2
  | some b =>
    let k := kvRead r.2 (x.1.sk + 32 * n) 32
    match k.1 with
    | none => k.2
    | some sk =>
      let w := kvPut k.2 (x.2.1.pl + 16 * n) (splice b 6 [Nat.lor (fld b 6 1) 2 |> BitVec.ofNat 8])
      let w := kvPut w (x.2.1.sk + 32 * n) sk
      let word := fld b 0 4
      let rec0 := recordAddr (readPool w.y p (bits word 24 4)) (bits word 0 24)
      let c := kvRead w rec0 2
      match c.1 with
      | none => c.2
      | some cb => kvPut c.2 rec0 (leBytes 2 (leNat cb + 1))

/-- KV.BIND (R224, R387). -/
def kvBind (m : Nat) (y : Sys) : Sys :=
  command 5 2 0xD m (fun r y =>
    let q := r.field 0xC 1
    match (if q < 4 then kvParams y q else none) with
    | none => finish y m stPayload []
    | some p =>
      let a := r.field 0 4
      let b := r.field 4 4
      if p.seqCount ≤ a ∨ p.seqCount ≤ b then finish y m stPayload []
      else if prepRuns y (colsOf y q) then y
      else
        let ea := readSeq y p a
        let eb := readSeq y p b
        let l := bindEntries y ea (r.field 8 4) (pairedLists y p ea eb)
        let past := (recordUses y p l).any fun u => decide (65535 < devField y u.1 2 + u.2)
        let beyond := l.any fun x => decide (x.2.1.cap ≤ x.2.2)
        if past || ea.stride != eb.stride || ea.phase != eb.phase || beyond then finish y m stRefused []
        else kvFinish (KvWork.each ⟨y, none⟩ l (bindEntry p)) m) y

def execKvBind (mb : Mbx) (s : State) : Host.Outcome State Fault Refusal := onSys (kvBind mb) s

/-- Lowers the count of a frame; at 0 the frame goes to the tail of its pool's ring and IN_USE is cleared (R224). -/
def lowerCount (p : Pw) (col frame : Nat) (w : KvWork) : KvWork :=
  let pool := readPool w.y p col
  let rec0 := recordAddr pool frame
  let r := kvRead w rec0 4
  match r.1 with
  | none => r.2
  | some b =>
    let n := fld b 0 2
    if n = 1 then
      let w := kvPut r.2 rec0 (leBytes 2 0 ++ leBytes 2 (fld b 2 2 / 2 * 2))
      { w with y := updateFree (giveFrame w.y pool frame) pool col }
    else kvPut r.2 rec0 (leBytes 2 (n - 1))

/-- Releases one entry of a list: entry and sketch become zero, the frame's count is lowered (R387). -/
def releaseEntry (p : Pw) (h : ListHdr) (w : KvWork) (n : Nat) : KvWork :=
  let r := kvRead w (h.pl + 16 * n) 16
  match r.1 with
  | none => r.2
  | some b =>
    let word := fld b 0 4
    if !bitAt word 31 then r.2
    else
      let w := kvPut r.2 (h.pl + 16 * n) (List.replicate 16 0)
      let w := kvPut w (h.sk + 32 * n) (List.replicate 32 0)
      lowerCount p (bits word 24 4) (bits word 0 24) w

/-- KV.RELEASE on the page store (R387). -/
def releaseSeq (y : Sys) (p : Pw) (seq fromPage : Nat) : KvWork :=
  let e := readSeq y p seq
  KvWork.each ⟨y, none⟩ (listsOf y p seq) fun w h =>
    w.each ((List.range h.cap).drop (entriesBelow e fromPage)) (releaseEntry p h)

/-- KV.RELEASE: deferred, IN_PROGRESS, while a prepared or retained step names the sequence (R203, R387). -/
def kvRelease (m : Nat) (y : Sys) : Sys :=
  command 5 3 9 m (fun r y =>
    let q := r.field 8 1
    match (if q < 4 then kvParams y q else none) with
    | none => finish y m stPayload []
    | some p =>
      let seq := r.field 0 4
      if p.seqCount ≤ seq then finish y m stPayload []
      else if seqInUse y q seq then progress (onOpen y m fun r => { r with deferred := true }) m []
      else if prepRuns y (colsOf y q) then y
      else kvFinish (releaseSeq y p seq (r.field 4 4)) m) y

def execKvRelease (mb : Mbx) (s : State) : Host.Outcome State Fault Refusal := onSys (kvRelease mb) s

/-- KV_DEFERRED_COMMAND: a deferred release runs once no prepared or retained step names its sequence (R203, R387). -/
def kvDeferred (y : Sys) : Sys :=
  match y.dev.host.cmds.find? fun r => r.deferred && r.inProgress && r.final.isNone with
  | none => y
  | some r =>
    let q := r.field 8 1
    let seq := r.field 0 4
    if seqInUse y q seq || prepRuns y (colsOf y q) then y
    else match kvParams y q with
      | none => complete y 5 3 stPayload []
      | some p =>
        let w := releaseSeq y p seq (r.field 4 4)
        let f := dataResult w.bad
        complete w.y 5 3 f.1 f.2

def execKvDeferredCommand (s : State) : Host.Outcome State Fault Refusal := onSys kvDeferred s

/-- KV.FREE (R224, R387). -/
def kvFree (m : Nat) (y : Sys) : Sys :=
  command 5 4 4 m (fun r y =>
    let c := r.field 0 1
    let n := (r.payload.length - 4) / 4
    let frames := (List.range n).map fun k => r.field (4 + 4 * k) 4
    match (if c < y.dev.map.n then (partOf y c).bind (kvParams y) else none) with
    | none => finish y m stPayload []
    | some p =>
      let pool := readPool y p c
      if r.payload.length % 4 ≠ 0 ∨ r.field 1 3 ≠ 0 ∨ pool.frames = 0 then finish y m stPayload []
      else if prepRuns y (((partOf y c).map (colsOf y)).getD []) then y
      else
        let flags := frames.foldl (fun (s : List Nat × KvWork) f =>
          let b := kvRead s.2 (recordAddr pool f + 2) 2
          (s.1 ++ (match b.1 with
            | some x => if bitAt (leNat x) 0 then [f] else []
            | none => []), b.2)) ([], ⟨y, none⟩)
        if (frames.any fun f => decide (pool.frames ≤ f)) || !flags.1.isEmpty
            || decide (pool.freeSize < freeCount y pool + n) then finish y m stRefused []
        else
          let w := flags.2
          let usable := frames.filter fun f => (kvRead ⟨y, none⟩ (recordAddr pool f + 2) 2).1.isSome
          kvFinish { w with y := updateFree (w.y.each usable fun y f => giveFrame y pool f) pool c } m) y

def execKvFree (mb : Mbx) (s : State) : Host.Outcome State Fault Refusal := onSys (kvFree mb) s

/-- KV.STATUS: PW_FREE of every column (R225, R387). -/
def kvStatus (m : Nat) (y : Sys) : Sys :=
  command 5 5 0 m (fun _ y =>
    finish y m 0 ((List.range 16).flatMap fun c => leBytes 4 (readWalker y (0x040 + 4 * c)))) y

def execKvStatus (mb : Mbx) (s : State) : Host.Outcome State Fault Refusal := onSys (kvStatus mb) s

end Sys2Proof.Machine
end

