-- ==== Sys2Proof/Machine/SpanCmds.lean ====
section
/-! DEFINITION. The event ring, the FAULT and SPAN command groups and the reports of the BOOT group (R48, R56, R67, R318, R322,
R340, R342 to R344, R377, R378, R383, R390, R392, R393, R409, R412). -/

namespace Sys2Proof.Machine

/- Rings (R377, R378). -/

/-- Writes the oldest queued record when the ring is set and has room and the link is up (R377, R378). -/
def flushOne (y : Sys) : Sys :=
  let h := y.dev.host
  match h.queue with
  | [] => y
  | r :: rest =>
    if !h.ringSet || linkLost y.dev || ringFull h.ringSize h.produced h.evtConsumer then y
    else
      dwrRange (y.onHost fun h => { h with queue := rest, produced := h.produced + 1 })
        (h.ringAddr + 64 + 64 * (h.produced % h.ringSize)) r.bytes .evtRecord

def execEventRingFlush (s : State) : Host.Outcome State Fault Refusal := onSys flushOne s

/-- Records of a ring whose writes have all been performed: those before the oldest outstanding one (R377). -/
def performed (produced size addr recLen : Nat) (oldest : Option HostAcc) : Nat :=
  match oldest with
  | none => produced
  | some a =>
    let at0 := a.addr + (a.mask.takeWhile (· == false)).length
    let place0 := (at0 - addr - 64) / recLen
    let back := (produced % size + size - place0) % size
    produced - (if back = 0 then size else back)

/-- A record of the event ring is performed: PRODUCER follows (R377). -/
def evtPerformed (y : Sys) : Sys :=
  let h := y.dev.host
  let n := performed h.produced h.ringSize h.ringAddr 64 (h.accs.find? fun a => a.use == .evtRecord)
  if n ≤ h.acked then y
  else dwrRange (y.onHost fun h => { h with acked := n }) h.ringAddr (ringHeader n h.ringDropped) .evtProducer

/-- A record of a status ring is performed: PRODUCER follows (R377). -/
def stsPerformed (y : Sys) (q : Nat) : Sys :=
  let r := nth y.dev.sched.rings q {}
  let n := performed r.produced r.records r.addr 32 (y.dev.host.accs.find? fun a => a.use == .stsRecord q)
  if n ≤ r.acked then y
  else
    let y := y.onSched fun s => { s with rings := upd s.rings q fun r => { r with acked := n } }
    dwrRange y r.addr (ringHeader n r.dropped) (.stsProducer q)

/-- A number of records that a ring may have (R377). -/
def ringSizeOk (n : Nat) : Bool := (List.range 15).any fun k => n == 2 ^ (6 + k)

/- FAULT (R390). -/

/-- FAULT.RING: the event ring is set and the queued records follow at once (R377, R378, R390). -/
def faultRing (m : Nat) (y : Sys) : Sys :=
  command 7 1 0xC m (fun r y =>
    let a := r.field 0 8
    let n := r.field 8 4
    if 2 ^ 52 ≤ a ∨ a % 4096 ≠ 0 ∨ ringSizeOk n = false then finish y m stPayload []
    else
      let y := y.onHost fun h => { h with
        ringSet := true, ringAddr := a, ringSize := n, produced := 0, acked := 0
        accs := h.accs.map fun x => if (x.use == .evtRecord || x.use == .evtProducer) then { x with use := .mapOut } else x }
      finish (y.each y.dev.host.queue fun y _ => flushOne y) m 0 []) y

def execFaultRing (mb : Mbx) (s : State) : Host.Outcome State Fault Refusal := onSys (faultRing mb) s

/-- FAULT.FENCE: the fence order travels to the column's site; the hold has cause HOST (R318, R390). -/
def faultFence (m : Nat) (y : Sys) : Sys :=
  command 7 2 1 m (fun r y =>
    let c := r.field 0 1
    if y.dev.map.n ≤ c then finish y m stPayload []
    else finish (y.onNoc fun n => { n with fences := n.fences ++ [⟨siteOf y.dev c, 0xA, 0⟩] }) m 0 []) y

def execFaultFence (mb : Mbx) (s : State) : Host.Outcome State Fault Refusal := onSys (faultFence mb) s

/-- FAULT.ADMIT: only after a column reset of the site (R322, R390). -/
def faultAdmit (m : Nat) (y : Sys) : Sys :=
  command 7 3 1 m (fun r y =>
    let c := r.field 0 1
    if y.dev.map.n ≤ c then finish y m stPayload []
    else if !y.dev.boot.cleanSites.contains (siteOf y.dev c) then finish y m stRefused []
    else progress (y.onNoc fun n => { n with admits := n.admits ++ [⟨[c], false, true, false⟩] }) m []) y

def execFaultAdmit (mb : Mbx) (s : State) : Host.Outcome State Fault Refusal := onSys (faultAdmit mb) s

/- SPAN (R392). -/

/-- Bytes of the incarnation table (R343, R392). -/
def tableLen : Nat := 2048

/-- The incarnation table is loaded; the device's own entry is its own incarnation (R343, R392). -/
def loadIncs (y : Sys) (t : List Byte) : Sys :=
  let entries := (List.range tableLen).filterMap fun i =>
    let v := (nth t i 0).toNat
    if v = 0 then none else some (i, v)
  y.onSpan fun s => { s with incs := entries, selfInc := (nth t s.deviceId 0).toNat }

/-- The identifier and the expected partners of SPAN.PLACE (R340, R392). -/
def applyPlace (y : Sys) (r : CmdRun) : Sys :=
  let y := spanSelfWrite (BitVec.ofNat 32 (r.field 0 2)) y
  y.each (List.range 12) fun y p => placeWrite p (BitVec.ofNat 32 (r.field (4 + 4 * p) 4)) y

/-- Reserved bits of SPAN.PLACE (R392). -/
def placeReserved (r : CmdRun) : Bool :=
  decide (2048 ≤ r.field 0 2) || r.field 2 2 != 0 || r.field 0x34 8 != 0 || r.field 0x3C 4 != 0
    || (List.range 12).any fun p => bitAt (r.field (4 + 4 * p) 4) 11 || bits (r.field (4 + 4 * p) 4) 18 14 != 0

/-- SPAN.PLACE; an incarnation table by reference is read first (R340, R343, R392). -/
def spanPlace (m : Nat) (y : Sys) : Sys :=
  command 9 1 0x48 m (fun r y =>
    let t := r.field 0x40 8
    if placeReserved r || !destOk t then finish y m stPayload []
    else if anyLive y.dev then finish y m stState []
    else if t = 0 then finish (applyPlace y r) m 0 []
    else
      let n := (hostPieces (tableLen / 128 + 2) 0 t tableLen).length
      drdRange (onOpen y m fun r => { r with pendingRefs := n }) t tableLen fun p => .memRead m p) y

def execSpanPlace (mb : Mbx) (s : State) : Host.Outcome State Fault Refusal := onSys (spanPlace mb) s

/-- The beat unit takes a role; a device that begins to follow takes the primary port `up` of the active set as its upstream (R48, R53,
R54, R392). -/
def takeRole (role : Role) (id up : Nat) (b : Beat) : Beat :=
  let followed := follows b
  let b := if followed || !(role == .member || role == .standby) then b
    else { b with upstream := up, lastMarker := some b.wbc, aligned := false, matched := 0 }
  match role with
  | .lone => { b with role := .lone, hop := 0, holdover := false, takeover := false, upstream := 15 }
  | .master =>
    { b with role := .master, term := if b.term = 0 then 1 else b.term, masterId := id, hop := 0, holdover := false, takeover := false
             upstream := 15 }
  | .member => { b with role := .member, takeover := false }
  | .standby => { b with role := .standby }

/-- SPAN.ROLE (R48, R392). -/
def spanRole (m : Nat) (y : Sys) : Sys :=
  command 9 2 1 m (fun r y =>
    let role := nth [some Role.lone, some .member, some .master, some .standby] (r.field 0 1) none
    match role with
    | none => finish y m stPayload []
    | some x => if anyLive y.dev then finish y m stState [] else finish (y.onBeat (takeRole x y.dev.span.deviceId (beatPort y 0))) m 0 []) y

def execSpanRole (mb : Mbx) (s : State) : Host.Outcome State Fault Refusal := onSys (spanRole mb) s

/-- SPAN.BEAT_LOAD (R56, R392). -/
def spanBeatLoad (m : Nat) (y : Sys) : Sys :=
  command 9 3 8 m (fun r y =>
    let w := r.field 0 8
    if 2 ^ 56 ≤ w then finish y m stPayload []
    else if anyLive y.dev then finish y m stState []
    else if !loadAllowed y.dev then finish y m stRefused []
    else finish (y.onBeat fun b => { b with loadPending := some w, loadAt := b.wbc }) m 0 []) y

def execSpanBeatLoad (mb : Mbx) (s : State) : Host.Outcome State Fault Refusal := onSys (spanBeatLoad mb) s

/-- The ADMIT record that the master sends: its effect at the earliest multiple of 64 at or after WBC + P + 64 (R344). -/
def admitNow (y : Sys) (kind target inc : Nat) : AdmitRec :=
  { kind := kind, target := target, newInc := inc, term := y.dev.beat.term, admSeq := y.dev.beat.admSeq % 65536
    effectWbc := holdPointFor y, issueWbc := y.dev.beat.wbc }

/-- The master sends an ADMIT record (R344). -/
def sendAdmit (y : Sys) (kind target inc : Nat) : Sys :=
  takeAdmit (y.onBeat fun b => { b with admSeq := b.admSeq + 1 }) none (admitNow y kind target inc)

/-- SPAN.ADMIT (R344, R392). -/
def spanAdmit (m : Nat) (y : Sys) : Sys :=
  command 9 4 3 m (fun r y =>
    if y.dev.beat.role ≠ .master then finish y m stNotMaster []
    else if 2048 ≤ r.field 0 2 ∨ r.field 2 1 = 0 then finish y m stPayload []
    else finish (sendAdmit y 1 (r.field 0 2) (r.field 2 1)) m 0 []) y

def execSpanAdmit (mb : Mbx) (s : State) : Host.Outcome State Fault Refusal := onSys (spanAdmit mb) s

/-- SPAN.DISMISS (R344, R392). -/
def spanDismiss (m : Nat) (y : Sys) : Sys :=
  command 9 5 2 m (fun r y =>
    if y.dev.beat.role ≠ .master then finish y m stNotMaster []
    else if 2048 ≤ r.field 0 2 then finish y m stPayload []
    else finish (sendAdmit y 2 (r.field 0 2) 0) m 0 []) y

def execSpanDismiss (mb : Mbx) (s : State) : Host.Outcome State Fault Refusal := onSys (spanDismiss mb) s

/-- SPAN.HOLD: a request with cause HOST (R58, R392). -/
def spanHold (m : Nat) (y : Sys) : Sys :=
  command 9 6 2 m (fun r y => finish (requestHold y 0xA (r.field 0 2)) m 0 []) y

def execSpanHold (mb : Mbx) (s : State) : Host.Outcome State Fault Refusal := onSys (spanHold mb) s

/-- SPAN.RELEASE: the master releases the open hold of a ledger entry at the earliest hold point at or after WBC + P + 64 (R61, R67,
R392). -/
def spanRelease (m : Nat) (y : Sys) : Sys :=
  command 9 7 4 m (fun r y =>
    let i := r.field 0 4
    let d := y.dev
    if d.beat.role ≠ .master then finish y m stNotMaster []
    else if !(d.beat.points.any fun p => p.closed && p.len == 0 && p.release.isNone && p.index == some i) then finish y m stRefused []
    else
      let w := holdPointFor y
      let h : HoldRec := ⟨0xA, i % 65536, d.span.deviceId, d.span.selfInc, d.beat.term, w, 0, i, d.beat.wbc⟩
      let y := floodRec (remember y 4 h.reqId h.reqInc h.reqSeq) none ⟨1, holdBytes 4 h⟩
      finish (applyRelease y i w) m 0 []) y

def execSpanRelease (mb : Mbx) (s : State) : Host.Outcome State Fault Refusal := onSys (spanRelease mb) s

/-- The 48 bytes of a ledger entry (R393). -/
def ledgerBytes (e : LedgerEntry) : List Byte :=
  leBytes 4 e.index ++ leBytes 1 e.term ++ leBytes 1 e.leadCause ++ leBytes 2 e.reqCount ++ leBytes 8 e.holdWbc ++ leBytes 8 e.sbcAtHold
    ++ leBytes 2 e.holdLen ++ leBytes 2 e.leadId ++ leBytes 1 e.leadInc ++ List.replicate 3 0 ++ leBytes 8 e.releaseWbc
    ++ List.replicate 8 0

/-- SPAN.LEDGER: the entries that the ring still holds, from an index on (R65, R393). -/
def spanLedger (m : Nat) (y : Sys) : Sys :=
  command 9 8 0x10 m (fun r y =>
    let i := r.field 0 4
    let n := r.field 4 4
    if y.dev.beat.role ≠ .master then finish y m stNotMaster []
    else if !destOk (r.field 8 8) then finish y m stPayload []
    else
      let es := y.dev.beat.ledger.filter fun e => decide (i ≤ e.index) && decide (e.index < i + n)
      finishDest y m (r.field 8 8) (es.flatMap ledgerBytes) 0 (leBytes 4 es.length)) y

def execSpanLedger (mb : Mbx) (s : State) : Host.Outcome State Fault Refusal := onSys (spanLedger mb) s

/-- SPAN.ROUTES: the value of SPAN_BOOT_MCAST (R342, R392). -/
def spanRoutes (m : Nat) (y : Sys) : Sys :=
  command 9 9 4 m (fun r y =>
    let v := r.field 0 4
    if bits v 5 11 ≠ 0 ∨ bits v 28 3 ≠ 0 then finish y m stPayload [] else finish (bootMcastWrite v y) m 0 []) y

def execSpanRoutes (mb : Mbx) (s : State) : Host.Outcome State Fault Refusal := onSys (spanRoutes mb) s

/- Data that MEM.COPY and SPAN.PLACE read from host memory (R367, R386, R392). -/

/-- A piece arrives, or cannot be read; with the last one the command goes on (R367, R376). -/
def memArrived (y : Sys) (m pos : Nat) (data : Option (List Byte)) : Sys :=
  let y := y.onHost fun h => { h with refData := h.refData ++ [(m, pos, data.getD [])] }
  let y := onOpen y m fun r => { r with pendingRefs := r.pendingRefs - 1, refErr := r.refErr || data.isNone }
  match openCmd y.dev m with
  | none => y
  | some r =>
    if 0 < r.pendingRefs then y
    else
      let mine := y.dev.host.refData.filter fun p => p.1 == m
      let whole := mine.foldl (fun l p => splice l p.2.1 p.2.2) []
      let y := y.onHost fun h => { h with refData := h.refData.filter fun p => p.1 != m }
      if r.refErr then finish y m stRef []
      else if r.group = 4 then memCopyStore y m r whole
      else finish (loadIncs (applyPlace y r) whole) m 0 []

/- Reports of the BOOT group (R383). -/

/-- BOOT.INFO (R383). -/
def bootInfo (m : Nat) (y : Sys) : Sys :=
  command 1 1 0 m (fun _ y =>
    let d := y.dev
    let running := maskOf ((List.range 4).filter fun q => partState d q == .running)
    finish y m 0 (leBytes 1 d.boot.power.code ++ leBytes 1 d.map.n ++ leBytes 1 running ++ leBytes 1 0
      ++ leBytes 4 d.fw.imageVersion ++ leBytes 8 d.beat.wbc)) y

def execBootInfo (mb : Mbx) (s : State) : Host.Outcome State Fault Refusal := onSys (bootInfo mb) s

/-- BOOT.RESOURCE_MAP (R383, R412). -/
def bootResourceMap (m : Nat) (y : Sys) : Sys :=
  command 1 2 0xC m (fun r y =>
    if !destOk (r.field 0 8) then finish y m stPayload []
    else finishDest y m (r.field 0 8) ((resourceMap y).take (r.field 8 4)) 0 []) y

def execBootResourceMap (mb : Mbx) (s : State) : Host.Outcome State Fault Refusal := onSys (bootResourceMap mb) s

/-- BOOT.DEFECTS: a list for the next start (R383, R409). -/
def bootDefects (m : Nat) (y : Sys) : Sys :=
  command 1 3 16 m (fun r y =>
    match parseDefects r.payload 4096 with
    | none => finish y m stPayload []
    | some l => finish (y.onBoot fun b => { b with storedDefects := some l }) m 0 []) y

def execBootDefects (mb : Mbx) (s : State) : Host.Outcome State Fault Refusal := onSys (bootDefects mb) s

end Sys2Proof.Machine
end

