-- ==== Sys2Proof/Machine/HostLink.lean ====
section
/-! DEFINITION. The host link: flits and retry, halves that go down, the messages of the host (R350 to R371, R377, R394). -/

namespace Sys2Proof.Machine

/- Halves (R351, R356, R368). -/

/-- Bits of the halves that are up (R358). -/
def halvesUp (d : Dev) : Nat := maskOf ((List.range 2).filter fun h => (nth d.host.halves h {}).state == 2)

/-- The step whose host access cannot be performed ends with a bus error; its record is of class STEP (R280, R367). -/
def hostStepError (y : Sys) (col i : Nat) : Sys :=
  let site := siteOf y.dev col
  match liveStep (y.core site) i with
  | none => y
  | some s => busError (faultRec y (stepFault y site s { cls := 0x0C, outcome := 3, flags := 5 })) site i 0

/-- The write that a ring needs is made again (R377, R378). -/
def repeatAcc (y : Sys) (a : HostAcc) : Sys := hostAccess1 y true a.addr a.len a.data a.mask a.use

/-- A DRD or DWR is not performed (R367, R368). -/
def accFailed (y : Sys) (a : HostAcc) : Sys :=
  match a.use with
  | .stepRead c i _ => hostStepError y c i
  | .stepWrite c i => hostStepError y c i
  | .cmdRef m pos => refArrived y m pos none
  | .memRead m pos => memArrived y m pos none
  | .cmdDest m => destAnswered y m false
  | .fwManifest pos => fwArrived y pos none
  | .fwImage pos => fwArrived y (8192 + pos) none
  | .defects pos => defectsArrived y pos none
  | .mapOut => y
  | .evtRecord => repeatAcc y a
  | .evtProducer => repeatAcc y a
  | .stsRecord _ => repeatAcc y a
  | .stsProducer _ => repeatAcc y a

/-- Takes an outstanding access by its tag. -/
def takeAcc (y : Sys) (tag : Nat) : Option HostAcc × Sys :=
  match y.dev.host.accs.find? fun a => a.sent && a.tag == tag with
  | none => (none, y)
  | some a => (some a, y.onHost fun h => { h with accs := h.accs.filter fun x => !(x.sent && x.tag == tag) })

/-- A snoop ends without an answer: the line is dropped and marked stale (R363). -/
def dropLine (y : Sys) (line : Nat) : Sys :=
  if !(y.dev.host.txns.any fun t => t.line == line && t.snooping) then y
  else
    let y := y.onHost fun h => { h with
      filter := assocDel h.filter line, stale := addTo h.stale line, snoopTimeouts := sat32 (h.snoopTimeouts + 1) }
    homeComplete (event y 0x0703 (leBytes 8 (line * 128))) line

/-- SNOOP_TIMEOUT: no answer for 31,250 beats; a load of the WBC meanwhile hides none of them (R363; DEDUCED, log 69). -/
def snoopTimeout (line : Nat) (y : Sys) : Sys :=
  let w := y.dev.beat.wbc
  if y.dev.host.txns.any fun t => t.line == line && t.snooping && (decide (t.since + 31250 ≤ w) || decide (w < t.since)) then dropLine y line
  else y

def execSnoopTimeout (line : Nat) (s : State) : Host.Outcome State Fault Refusal := onSys (snoopTimeout line) s

/-- The link is lost: outstanding accesses fail, outstanding snoops end as if timed out (R368). -/
def linkLoss (y : Sys) : Sys :=
  let out := y.dev.host.accs.filter HostAcc.sent
  let y := y.onHost fun h => { h with
    accs := h.accs.filter fun a => !a.sent
    halves := h.halves.map fun x => { x with txQ := [], unacked := [], txNow := [] } }
  let y := y.each out accFailed
  y.each ((y.dev.host.txns.filter Txn.snooping).map Txn.line) dropLine

/-- A half goes down: electrical idle, HALF_STATE and its unacknowledged messages on the other half, the event (R356). -/
def halfDown (y : Sys) (h : Nat) : Sys :=
  let x := y.half h
  if x.state ≠ 2 then y
  else
    let moved := (x.unacked.flatMap SentFlit.msgs) ++ x.txQ
    let y := y.onHalf h fun x => { x with state := 0, idleElectric := true, unacked := [], txNow := [], txQ := [], resend := none }
    let up := halvesUp y.dev
    let y := y.onHalf (1 - h) fun z => { z with txQ := ({ op := 0x40, addr := up } : HostMsg) :: moved ++ z.txQ }
    let y := event y 0x0702 (leBytes 1 up)
    if linkLost y.dev then linkLoss y else y

/-- HALF_TRAINED: the half is up (R351, R356). -/
def halfTrained (h : Nat) (y : Sys) : Sys :=
  let x := y.half h
  if x.state = 2 ∨ y.dev.boot.power = .off ∨ halfUsable y.dev h = false then y
  else
    let y := y.onHalf h fun x => { state := 2, txQ := x.txQ, retries := x.retries, crcErr := x.crcErr }
    event y 0x0702 (leBytes 1 (halvesUp y.dev))

def execHalfTrained (h : Half) (s : State) : Host.Outcome State Fault Refusal := onSys (halfTrained h) s

/-- HALF_NO_PROGRESS: 3,125 beats without progress (R356). -/
def execHalfNoProgress (h : Half) (s : State) : Host.Outcome State Fault Refusal := onSys (fun y => halfDown y h) s

/-- HALF_LANE_FAILURE: no half runs on three lanes (R356). -/
def execHalfLaneFailure (h : Half) (_lane : Fin 4) (s : State) : Host.Outcome State Fault Refusal := onSys (fun y => halfDown y h) s

/-- HALF_STATE: a half that the host reports as not up is down at this end too (R351, R358). -/
def execHalfState (bits : BitVec 2) (s : State) : Host.Outcome State Fault Refusal :=
  onSys (fun y => y.each (List.range 2) fun y h => if bitAt bits.toNat h then y else halfDown y h) s

/- Flits (R353 to R355, R359). -/

/-- Bytes 0x00 to 0xFB of a host flit, its reserved fields as they were sent (R7, R353). -/
def hostFlitBytes (f : HostFlit) : List Byte :=
  let r := padTo 20 f.reserved
  leBytes 2 (f.seq % 4096 + f.kind * 4096)
    ++ leBytes 2 (f.ackSeq % 4096 + 4096 * b2n f.ackValid + 8192 * b2n f.retryReq + 16384 * ((nth r 0 0).toNat % 4))
    ++ ((List.range 5).flatMap fun k => leBytes 1 (nth f.credit k 0)) ++ (r.drop 1).take 7 ++ padTo 224 f.units ++ r.drop 8

/-- Flits up to an acknowledged one leave the replay buffer (R355). -/
def dropAcked (ack : Nat) (l : List SentFlit) : List SentFlit :=
  if l.any fun e => e.seq == ack then (l.dropWhile fun e => e.seq != ack).drop 1 else l

/-- Acknowledgement, credits and retry request of a flit (R353, R355). -/
def takeAck (y : Sys) (h : Nat) (f : HostFlit) : Sys :=
  let w := y.dev.beat.wbc
  let y := y.onHalf h fun x => { x with
    unacked := if f.ackValid then dropAcked f.ackSeq x.unacked else x.unacked
    credits := (List.zip (List.range 5) x.credits).map fun c => c.2 + nth f.credit c.1 0 }
  if !f.retryReq then y
  else
    let y := y.onHalf h fun x => { x with
      resend := some ((f.ackSeq + 1) % 4096)
      retryAsked := (f.ackSeq, w) :: x.retryAsked.filter fun r => decide (w ≤ r.2 + 1024) }
    if 16 ≤ ((y.half h).retryAsked.filter fun r => r.1 == f.ackSeq).length then halfDown y h else y

/-- Opcodes that the host sends (R358). -/
def hostOpcodes : List Nat := [1, 2, 3, 4, 5, 6, 0x18, 0x38, 0x39, 0x3A, 0x40]

/-- Units of the message that a header unit begins (R357). -/
def unitsOfHeader (d : Dev) (b : List Byte) : Nat :=
  let fl := fld b 1 1
  let tag := bits (fld b 2 2) 0 11
  let dataUnits := if fld b 0 1 = 0x38 then
      ceilDiv (((d.host.accs.find? fun a => a.sent && a.tag == tag).map HostAcc.len).getD 128) 16
    else 8
  1 + b2n (bitAt fl 3) + (if bitAt fl 2 then dataUnits else 0)

/-- The class of a message of the host (R358). -/
def hostClass (b : List Byte) : Nat :=
  let op := fld b 0 1
  if bitAt (fld b 1 1) 2 then 3 else if op = 0x40 then 4 else if [0x18, 0x39, 0x3A].contains op then 2 else 0

/-- Takes whole messages off the unit stream of a half: their buffers are freed, an unknown opcode is reported with an event whose
code the manual leaves open (R354, R358, R359). -/
def takeUnits (h : Nat) : Nat → Sys → Sys
  | 0, y => y
  | fuel + 1, y =>
    let u := (y.half h).rxUnits
    if u.length < 16 then y
    else if fld u 0 1 = 0 then takeUnits h fuel (y.onHalf h fun x => { x with rxUnits := u.drop 16 })
    else
      let n := unitsOfHeader y.dev u
      if u.length < 16 * n then y
      else
        let y := y.onHalf h fun x => { x with rxUnits := u.drop (16 * n), freed := upd x.freed (hostClass u) (· + n) }
        let y := if hostOpcodes.contains (fld u 0 1) then y
          else
            let r := y.takeFree
            event r.2 (r.1 % 65536) []
        takeUnits h fuel y

/-- HOST_FLIT: discarded, or its acknowledgement and credits are taken and a MSG flit is accepted in order (R353 to R355). -/
def hostFlit (h : Nat) (f : HostFlit) (y : Sys) : Sys :=
  let x := y.half h
  let discard := fun (y : Sys) => y.onHalf h fun x => { x with crcErr := sat32 (x.crcErr + 1), retryPending := true }
  if x.state ≠ 2 then y
  else if f.uncorr || decide (2 ≤ f.kind) || crc32c (hostFlitBytes f) != f.crc then discard y
  else
    let y := takeAck y h f
    let want := if x.rxGot then (x.rxSeq + 1) % 4096 else 0
    if f.kind = 0 then y
    else if f.seq = want then
      let y := y.onHalf h fun x => { x with rxSeq := f.seq, rxGot := true, retryPending := false, rxUnits := x.rxUnits ++ padTo 224 f.units }
      takeUnits h ((y.half h).rxUnits.length / 16) y
    else if (f.seq + 4096 - want) % 4096 < 2048 then discard y
    else y.onHalf h fun x => { x with crcErr := sat32 (x.crcErr + 1) }

def execHostFlit (h : Half) (f : HostFlit) (s : State) : Host.Outcome State Fault Refusal := onSys (hostFlit h f) s

/-- HOST_FLIT_RESEND: the flits from ACK_SEQ + 1 on are sent again with their sequence numbers (R355). -/
def hostFlitResend (h : Nat) (y : Sys) : Sys :=
  y.onHalf h fun x =>
    match x.resend with
    | none => x
    | some s =>
      let again := x.unacked.dropWhile fun e => e.seq != s
      { x with resend := none, retries := sat32 (x.retries + again.length), txNow := again.take 25 }

def execHostFlitResend (h : Half) (s : State) : Host.Outcome State Fault Refusal := onSys (hostFlitResend h) s

/-- A half takes no message of the host: it is not up, or a device reset absorbs what follows its RESET_NOTICE (R415, R419). -/
def halfShut (y : Sys) (h : Nat) : Bool := (y.half h).state != 2 || (y.dev.boot.rstBusy && y.dev.boot.rstLevel == 5)

/- Requests of the host (R358, R360, R361, R364 to R366, R371). -/

/-- An access refused under R242 (R365). -/
def refuseHost (y : Sys) (tag a cause : Nat) (write : Bool) : Sys := sendErr (recordAccess y a cause 0 write) tag a 1 cause

/-- The mailbox that a host request names belongs to the device (R371). -/
def mailboxLocked (y : Sys) (a : Nat) : Bool :=
  match place y.dev.map.n a with
  | .mailbox o => decide (o < 4096) && mbxOwner y (o / 256) == 1
  | _ => false

/-- The fabric is being reset and the address lies behind it (R366). -/
def behindReset (y : Sys) (a : Nat) : Bool :=
  y.dev.noc.fabricReset && (match place y.dev.map.n a with
    | .dram _ _ => true
    | .spare _ _ => true
    | .buf _ _ => true
    | _ => false)

/-- A request goes to the home agent unless a rule refuses it. -/
def hostRequest (y : Sys) (h tag a len : Nat) (write cacheable locks : Bool) (r : HomeReq) : Sys :=
  if halfShut y h then y
  else match accessCause y a len write cacheable with
    | some c => refuseHost y tag a c write
    | none =>
      if locks && mailboxLocked y a then sendErr y tag a 1 5
      else if behindReset y a then sendErr y tag a 4 0
      else homeArrive y (lineOf y.dev a) r

/-- The 128-byte line of an address. -/
def lineAddr (a : Nat) : Nat := a / 128 * 128

/-- RD_SHARED (R360, R371). -/
def rdShared (h tag a : Nat) (y : Sys) : Sys := hostRequest y h tag (lineAddr a) 128 false true false (.shared h tag (lineAddr a))

def execRdShared (h : Half) (tag : Nat) (addr : Nat) (s : State) : Host.Outcome State Fault Refusal := onSys (rdShared h tag addr) s

/-- RD_OWN (R360, R371). -/
def rdOwn (h tag a : Nat) (y : Sys) : Sys := hostRequest y h tag (lineAddr a) 128 false true true (.own h tag (lineAddr a))

def execRdOwn (h : Half) (tag : Nat) (addr : Nat) (s : State) : Host.Outcome State Fault Refusal := onSys (rdOwn h tag addr) s

/-- The CSR offset of an address in CSR space (R227). -/
def csrOffset (y : Sys) (a : Nat) : Option Nat :=
  match place y.dev.map.n a with
  | .csr o => some o
  | _ => none

/-- RD_UC: memory through the home agent, CSR space over the direct path (R366). -/
def rdUc (h tag a len : Nat) (y : Sys) : Sys :=
  if halfShut y h then y
  else match csrOffset y a with
    | some o =>
      if len ≠ 4 ∨ o % 4 ≠ 0 then refuseHost y tag a 1 false
      else
        let r := csrRead y o
        sendHost r.2 { op := 0x21, tag := tag, len := 4, addr := a, data := leBytes 4 r.1 }
    | none =>
      if len = 0 ∨ len % 4 ≠ 0 ∨ 128 < a % 128 + len then refuseHost y tag a 1 false
      else hostRequest y h tag a len false false false (.readUc h tag a len)

def execRdUc (h : Half) (tag : Nat) (addr : Nat) (len : Nat) (s : State) : Host.Outcome State Fault Refusal := onSys (rdUc h tag addr len) s

/-- The offset of the one register whose four bytes a mask names (R366). -/
def maskRegister (mask : List Bool) : Option Nat :=
  (List.range 32).map (4 * ·) |>.find? fun o => (List.range 128).all fun i => nth mask i false == (decide (o ≤ i) && decide (i < o + 4))

/-- WR_UC: memory through the home agent, CSR space over the direct path (R366, R371). -/
def wrUc (h tag a : Nat) (data : List Byte) (mask : List Bool) (y : Sys) : Sys :=
  if halfShut y h then y
  else
    let line := lineAddr a
    match csrOffset y line with
    | some o => (match maskRegister mask with
      | none => refuseHost y tag line 1 true
      | some k => sendAck (csrWrite (o + k) (fld data k 4) y) tag line)
    | none => hostRequest y h tag line 128 true false true (.writeUc h tag line (padTo 128 data) mask)

def execWrUc (h : Half) (tag : Nat) (addr : Nat) (data : List Byte) (mask : List Bool) (s : State) :
    Host.Outcome State Fault Refusal := onSys (wrUc h tag addr data mask) s

/-- The host's copy of a line may be written back: it is recorded in E and not stale (R364). -/
def ownsLine (h : HostLink) (line : Nat) : Bool := assoc h.filter line == some true && !h.stale.contains line

/-- A writeback that may not be written (R364). -/
def staleData (y : Sys) (tag a : Nat) : Sys := event (sendErr y tag a 3 0) 0x0704 (leBytes 8 a)

/-- Performs a writeback and gives up the copy (R358, R361). -/
def writeBack (y : Sys) (tag a : Nat) (data : List Byte) : Sys :=
  let line := lineOf y.dev a
  let y := y.onHost fun h => { h with filter := assocDel h.filter line }
  let w := hostWrite y a data (fullMask data)
  if w.1 then sendErr w.2 tag a 2 0 else sendAck w.2 tag a

/-- Modified data that its granule no longer takes is refused, and the copy is given up (R79, R197, R242). -/
def refuseDirty (y : Sys) (tag a cause : Nat) : Sys :=
  refuseHost (y.onHost fun h => { h with filter := assocDel h.filter (lineOf y.dev a) }) tag a cause true

/-- WB_DIRTY: taken at once, unless its granule is locked; during a fabric reset it is held (R79, R242, R361, R364, R366). -/
def wbDirty (h tag a : Nat) (data : List Byte) (y : Sys) : Sys :=
  let a := lineAddr a
  if halfShut y h then y
  else if !ownsLine y.dev.host (lineOf y.dev a) then staleData y tag a
  else match accessCause y a 128 true true with
  | some c => refuseDirty y tag a c
  | none =>
  if behindReset y a then y.onHost fun x => { x with heldWb := x.heldWb ++ [(h, tag, a, padTo 128 data)] }
  else writeBack y tag a (padTo 128 data)

def execWbDirty (h : Half) (tag : Nat) (addr : Nat) (data : List Byte) (s : State) : Host.Outcome State Fault Refusal :=
  onSys (wbDirty h tag addr data) s

/-- EVICT_CLEAN: the copy is given up (R358, R361). -/
def evictClean (h tag a : Nat) (y : Sys) : Sys :=
  if halfShut y h then y
  else
    let a := lineAddr a
    sendAck (y.onHost fun x => { x with filter := assocDel x.filter (lineOf y.dev a) }) tag a

def execEvictClean (h : Half) (tag : Nat) (addr : Nat) (s : State) : Host.Outcome State Fault Refusal := onSys (evictClean h tag addr) s

/-- Modified data that a snoop returns: written, unless the line is stale or its granule is locked (R79, R242, R362, R364). -/
def snoopData (y : Sys) (tag a : Nat) (b : List Byte) : Sys :=
  if !ownsLine y.dev.host (lineOf y.dev a) then staleData y tag a
  else match accessCause y a 128 true true with
    | some c => recordAccess y a c 0 true
    | none => (hostWrite y a (padTo 128 b) (fullMask (padTo 128 b))).2

/-- SNP_RSP: returned data is written first, the filter takes the host's state, and the waiting transaction is performed (R361 to
R364). -/
def snpRsp (h tag a st : Nat) (data : Option (List Byte)) (y : Sys) : Sys :=
  if halfShut y h then y
  else
    let a := lineAddr a
    let line := lineOf y.dev a
    let y := match data with
      | none => y
      | some b => snoopData y tag a b
    if !(y.dev.host.txns.any fun t => t.line == line && t.snooping) then y
    else
      let y := y.onHost fun x => { x with
        filter := if st = 0 then assocDel x.filter line else if (assoc x.filter line).isSome then assocSet x.filter line (decide (2 ≤ st)) else x.filter }
      homeComplete y line

def execSnpRsp (h : Half) (tag : Nat) (addr : Nat) (state : Nat) (data : Option (List Byte)) (s : State) :
    Host.Outcome State Fault Refusal := onSys (snpRsp h tag addr state data) s

/-- HOME_TRANSACTION_RESUME: the next transaction of a line begins (R361). -/
def execHomeTransactionResume (line : Nat) (s : State) : Host.Outcome State Fault Refusal := onSys (fun y => homeResume y line) s

/- Answers of the host (R367). -/

/-- HDATA: the data of a DRD (R367). -/
def hostData (tag : Nat) (data : List Byte) (y : Sys) : Sys :=
  let r := takeAcc y tag
  match r.1 with
  | none => y
  | some a =>
    let y := r.2
    let b := padTo a.len data
    if a.write then y
    else match a.use with
      | .stepRead c i pos =>
        (match liveCtx y (siteOf y.dev c) i 0 with
          | some x => movePieceArrives y x pos b
          | none => y)
      | .cmdRef m pos => refArrived y m pos (some b)
      | .memRead m pos => memArrived y m pos (some b)
      | .fwManifest pos => fwArrived y pos (some b)
      | .fwImage pos => fwArrived y (8192 + pos) (some b)
      | .defects pos => defectsArrived y pos (some b)
      | _ => y

def execHdata (tag : Nat) (data : List Byte) (s : State) : Host.Outcome State Fault Refusal := onSys (hostData tag data) s

/-- HACK: a DWR has been performed (R367, R377). -/
def hostAck (tag : Nat) (y : Sys) : Sys :=
  let r := takeAcc y tag
  match r.1 with
  | none => y
  | some a =>
    match a.use with
    | .cmdDest m => destAnswered r.2 m true
    | .evtRecord => evtPerformed r.2
    | .stsRecord q => stsPerformed r.2 q
    | _ => r.2

def execHack (tag : Nat) (s : State) : Host.Outcome State Fault Refusal := onSys (hostAck tag) s

/-- HERR: a DRD or DWR has not been performed (R367). -/
def hostErr (tag : Nat) (y : Sys) : Sys :=
  let r := takeAcc y tag
  match r.1 with
  | none => y
  | some a => accFailed r.2 a

def execHerr (tag : Nat) (_status : Nat) (s : State) : Host.Outcome State Fault Refusal := onSys (hostErr tag) s

end Sys2Proof.Machine
end

