-- ==== Sys2Proof/Machine/Waves.lean ====
section
/-! DEFINITION. The core waves: ramps, tests and repair, and the final column map (R109, R229, R406, R410 to R414, R438, R462). -/

namespace Sys2Proof.Machine

/-- BOOT.CORES: only in LINKS_QUALIFIED; cycles of the waves count from the next beat boundary (R383, R414). -/
def bootCores (m : Nat) (y : Sys) : Sys :=
  command 1 4 0 m (fun _ y =>
    if y.dev.boot.power ≠ .linksQualified then finish y m stState []
    else
      let y := y.onBoot fun b => { b with wavesBusy := true, wave := 0, wavesAt := y.dev.beat.wbc + 1, ramped := false }
      progress y m []) y

def execBootCores (mb : Mbx) (s : State) : Host.Outcome State Fault Refusal := onSys (bootCores mb) s

/-- The sites of a wave: four logical columns, or the spares in wave 4 (R410, R411, R414). -/
def waveSites (d : Dev) (k : Nat) : List Nat :=
  if k < 4 then ((List.range 4).map (4 * k + ·) |>.filter fun c => decide (c < d.map.n) && !d.boot.colFailed.contains c).map (siteOf d)
  else if d.boot.warmStart then (List.range 18).filter fun s => (colAt d s).isNone && canCarry d s
  else d.boot.provSpares

/-- CORE_WAVE_RAMP: wave k ramps the rails of its sites from cycle 1,500,000 k; its cores wait fenced (R414, R462, R472). -/
def waveRamp (y : Sys) : Sys :=
  let b := y.dev.boot
  if !b.wavesBusy || b.ramped || decide (4 < b.wave) || decide ((y.dev.beat.wbc + 1) * 64 ≤ b.wavesAt * 64 + 1500000 * b.wave) then y
  else
    let y := y.each (waveSites y.dev b.wave) fun y s =>
      let y := fenceCore y s
      if y.dev.power.clocksStopped then y else railOn y s
    y.onBoot fun b => { b with ramped := true }

def execCoreWaveRamp (s : State) : Host.Outcome State Fault Refusal := onSys waveRamp s

/-- A core that fails its wave test loses its rails; its column waits for a spare at a cold start and is failed at a warm one (R410,
R411, R414). -/
def waveFailed (y : Sys) (site : Nat) : Sys :=
  let y := (railsOff y site).onBoot fun b => { b with coreOk := takeOut b.coreOk site }
  match colAt y.dev site with
  | none => y
  | some c => if y.dev.boot.warmStart then columnFailed y c else y.onBoot fun b => { b with unassigned := addTo b.unassigned c }

/-- A core that passes is repaired and receives the column part of the firmware (R109, R414, R438). -/
def wavePassed (y : Sys) (site : Nat) : Sys :=
  let y := y.onCore site (repairCore (arrayBad y.dev.boot.badUnits site))
  let y := startDelivery y site
  y.onBoot fun b => { b with
    cleanSites := addTo b.cleanSites site, passedSpares := if b.wave == 4 then addTo b.passedSpares site else b.passedSpares }

/-- The sites of the final map in column order: unassigned columns take the lowest spares that passed, and without one the columns
above move down (R410). -/
def finalSites (d : Dev) : List Nat :=
  ((List.range d.map.n).foldl (fun (r : List Nat × List Nat) c =>
    if !d.boot.unassigned.contains c then (r.1 ++ [siteOf d c], r.2)
    else match r.2 with
      | [] => r
      | s :: rest => (r.1 ++ [s], rest)) ([], (List.range 18).filter d.boot.passedSpares.contains)).1

/-- Columns that the waves admit: their cores are powered, passed and loaded (R411, R414, R439). -/
def waveColumns (d : Dev) : List Nat :=
  (List.range d.map.n).filter fun c =>
    let s := siteOf d c
    d.boot.powered.contains s && !d.boot.colFailed.contains c && !d.fw.loadFailed.contains s

/-- A site without a column waits for no admission: its core is not fenced, except for a load failure (R318, R414; DEDUCED, log 23). -/
def dropIdleFences (y : Sys) : Sys :=
  y.onNoc fun n => { n with fenced := n.fenced.filter fun s => (colAt y.dev s).isSome || (assoc n.fenceWhy s).isSome }

/-- The end of wave 4: the final map, rails of unused spares off, and the admission of the columns (R410 to R412, R414). -/
def wavesEnd (y : Sys) : Sys :=
  let y := if y.dev.boot.warmStart then markCores y else assignCols y (finalSites y.dev)
  let unused := (List.range 18).filter fun s => y.dev.boot.powered.contains s && (colAt y.dev s).isNone
  let y := y.each unused railsOff
  let y := y.onBoot fun b => { b with wave := 7, mapFinal := true, unassigned := [] }
  let y := dropIdleFences (writeMap (y.onBoot fun b => { b with mapDigest := sha256 (resourceMap y) }))
  y.onNoc fun n => { n with admits := n.admits ++ [⟨waveColumns y.dev, false, false, true⟩] }

/-- CORE_WAVE_TEST_DONE: findings enter the map, every core of the wave has failed or passed, and the next wave follows (R108, R109,
R406, R408, R410, R411, R414). -/
def waveTestDone (failed : List Nat) (found : List BadUnit) (y : Sys) : Sys :=
  let k := y.dev.boot.wave
  if !y.dev.boot.wavesBusy || !y.dev.boot.ramped || decide (4 < k) then y
  else
    let sites := waveSites y.dev k
    let y := addFindings y found
    let y := y.each sites fun y s =>
      if failed.contains s || !y.dev.boot.powered.contains s || !coreUsable y.dev s then waveFailed y s else wavePassed y s
    if k < 4 then y.onBoot fun b => { b with wave := k + 1, ramped := false } else wavesEnd y

def execCoreWaveTestDone (failed : List Site) (found : List BadUnit) (s : State) : Host.Outcome State Fault Refusal :=
  onSys (waveTestDone (failed.map (·.val)) found) s

end Sys2Proof.Machine
end

