-- ==== Sys2Proof/Machine/Resets.lean ====
section
/-! DEFINITION. The resets that BOOT.RESET orders, and the end of a disable (R110, R122, R189, R285, R296, R366, R383, R415 to R422,
R438, R472). -/

namespace Sys2Proof.Machine

/- What every level shares. -/

/-- The core of a reset site: its register block, latencies and FP_FLAGS stay (R110, R122, R189, R415). -/
def resetCore (c : Core) : Core :=
  { logical := c.logical, mapped := c.mapped, bad := c.bad, fillLat := c.fillLat, drainLat := c.drainLat, spareStage := c.spareStage
    sparesUsed := c.sparesUsed, repairDone := c.repairDone, badRow0 := c.badRow0, badRow1 := c.badRow1, spare64 := c.spare64
    spare65 := c.spare65, chkRowBad := c.chkRowBad, chkColBad := c.chkColBad, dpuBad := c.dpuBad, skew := c.skew, reed := c.reed
    checkCount := c.checkCount, checkFail := c.checkFail, checkSkipped := c.checkSkipped, feedStall := c.feedStall
    drainStall := c.drainStall, flags := c.flags, seqState := c.seqState, lastStep := c.lastStep, missed := c.missed
    retViol := c.retViol, fp := c.fp }

/-- A column reset of a site begins: its fence order is sent, its scrubber pauses (R296, R318, R415, R416). -/
def resetSite (y : Sys) (site : Nat) : Sys :=
  (y.onNoc fun n => { n with fences := n.fences ++ [⟨site, 0, 0⟩] }).onSiteProt site fun p => { p with scrubPaused := true }

/-- The fence orders of the sites of a reset have arrived or were lost (R318, R416). -/
def ordersArrived (d : Dev) : Bool := d.boot.rstSites.all fun s => !d.noc.fences.any fun f => f.site == s

/-- The column reset of a site has ended: its core and buffer are reset, its scrubber starts a new lap (R285, R296, R415). -/
def siteReset (y : Sys) (site : Nat) : Sys :=
  let w := y.dev.beat.wbc
  let y := (fillBuffer y site).onCore site resetCore
  let y := y.onSiteProt site fun p => { p with scrubPaused := false, scrubPtrs := [], scrubBeat := [], lapStart := w, lapAlarmed := false }
  y.onBoot fun b => { b with cleanSites := addTo b.cleanSites site }

/-- A core is ramped in a reset, with its test and the delivery of its firmware; its repair tables stay (R110, R416, R438). -/
def rampSite (y : Sys) (site : Nat) : Sys := startDelivery (railOn y site) site

/-- BOOT.RESET at one level: another level's command is not this row's (R374, R376, R383, R415). -/
def resetCommand (level m : Nat) (body : Nat → Sys → Sys) (y : Sys) : Sys :=
  command 1 5 2 m (fun r y =>
    let lv := r.field 0 1
    if lv = 0 ∨ 5 < lv then finish y m stPayload []
    else if lv ≠ level then y
    else body (r.field 1 1) y) y

/-- The reset is accepted and shown (R415). -/
def resetBegins (level target m : Nat) (sites : List Nat) (test : Bool) (y : Sys) : Sys :=
  let y := y.onBoot fun b => { b with
    rstLevel := level, rstBusy := true, rstTarget := target, rstSites := sites, rstTest := test, rstDiscards := b.discards }
  progress y m []

/-- A reset of a level is in progress. -/
def resetting (d : Dev) (level : Nat) : Bool := d.boot.rstBusy && d.boot.rstLevel == level

/-- A reset ends: its event, its count, and the command (R415, R423). -/
def resetEnds (y : Sys) (status : Nat) : Sys :=
  let b := y.dev.boot
  let y := event y 0x0804 (leBytes 1 b.rstLevel ++ leBytes 1 b.rstTarget ++ leBytes 4 (b.discards - b.rstDiscards))
  complete (y.onBoot fun b => { b with rstBusy := false, rstTest := false, rstCount := sat16 (b.rstCount + 1) }) 1 5 status []

/- Column and cluster (R415, R416, R472). -/

/-- A partition that holds one of the sites' columns is RUNNING or HELD. -/
def sitesLive (y : Sys) (sites : List Nat) : Bool :=
  sites.any fun s => match partOfSite y s with
    | some q => partLive y.dev q
    | none => false

/-- The reset of a site whose rails are off ramps them (R416); `again` removes them first (R415). -/
def resetRails (again : Bool) (y : Sys) (site : Nat) : Sys :=
  let on := y.dev.boot.powered.contains site
  if again then (if on then rampSite (railsOff y site) site else y)
  else if on then y else rampSite y site

/-- A column or cluster reset of its sites (R415, R416, R472). -/
def sitesReset (level target m : Nat) (sites : List Nat) (y : Sys) : Sys :=
  if y.dev.power.clocksStopped || sitesLive y sites then finish y m stState []
  else
    let test := level == 2 || sites.any fun s => !y.dev.boot.powered.contains s
    let y := resetBegins level target m sites test y
    y.each sites fun y s => resetRails (level == 2) (resetSite y s) s

/-- BOOT_RESET_COLUMN: TARGET is a logical column (R415, R416). -/
def resetColumn (m : Nat) : Sys → Sys := resetCommand 1 m fun t y =>
  if y.dev.map.n ≤ t then finish y m stPayload [] else sitesReset 1 t m [siteOf y.dev t] y

def execBootResetColumn (mb : Mbx) (s : State) : Host.Outcome State Fault Refusal := onSys (resetColumn mb) s

/-- The three sites of a cluster (R8). -/
def clusterSites (t : Nat) : List Nat := (List.range 3).map (3 * t + ·)

/-- BOOT_RESET_CLUSTER (R415, R416). -/
def resetCluster (m : Nat) : Sys → Sys := resetCommand 2 m fun t y =>
  if 6 ≤ t then finish y m stPayload [] else sitesReset 2 t m (clusterSites t) y

def execBootResetCluster (mb : Mbx) (s : State) : Host.Outcome State Fault Refusal := onSys (resetCluster mb) s

/-- A column or cluster reset ends once its sites are fenced; with a failed test it is REFUSED, and the cores stay fenced and unpowered
(R414 to R416). -/
def sitesResetEnd (level : Nat) (testFailed : Bool) (y : Sys) : Sys :=
  if !resetting y.dev level || !ordersArrived y.dev then y
  else
    let sites := y.dev.boot.rstSites
    let bad := testFailed && y.dev.boot.rstTest
    let y := y.each sites siteReset
    if bad then
      let y := y.each sites railsOff
      resetEnds (y.onBoot fun b => { b with coreOk := b.coreOk.filter fun s => !sites.contains s }) stRefused
    else resetEnds y 0

def execColumnResetEnd (testFailed : Bool) (s : State) : Host.Outcome State Fault Refusal := onSys (sitesResetEnd 1 testFailed) s

def execClusterResetEnd (testFailed : Bool) (s : State) : Host.Outcome State Fault Refusal := onSys (sitesResetEnd 2 testFailed) s

/- Partition (R415, R416, R422). -/

/-- A partition is first CUT: a DRAIN in progress turns into a CUT; without one the partition is IDLE with the CUT (R415, R421,
R422). -/
def cutForReset (y : Sys) (q : Nat) : Sys :=
  if !partLive y.dev q then y
  else
    let y := stopPart y q 0
    match nth y.dev.boot.disabling q .no with
    | .no => setPart y q .idle
    | .drain _ => y.onBoot fun b => { b with disabling := b.disabling.set q .cutForReset }
    | _ => y

/-- BOOT_RESET_PARTITION (R415, R416, R472). -/
def resetPartition (m : Nat) : Sys → Sys := resetCommand 3 m fun t y =>
  if 4 ≤ t then finish y m stPayload []
  else if y.dev.boot.power.code < 6 || y.dev.power.clocksStopped then finish y m stState []
  else
    let sites := (colsOf y t).map (siteOf y.dev)
    let y := resetBegins 3 t m sites false y
    (cutForReset y t).each sites resetSite

def execBootResetPartition (mb : Mbx) (s : State) : Host.Outcome State Fault Refusal := onSys (resetPartition mb) s

/-- PARTITION_RESET_END: the partition leaves FAULT_STOP, and its columns are admitted but those that wait for FAULT.ADMIT or have no
rails (R396, R415, R416). -/
def partitionResetEnd (y : Sys) : Sys :=
  let q := y.dev.boot.rstTarget
  if !resetting y.dev 3 || nth y.dev.boot.disabling q .no != .no || !ordersArrived y.dev then y
  else
    let sites := y.dev.boot.rstSites
    let y := y.each sites siteReset
    let may := fun s => y.dev.boot.powered.contains s && (assoc y.dev.noc.fenceWhy s).isNone
    let cols := (sites.filter may).filterMap (colAt y.dev)
    let y := y.onNoc fun n => { n with admits := n.admits ++ [⟨cols, false, false, false⟩] }
    let y := if partState y.dev q = .faultStop then setPart y q .idle else y
    resetEnds y 0

def execPartitionResetEnd (s : State) : Host.Outcome State Fault Refusal := onSys partitionResetEnd s

/- Fabric (R366, R415, R417, R418). -/

/-- Transfers of steps that are out, in order: host accesses, then mesh requests. -/
def transfersOut (d : Dev) : List Transfer :=
  ((d.host.accs.filter fun a => a.sent && coreAcc a.use).map .host) ++ d.noc.reqs.map .mesh

/-- Every mesh transfer ends with PATH_RESET; answers still due for host accesses are forgotten (R186, R417, R418). -/
def endTransfers (y : Sys) : Sys :=
  let l := transfersOut y.dev
  let y := y.each l pathReset
  let y := y.onNoc fun n => { n with reqs := [], out := [], kept := [] }
  y.onHost fun h => { h with accs := h.accs.map fun a => if a.sent && coreAcc a.use then { a with use := .mapOut } else a }

/-- Steps in flight of a core that go on after the reset: untimed host moves with transfers to come (R176, R418). -/
def hostMovesOut (y : Sys) (site : Nat) : List StepRun :=
  let c := (colAt y.dev site).getD 16
  (y.core site).steps.filter fun s => !s.done && isHostMove s.desc && outstanding y c s.index != 0

/-- Every RUNNING or HELD partition enters FAULT_STOP; untimed host moves keep their place (R417, R418). -/
def stopForFabric (y : Sys) : Sys :=
  let kept := (List.range 18).map fun s => (s, hostMovesOut y s)
  let runs := y.dev.sched.runs
  let y := y.each kept fun y k => y.onCore k.1 fun c => { c with steps := c.steps.filter fun s => !k.2.contains s }
  let y := y.each ((allParts y).filter (partLive y.dev)) faultStop
  y.each (kept.filter fun k => !k.2.isEmpty) fun y k =>
    let y := y.onCore k.1 fun c => { c with steps := k.2 }
    match partOfSite y k.1 with
    | some q => y.onSched fun s => { s with runs := upd s.runs q fun r => { r with image := (nth runs q {}).image } }
    | none => y

/-- Host requests in flight to memory behind the fabric are answered PATH_RESET; their snoops go on (R366). -/
def refuseTxns (y : Sys) : Sys :=
  let asks := fun (t : Txn) => match t.req with
    | .shared _ tag a => some (tag, a)
    | .own _ tag a => some (tag, a)
    | .readUc _ tag a _ => some (tag, a)
    | .writeUc _ tag a _ _ => some (tag, a)
    | _ => none
  let hit := fun (t : Txn) => match asks t with
    | some p => if behindReset y p.2 then some p else none
    | none => none
  let out := y.dev.host.txns.filterMap hit
  let after := fun (t : Txn) =>
    if (hit t).isNone then some t else if t.snooping then some { t with req := .evict } else none
  let y := y.onHost fun h => { h with txns := h.txns.filterMap after }
  y.each out fun y p => sendErr y p.1 p.2 4 0

/-- A bank after a reset of the fabric: nothing waits, occupies it or is open. -/
def idleBank (b : Bank) : Bank :=
  { b with waiting := [], rowOps := [], openRow := none, busySince := 0, busyUntil := 0, ahead := [], refreshUntil := 0 }

/-- Memory controllers and vertical channels are reset; the patrol keeps its rows (R293, R417). -/
def resetBanks (y : Sys) : Sys :=
  y.onProt fun p => { p with
    banks := p.banks.map fun b => (b.1, idleBank b.2)
    busCopies := [], bankReads := [] }

/-- The steps of R417 up to self-refresh. -/
def fabricDown (y : Sys) : Sys :=
  let y := stopForFabric (endTransfers y)
  let y := requestHold y 0xA 0
  let y := y.onNoc fun n => { n with fabricReset := true, fabricAt := y.dev.beat.wbc }
  (resetBanks (refuseTxns y)).onBoot fun b => { b with selfRefresh := true }

/-- BOOT_RESET_FABRIC (R415 to R417). -/
def resetFabric (m : Nat) : Sys → Sys := resetCommand 4 m fun t y =>
  if migrating y.dev.map.mig || y.dev.boot.power.code < 2 then finish y m stState []
  else fabricDown (resetBegins 4 t m [] false y)

def execBootResetFabric (mb : Mbx) (s : State) : Host.Outcome State Fault Refusal := onSys (resetFabric mb) s

/-- A recorded transfer is issued again (R418). -/
def reissue (y : Sys) (t : Transfer) : Sys :=
  match t with
  | .host a => hostAccess1 y a.write a.addr a.len a.data a.mask a.use
  | .mesh r => y.onNoc fun n => { n with reqs := n.reqs ++ [{ r with resent := false }], out := n.out ++ [(r.pkt.src, r.pkt)] }

/-- FABRIC_RESET_END: the mesh is in service, recorded transfers are issued again, held writebacks are performed; a follower must align
again (R53, R346, R366, R415, R417, R418). -/
def fabricResetEnd (y : Sys) : Sys :=
  if !resetting y.dev 4 then y
  else
    let again := y.dev.noc.pathReset
    let wbs := y.dev.host.heldWb
    let y := y.onNoc fun n => { n with fabricReset := false, pathReset := [] }
    let y := y.onBoot fun b => { b with selfRefresh := false }
    let y := y.onBeat fun b => if b.role = .member ∨ b.role = .standby then { b with aligned := false, matched := 0 } else b
    let y := y.onHost fun h => { h with heldWb := [] }
    let y := y.each wbs fun y w => writeBack y w.2.1 w.2.2.1 w.2.2.2
    resetEnds (y.each again reissue) 0

def execFabricResetEnd (s : State) : Host.Outcome State Fault Refusal := onSys fabricResetEnd s

/- Device (R405, R415, R419). -/

/-- BOOT_RESET_DEVICE: every live partition is CUT, the fabric goes down, RESET_NOTICE goes out on each half that is up (R419). -/
def resetDevice (m : Nat) : Sys → Sys := resetCommand 5 m fun t y =>
  let y := resetBegins 5 t m [] false y
  let y := y.each ((List.range 4).filter (partLive y.dev)) fun y q => setPart (stopPart y q 0) q .idle
  let y := fabricDown y
  y.each [0, 1] fun y h =>
    if (y.half h).state = 2 then y.onHalf h fun x => { x with txQ := x.txQ ++ [{ op := 0x41 }] } else y

def execBootResetDevice (mb : Mbx) (s : State) : Host.Outcome State Fault Refusal := onSys (resetDevice mb) s

/-- BOOT_ROM_RESTART: BASE_ON with what R405 keeps; the command is reported after the warm start (R351, R383, R397, R405, R419). -/
def bootRomRestart (m : Module) (y : Sys) : Module × Sys :=
  if !resetting y.dev 5 then (m, y)
  else
    let own := y.dev.host.cmds.find? fun r => r.group == 1 && r.verb == 5 && r.inProgress
    let old := y.dev.boot.power
    let y := y.onHost fun h => { h with
      resetDeferred := own.map fun r => (r.mb, r.seq, 0)
      cmds := h.cmds.filter fun r => !(r.group == 1 && r.verb == 5 && r.inProgress) }
    let y := { loseVolatile y with dev := warmDev (enterSelfRefresh m y.dev) }
    let y := y.onBoot fun b => { b with power := old }
    let y := y.onBoot fun b => { b with badUnits := b.badUnits ++ fusedUnits.filter fun u => !(b.badUnits.any fun v => v.fuse && sameUnit u v) }
    let y := y.onHost fun h => { h with halves := h.halves.map fun x => { x with state := 1, idleElectric := false } }
    (m, enterPower y .baseOn)

def execBootRomRestart (s : State) : Host.Outcome State Fault Refusal := onAll bootRomRestart s

/- The end of a disable (R396, R420 to R422). -/

/-- No step of a partition's columns is in flight. -/
def partDrained (y : Sys) (q : Nat) : Bool :=
  (colsOf y q).all fun c => (y.core (siteOf y.dev c)).steps.all (·.done)

/-- DISABLE_COMPLETE: the partition is IDLE, unless a fault turned the DRAIN into FAULT_STOP; event, then the command (R420 to R422). -/
def disableComplete (q : Nat) (y : Sys) : Sys :=
  let ends := fun (kind verb : Nat) (y : Sys) =>
    let y := if partState y.dev q = .faultStop then y else setPart (stopPart y q 0) q .idle
    let y := event y 0x0805 (leBytes 1 q ++ leBytes 1 kind ++ leBytes 4 (nth y.dev.boot.disDiscards q 0))
    complete (y.onBoot fun b => { b with disabling := b.disabling.set q .no }) 3 verb 0 []
  match nth y.dev.boot.disabling q .no with
  | .no => y
  | .drain since => if y.dev.beat.wbc ≤ since || !partDrained y q then y else ends 0 5 y
  | .cut => ends 1 4 y
  | .cutForReset => ends 1 5 y

def execDisableComplete (q : Part) (s : State) : Host.Outcome State Fault Refusal := onSys (disableComplete q) s

end Sys2Proof.Machine
end

