-- ==== Sys2Proof/Machine/Dispatch.lean ====
section
/-! DEFINITION. One arm per command of the table: the direct call of its meaning. -/

namespace Sys2Proof.Machine

/-- The effect of a command on everything but the queue. -/
def exec (i : Instr) (s : State) : Host.Outcome State Fault Refusal :=
  match i with
  | .pwrEnRise msSinceFall => Sys2Proof.Machine.execPwrEnRise msSinceFall s
  | .resetNFall pulseNs => Sys2Proof.Machine.execResetNFall pulseNs s
  | .vin54Lockout millivolts => Sys2Proof.Machine.execVin54Lockout millivolts s
  | .stageStatusCondition cond holds => Sys2Proof.Machine.execStageStatusCondition cond holds s
  | .pmbusTelemetryUpdate vin iin vout iout temp pout pin => Sys2Proof.Machine.execPmbusTelemetryUpdate vin iin vout iout temp pout pin s
  | .pmbusInvalidCommand code => Sys2Proof.Machine.execPmbusInvalidCommand code s
  | .windowBoundary m => Sys2Proof.Machine.execWindowBoundary m s
  | .beatMarker port m => Sys2Proof.Machine.execBeatMarker port m s
  | .beatLoadCtrlWrite value => Sys2Proof.Machine.execBeatLoadCtrlWrite value s
  | .beatCountLoRead which => Sys2Proof.Machine.execBeatCountLoRead which s
  | .holdRequest port r => Sys2Proof.Machine.execHoldRequest port r s
  | .holdConfirmation port r => Sys2Proof.Machine.execHoldConfirmation port r s
  | .holdRelease port r => Sys2Proof.Machine.execHoldRelease port r s
  | .holdPointClose w => Sys2Proof.Machine.execHoldPointClose w s
  | .holdPointStart w => Sys2Proof.Machine.execHoldPointStart w s
  | .confirmMissing w => Sys2Proof.Machine.execConfirmMissing w s
  | .mirror m => Sys2Proof.Machine.execMirror m s
  | .partitionStart q => Sys2Proof.Machine.execPartitionStart q s
  | .imageRunRepeat q => Sys2Proof.Machine.execImageRunRepeat q s
  | .imageFinish q => Sys2Proof.Machine.execImageFinish q s
  | .stepDescriptorFetch col => Sys2Proof.Machine.execStepDescriptorFetch col s
  | .matmul col cyc => Sys2Proof.Machine.execMatmul col cyc s
  | .attend col cyc => Sys2Proof.Machine.execAttend col cyc s
  | .lane col cyc => Sys2Proof.Machine.execLane col cyc s
  | .dmaMove col cyc => Sys2Proof.Machine.execDmaMove col cyc s
  | .dmaGather col cyc => Sys2Proof.Machine.execDmaGather col cyc s
  | .dmaScatter col cyc => Sys2Proof.Machine.execDmaScatter col cyc s
  | .spanSend col cyc => Sys2Proof.Machine.execSpanSend col cyc s
  | .spanRecv col cyc => Sys2Proof.Machine.execSpanRecv col cyc s
  | .reduce col cyc => Sys2Proof.Machine.execReduce col cyc s
  | .rowop col cyc => Sys2Proof.Machine.execRowop col cyc s
  | .sketch col cyc => Sys2Proof.Machine.execSketch col cyc s
  | .wait col cyc => Sys2Proof.Machine.execWait col cyc s
  | .hint col cyc => Sys2Proof.Machine.execHint col cyc s
  | .append col cyc => Sys2Proof.Machine.execAppend col cyc s
  | .stepEnd col index cyc => Sys2Proof.Machine.execStepEnd col index cyc s
  | .flowLastBeatExpiry col index cyc => Sys2Proof.Machine.execFlowLastBeatExpiry col index cyc s
  | .stepComplete col index cyc => Sys2Proof.Machine.execStepComplete col index cyc s
  | .stepStatusRecord parityError => Sys2Proof.Machine.execStepStatusRecord parityError s
  | .faultRecord parityError => Sys2Proof.Machine.execFaultRecord parityError s
  | .feederLineRequest col side queue => Sys2Proof.Machine.execFeederLineRequest col side queue s
  | .bufferBankReadGrant col bank upset => Sys2Proof.Machine.execBufferBankReadGrant col bank upset s
  | .bufferLineWrite col writer addr data mask => Sys2Proof.Machine.execBufferLineWrite col writer addr data mask s
  | .bufferWriteBack col => Sys2Proof.Machine.execBufferWriteBack col s
  | .tileDrain col upset cyc => Sys2Proof.Machine.execTileDrain col upset cyc s
  | .drainRowEnterStream col cyc => Sys2Proof.Machine.execDrainRowEnterStream col cyc s
  | .arrayCheckCompare col cyc => Sys2Proof.Machine.execArrayCheckCompare col cyc s
  | .replayReissue col spoiled => Sys2Proof.Machine.execReplayReissue col spoiled s
  | .replayEnd col cyc => Sys2Proof.Machine.execReplayEnd col cyc s
  | .laneHalt col upset cyc => Sys2Proof.Machine.execLaneHalt col upset cyc s
  | .laneLoop col upset cyc => Sys2Proof.Machine.execLaneLoop col upset cyc s
  | .laneSeta col upset cyc => Sys2Proof.Machine.execLaneSeta col upset cyc s
  | .laneAdda col upset cyc => Sys2Proof.Machine.execLaneAdda col upset cyc s
  | .laneLd col upset cyc => Sys2Proof.Machine.execLaneLd col upset cyc s
  | .laneSt col upset cyc => Sys2Proof.Machine.execLaneSt col upset cyc s
  | .laneIn col upset cyc => Sys2Proof.Machine.execLaneIn col upset cyc s
  | .laneSplat col upset cyc => Sys2Proof.Machine.execLaneSplat col upset cyc s
  | .laneAdd col upset cyc => Sys2Proof.Machine.execLaneAdd col upset cyc s
  | .laneSub col upset cyc => Sys2Proof.Machine.execLaneSub col upset cyc s
  | .laneMul col upset cyc => Sys2Proof.Machine.execLaneMul col upset cyc s
  | .laneFma col upset cyc => Sys2Proof.Machine.execLaneFma col upset cyc s
  | .laneMax col upset cyc => Sys2Proof.Machine.execLaneMax col upset cyc s
  | .laneMin col upset cyc => Sys2Proof.Machine.execLaneMin col upset cyc s
  | .laneAbs col upset cyc => Sys2Proof.Machine.execLaneAbs col upset cyc s
  | .laneNeg col upset cyc => Sys2Proof.Machine.execLaneNeg col upset cyc s
  | .laneScale col upset cyc => Sys2Proof.Machine.execLaneScale col upset cyc s
  | .laneCmpgt col upset cyc => Sys2Proof.Machine.execLaneCmpgt col upset cyc s
  | .laneSel col upset cyc => Sys2Proof.Machine.execLaneSel col upset cyc s
  | .laneExp2 col upset cyc => Sys2Proof.Machine.execLaneExp2 col upset cyc s
  | .laneLog2 col upset cyc => Sys2Proof.Machine.execLaneLog2 col upset cyc s
  | .laneRcp col upset cyc => Sys2Proof.Machine.execLaneRcp col upset cyc s
  | .laneRsq col upset cyc => Sys2Proof.Machine.execLaneRsq col upset cyc s
  | .laneRsum col upset cyc => Sys2Proof.Machine.execLaneRsum col upset cyc s
  | .laneRmax col upset cyc => Sys2Proof.Machine.execLaneRmax col upset cyc s
  | .rowAnd site tile bank cyc => Sys2Proof.Machine.execRowAnd site tile bank cyc s
  | .rowOr site tile bank cyc => Sys2Proof.Machine.execRowOr site tile bank cyc s
  | .rowXor site tile bank cyc => Sys2Proof.Machine.execRowXor site tile bank cyc s
  | .rowXnor site tile bank cyc => Sys2Proof.Machine.execRowXnor site tile bank cyc s
  | .rowNot site tile bank cyc => Sys2Proof.Machine.execRowNot site tile bank cyc s
  | .rowMaj3 site tile bank cyc => Sys2Proof.Machine.execRowMaj3 site tile bank cyc s
  | .rowCopy site tile bank cyc => Sys2Proof.Machine.execRowCopy site tile bank cyc s
  | .rowZero site tile bank cyc => Sys2Proof.Machine.execRowZero site tile bank cyc s
  | .rowOnes site tile bank cyc => Sys2Proof.Machine.execRowOnes site tile bank cyc s
  | .rowNand site tile bank cyc => Sys2Proof.Machine.execRowNand site tile bank cyc s
  | .rowNor site tile bank cyc => Sys2Proof.Machine.execRowNor site tile bank cyc s
  | .rowAndn site tile bank cyc => Sys2Proof.Machine.execRowAndn site tile bank cyc s
  | .rowOrn site tile bank cyc => Sys2Proof.Machine.execRowOrn site tile bank cyc s
  | .rowAnd3 site tile bank cyc => Sys2Proof.Machine.execRowAnd3 site tile bank cyc s
  | .rowOr3 site tile bank cyc => Sys2Proof.Machine.execRowOr3 site tile bank cyc s
  | .rowXor3 site tile bank cyc => Sys2Proof.Machine.execRowXor3 site tile bank cyc s
  | .rowMux site tile bank cyc => Sys2Proof.Machine.execRowMux site tile bank cyc s
  | .rowFullAdd site tile bank cyc => Sys2Proof.Machine.execRowFullAdd site tile bank cyc s
  | .rowOpThrottleRelease layer cyc => Sys2Proof.Machine.execRowOpThrottleRelease layer cyc s
  | .bankBusTransferDone site tile cyc => Sys2Proof.Machine.execBankBusTransferDone site tile cyc s
  | .bankRequestArrive r upset cyc => Sys2Proof.Machine.execBankRequestArrive r upset cyc s
  | .bankRequestAfterRowOp site tile bank cyc => Sys2Proof.Machine.execBankRequestAfterRowOp site tile bank cyc s
  | .bankRefresh layer bank cyc => Sys2Proof.Machine.execBankRefresh layer bank cyc s
  | .granuleEncodeDone col granule => Sys2Proof.Machine.execGranuleEncodeDone col granule s
  | .patrolRowDue site tile bank => Sys2Proof.Machine.execPatrolRowDue site tile bank s
  | .patrolRowPresent site tile bank upset cyc => Sys2Proof.Machine.execPatrolRowPresent site tile bank upset cyc s
  | .idleScrubRead site bank upset => Sys2Proof.Machine.execIdleScrubRead site bank upset s
  | .bufferLapAlarm site => Sys2Proof.Machine.execBufferLapAlarm site s
  | .preparationBegin col => Sys2Proof.Machine.execPreparationBegin col s
  | .preparationDone col => Sys2Proof.Machine.execPreparationDone col s
  | .pageDescriptor col parityError => Sys2Proof.Machine.execPageDescriptor col parityError s
  | .attendPageWindow col upset cyc => Sys2Proof.Machine.execAttendPageWindow col upset cyc s
  | .migrationBlockCopy faulty => Sys2Proof.Machine.execMigrationBlockCopy faulty s
  | .meshRead router p => Sys2Proof.Machine.execMeshRead router p s
  | .meshWrite router p => Sys2Proof.Machine.execMeshWrite router p s
  | .meshReadData router p => Sys2Proof.Machine.execMeshReadData router p s
  | .meshWriteAck router p => Sys2Proof.Machine.execMeshWriteAck router p s
  | .meshSpanIn router p => Sys2Proof.Machine.execMeshSpanIn router p s
  | .meshSpanOut router p => Sys2Proof.Machine.execMeshSpanOut router p s
  | .meshError router p => Sys2Proof.Machine.execMeshError router p s
  | .meshRequestTimeout tag => Sys2Proof.Machine.execMeshRequestTimeout tag s
  | .vcLineRetransfer col line tile second index => Sys2Proof.Machine.execVcLineRetransfer col line tile second index s
  | .fenceOrder site parityError => Sys2Proof.Machine.execFenceOrder site parityError s
  | .shuttleCtrlTimeout node => Sys2Proof.Machine.execShuttleCtrlTimeout node s
  | .dataFlit port f => Sys2Proof.Machine.execDataFlit port f s
  | .spanFlitRead col flow => Sys2Proof.Machine.execSpanFlitRead col flow s
  | .mgmtFlit port f => Sys2Proof.Machine.execMgmtFlit port f s
  | .holdIdleFlit port f => Sys2Proof.Machine.execHoldIdleFlit port f s
  | .linkHello port h => Sys2Proof.Machine.execLinkHello port h s
  | .laneState port mask switchWbc => Sys2Proof.Machine.execLaneState port mask switchWbc s
  | .admitRecord port r => Sys2Proof.Machine.execAdmitRecord port r s
  | .firmwareReport port r => Sys2Proof.Machine.execFirmwareReport port r s
  | .spanPortRetrain port value => Sys2Proof.Machine.execSpanPortRetrain port value s
  | .spanPortUseClear port value => Sys2Proof.Machine.execSpanPortUseClear port value s
  | .trainingLock port lanes => Sys2Proof.Machine.execTrainingLock port lanes s
  | .trainingTimeout port => Sys2Proof.Machine.execTrainingTimeout port s
  | .qualificationEnd port passed => Sys2Proof.Machine.execQualificationEnd port passed s
  | .laneFailure port lane => Sys2Proof.Machine.execLaneFailure port lane s
  | .laneSwitch port => Sys2Proof.Machine.execLaneSwitch port s
  | .codewordLockLoss port => Sys2Proof.Machine.execCodewordLockLoss port s
  | .holdIdleTimeout port => Sys2Proof.Machine.execHoldIdleTimeout port s
  | .spanSelfWrite value => Sys2Proof.Machine.execSpanSelfWrite value s
  | .halfTrained h => Sys2Proof.Machine.execHalfTrained h s
  | .hostFlit h f => Sys2Proof.Machine.execHostFlit h f s
  | .hostFlitResend h => Sys2Proof.Machine.execHostFlitResend h s
  | .halfNoProgress h => Sys2Proof.Machine.execHalfNoProgress h s
  | .rdShared h tag addr => Sys2Proof.Machine.execRdShared h tag addr s
  | .rdOwn h tag addr => Sys2Proof.Machine.execRdOwn h tag addr s
  | .rdUc h tag addr len => Sys2Proof.Machine.execRdUc h tag addr len s
  | .wrUc h tag addr data mask => Sys2Proof.Machine.execWrUc h tag addr data mask s
  | .wbDirty h tag addr data => Sys2Proof.Machine.execWbDirty h tag addr data s
  | .evictClean h tag addr => Sys2Proof.Machine.execEvictClean h tag addr s
  | .snpRsp h tag addr state data => Sys2Proof.Machine.execSnpRsp h tag addr state data s
  | .hdata tag data => Sys2Proof.Machine.execHdata tag data s
  | .hack tag => Sys2Proof.Machine.execHack tag s
  | .herr tag status => Sys2Proof.Machine.execHerr tag status s
  | .halfState bits => Sys2Proof.Machine.execHalfState bits s
  | .homeTransactionResume line => Sys2Proof.Machine.execHomeTransactionResume line s
  | .snoopTimeout line => Sys2Proof.Machine.execSnoopTimeout line s
  | .commandDone mb => Sys2Proof.Machine.execCommandDone mb s
  | .commandUnknown mb => Sys2Proof.Machine.execCommandUnknown mb s
  | .hlEvtConsumerWrite value => Sys2Proof.Machine.execHlEvtConsumerWrite value s
  | .hlStsConsumerWrite q value => Sys2Proof.Machine.execHlStsConsumerWrite q value s
  | .bootInfo mb => Sys2Proof.Machine.execBootInfo mb s
  | .bootResourceMap mb => Sys2Proof.Machine.execBootResourceMap mb s
  | .bootDefects mb => Sys2Proof.Machine.execBootDefects mb s
  | .bootCores mb => Sys2Proof.Machine.execBootCores mb s
  | .bootResetColumn mb => Sys2Proof.Machine.execBootResetColumn mb s
  | .bootResetCluster mb => Sys2Proof.Machine.execBootResetCluster mb s
  | .bootResetPartition mb => Sys2Proof.Machine.execBootResetPartition mb s
  | .bootResetFabric mb => Sys2Proof.Machine.execBootResetFabric mb s
  | .bootResetDevice mb => Sys2Proof.Machine.execBootResetDevice mb s
  | .cfgWrite mb => Sys2Proof.Machine.execCfgWrite mb s
  | .cfgRead mb => Sys2Proof.Machine.execCfgRead mb s
  | .cfgSwap mb => Sys2Proof.Machine.execCfgSwap mb s
  | .cfgSwapImmediate mb => Sys2Proof.Machine.execCfgSwapImmediate mb s
  | .cfgSwapCancel mb => Sys2Proof.Machine.execCfgSwapCancel mb s
  | .schedLoad mb => Sys2Proof.Machine.execSchedLoad mb s
  | .schedUnload mb => Sys2Proof.Machine.execSchedUnload mb s
  | .schedStart mb => Sys2Proof.Machine.execSchedStart mb s
  | .schedStop mb => Sys2Proof.Machine.execSchedStop mb s
  | .schedDrain mb => Sys2Proof.Machine.execSchedDrain mb s
  | .memCopy mb => Sys2Proof.Machine.execMemCopy mb s
  | .memFill mb => Sys2Proof.Machine.execMemFill mb s
  | .memMigrate mb => Sys2Proof.Machine.execMemMigrate mb s
  | .kvWrite mb => Sys2Proof.Machine.execKvWrite mb s
  | .kvBind mb => Sys2Proof.Machine.execKvBind mb s
  | .kvRelease mb => Sys2Proof.Machine.execKvRelease mb s
  | .kvFree mb => Sys2Proof.Machine.execKvFree mb s
  | .kvStatus mb => Sys2Proof.Machine.execKvStatus mb s
  | .pwrGrant mb => Sys2Proof.Machine.execPwrGrant mb s
  | .pwrEnv mb => Sys2Proof.Machine.execPwrEnv mb s
  | .pwrHint mb => Sys2Proof.Machine.execPwrHint mb s
  | .pwrCoolantStay mb => Sys2Proof.Machine.execPwrCoolantStay mb s
  | .pwrCoolantResume mb => Sys2Proof.Machine.execPwrCoolantResume mb s
  | .pwrCoolantStop mb => Sys2Proof.Machine.execPwrCoolantStop mb s
  | .faultRing mb => Sys2Proof.Machine.execFaultRing mb s
  | .faultFence mb => Sys2Proof.Machine.execFaultFence mb s
  | .faultAdmit mb => Sys2Proof.Machine.execFaultAdmit mb s
  | .fwSend mb => Sys2Proof.Machine.execFwSend mb s
  | .fwStatus mb => Sys2Proof.Machine.execFwStatus mb s
  | .fwIdentity mb => Sys2Proof.Machine.execFwIdentity mb s
  | .fwAttest mb readBack => Sys2Proof.Machine.execFwAttest mb readBack s
  | .spanPlace mb => Sys2Proof.Machine.execSpanPlace mb s
  | .spanRole mb => Sys2Proof.Machine.execSpanRole mb s
  | .spanBeatLoad mb => Sys2Proof.Machine.execSpanBeatLoad mb s
  | .spanAdmit mb => Sys2Proof.Machine.execSpanAdmit mb s
  | .spanDismiss mb => Sys2Proof.Machine.execSpanDismiss mb s
  | .spanHold mb => Sys2Proof.Machine.execSpanHold mb s
  | .spanRelease mb => Sys2Proof.Machine.execSpanRelease mb s
  | .spanLedger mb => Sys2Proof.Machine.execSpanLedger mb s
  | .spanRoutes mb => Sys2Proof.Machine.execSpanRoutes mb s
  | .selftestComplete found baseFailed => Sys2Proof.Machine.execSelftestComplete found baseFailed s
  | .dramInitComplete found => Sys2Proof.Machine.execDramInitComplete found s
  | .memoryFillComplete beats expired => Sys2Proof.Machine.execMemoryFillComplete beats expired s
  | .checkerComplete failedSites => Sys2Proof.Machine.execCheckerComplete failedSites s
  | .fwPiece port f => Sys2Proof.Machine.execFwPiece port f s
  | .endMarker port f => Sys2Proof.Machine.execEndMarker port f s
  | .coreWaveTestDone failed found => Sys2Proof.Machine.execCoreWaveTestDone failed found s
  | .columnSegmentPiece site piece session data parityError => Sys2Proof.Machine.execColumnSegmentPiece site piece session data parityError s
  | .columnSegmentDeliveryEnd site => Sys2Proof.Machine.execColumnSegmentDeliveryEnd site s
  | .columnResetEnd testFailed => Sys2Proof.Machine.execColumnResetEnd testFailed s
  | .clusterResetEnd testFailed => Sys2Proof.Machine.execClusterResetEnd testFailed s
  | .disableComplete q => Sys2Proof.Machine.execDisableComplete q s
  | .bubbleLoopPeriod powerUw cyc => Sys2Proof.Machine.execBubbleLoopPeriod powerUw cyc s
  | .droopTrip site cyc => Sys2Proof.Machine.execDroopTrip site cyc s
  | .heavyPhaseStart col index => Sys2Proof.Machine.execHeavyPhaseStart col index s
  | .heavyPhaseEnd col index => Sys2Proof.Machine.execHeavyPhaseEnd col index s
  | .thermalTrip sensor => Sys2Proof.Machine.execThermalTrip sensor s
  | .memMapCtrlWrite value => Sys2Proof.Machine.execMemMapCtrlWrite value s
  | .dpInjCtrlWrite value => Sys2Proof.Machine.execDpInjCtrlWrite value s
  | .seqCountsWrite site value => Sys2Proof.Machine.execSeqCountsWrite site value s
  | .arrayCountCtrlClear site value => Sys2Proof.Machine.execArrayCountCtrlClear site value s
  | .rlCountCtrlClear value => Sys2Proof.Machine.execRlCountCtrlClear value s
  | .nocCountCtrlClear value => Sys2Proof.Machine.execNocCountCtrlClear value s
  | .spanCountCtrlClear value => Sys2Proof.Machine.execSpanCountCtrlClear value s
  | .pwrCountCtrlClear value => Sys2Proof.Machine.execPwrCountCtrlClear value s
  | .seCountCtrlClear value => Sys2Proof.Machine.execSeCountCtrlClear value s
  | .registerWrite addr value => Sys2Proof.Machine.execRegisterWrite addr value s
  | .halfLaneFailure h lane => Sys2Proof.Machine.execHalfLaneFailure h lane s
  | .railsInRegulation => Sys2Proof.Machine.execRailsInRegulation s
  | .pwrEnFall => Sys2Proof.Machine.execPwrEnFall s
  | .resetNRise => Sys2Proof.Machine.execResetNRise s
  | .baseOnReached => Sys2Proof.Machine.execBaseOnReached s
  | .vin54Start => Sys2Proof.Machine.execVin54Start s
  | .spanRefclkLoss => Sys2Proof.Machine.execSpanRefclkLoss s
  | .clearFaults => Sys2Proof.Machine.execClearFaults s
  | .capability => Sys2Proof.Machine.execCapability s
  | .voutMode => Sys2Proof.Machine.execVoutMode s
  | .statusByte => Sys2Proof.Machine.execStatusByte s
  | .statusWord => Sys2Proof.Machine.execStatusWord s
  | .statusVout => Sys2Proof.Machine.execStatusVout s
  | .statusIout => Sys2Proof.Machine.execStatusIout s
  | .statusInput => Sys2Proof.Machine.execStatusInput s
  | .statusTemperature => Sys2Proof.Machine.execStatusTemperature s
  | .statusCml => Sys2Proof.Machine.execStatusCml s
  | .readVin => Sys2Proof.Machine.execReadVin s
  | .readIin => Sys2Proof.Machine.execReadIin s
  | .readVout => Sys2Proof.Machine.execReadVout s
  | .readIout => Sys2Proof.Machine.execReadIout s
  | .readTemperature1 => Sys2Proof.Machine.execReadTemperature1 s
  | .readPout => Sys2Proof.Machine.execReadPout s
  | .readPin => Sys2Proof.Machine.execReadPin s
  | .pmbusRevision => Sys2Proof.Machine.execPmbusRevision s
  | .mfrId => Sys2Proof.Machine.execMfrId s
  | .mfrModel => Sys2Proof.Machine.execMfrModel s
  | .mfrSerial => Sys2Proof.Machine.execMfrSerial s
  | .beatBoundary => Sys2Proof.Machine.execBeatBoundary s
  | .epochBoundary => Sys2Proof.Machine.execEpochBoundary s
  | .memberAligned => Sys2Proof.Machine.execMemberAligned s
  | .markersMissing => Sys2Proof.Machine.execMarkersMissing s
  | .holdoverExpiry => Sys2Proof.Machine.execHoldoverExpiry s
  | .phaseErrorExcess => Sys2Proof.Machine.execPhaseErrorExcess s
  | .beatLoadEffect => Sys2Proof.Machine.execBeatLoadEffect s
  | .standbyMarkersMissing => Sys2Proof.Machine.execStandbyMarkersMissing s
  | .standbyTakeover => Sys2Proof.Machine.execStandbyTakeover s
  | .configurationSwap => Sys2Proof.Machine.execConfigurationSwap s
  | .kvDeferredCommand => Sys2Proof.Machine.execKvDeferredCommand s
  | .migrationSwitch => Sys2Proof.Machine.execMigrationSwitch s
  | .migrationOldSiteIdle => Sys2Proof.Machine.execMigrationOldSiteIdle s
  | .backInvalidationDone => Sys2Proof.Machine.execBackInvalidationDone s
  | .admitIncarnationWrite => Sys2Proof.Machine.execAdmitIncarnationWrite s
  | .fenceLift => Sys2Proof.Machine.execFenceLift s
  | .admitEffect => Sys2Proof.Machine.execAdmitEffect s
  | .mailboxTake => Sys2Proof.Machine.execMailboxTake s
  | .eventRingFlush => Sys2Proof.Machine.execEventRingFlush s
  | .selftest => Sys2Proof.Machine.execSelftest s
  | .dramInit => Sys2Proof.Machine.execDramInit s
  | .fill => Sys2Proof.Machine.execFill s
  | .checker => Sys2Proof.Machine.execChecker s
  | .fwLoad => Sys2Proof.Machine.execFwLoad s
  | .fwLoadComplete => Sys2Proof.Machine.execFwLoadComplete s
  | .fwReceive => Sys2Proof.Machine.execFwReceive s
  | .fwReportWindowClose => Sys2Proof.Machine.execFwReportWindowClose s
  | .fwEndMarkerTimeout => Sys2Proof.Machine.execFwEndMarkerTimeout s
  | .fwReceiveTimeout => Sys2Proof.Machine.execFwReceiveTimeout s
  | .fwObjectCheckDone => Sys2Proof.Machine.execFwObjectCheckDone s
  | .lowerTreeComputed => Sys2Proof.Machine.execLowerTreeComputed s
  | .coreWaveRamp => Sys2Proof.Machine.execCoreWaveRamp s
  | .partitionResetEnd => Sys2Proof.Machine.execPartitionResetEnd s
  | .fabricResetEnd => Sys2Proof.Machine.execFabricResetEnd s
  | .bootRomRestart => Sys2Proof.Machine.execBootRomRestart s
  | .grantTimeout => Sys2Proof.Machine.execGrantTimeout s
  | .envStaleTimeout => Sys2Proof.Machine.execEnvStaleTimeout s
  | .baseDieResetRelease => Sys2Proof.Machine.execBaseDieResetRelease s
  | .pwrEnDeferredStart => Sys2Proof.Machine.execPwrEnDeferredStart s
  | .vin54OvervoltageRestart => Sys2Proof.Machine.execVin54OvervoltageRestart s

end Sys2Proof.Machine
end

