-- ==== Sys2Proof/Safety.lean ====
section
/-! DEFINITION. What a safe run is, and the words in which statements speak of a command's effect. -/

namespace Sys2Proof

/-- A step is safe when it answers a next state: neither a fault nor a refusal. -/
def Machine.State.stepSafe (s : Machine.State) : Prop :=
  ∃ t, Machine.step s = .next t

/-- The work record at the start of a command: the stack and the memories as the state holds them. -/
def Machine.State.work (s : Machine.State) : Machine.Sys := ⟨s.dev, s.mem, []⟩

/-- A command answers a next state of which something holds. -/
def Completes (i : Instr) (s : Machine.State) (P : Machine.State → Prop) : Prop :=
  ∃ t, Machine.exec i s = .next t ∧ P t

/-- Pins, memories and queue are as before: the command changed the stack's registers only. -/
def StackOnly (s t : Machine.State) : Prop := t.mod = s.mod ∧ t.mem = s.mem ∧ t.pending = s.pending

/-- Pins and queue are as before: the command changed the stack's registers and the memories only. -/
def KeepsPins (s t : Machine.State) : Prop := t.mod = s.mod ∧ t.pending = s.pending

/-- No stored error is present and no injection is armed. -/
def ErrorFree (d : Machine.Dev) : Prop := d.prot.dramErr = [] ∧ d.prot.bufErr = [] ∧ d.prot.injArm = false

/-- The memories that a work record holds. -/
def Machine.Sys.mem (y : Machine.Sys) : Machine.Store := y.base.applyLog y.log

/-- Pins and queue are as before, and the memories are those of a work record. -/
def MemOf (y : Machine.Sys) (s t : Machine.State) : Prop := t.mod = s.mod ∧ t.pending = s.pending ∧ t.mem = y.mem

/-- From a work record on, the command changed cores only. -/
def CoresOnly (y : Machine.Sys) (s t : Machine.State) : Prop := MemOf y s t ∧ t.dev = { y.dev with cores := t.dev.cores }

/-- The stack with the core of a column brought to a cycle of the present beat, as a command of that cycle finds it (R101, R104). -/
def Reached (s : Machine.State) (col cyc : Nat) : Machine.Sys := Machine.advanceCore cyc s.work (Machine.siteOf s.dev col)

/-- The next step of a column is due in this cycle and is of one kind; with its core brought to the cycle (`coreAtIssue`) it still is, finds
its engines free, no replay running and no step of its own run and index in flight (R150, R151). -/
def IssuesAs (s : Machine.State) (op col cyc : Nat) (x : Machine.StepCtx) : Prop :=
  let y := Machine.coreAtIssue s.work x
  Machine.issueNow s.work col cyc = some x ∧ Machine.opOf x.d = op ∧ x.site < y.dev.cores.length ∧ (Machine.issueNow y col cyc).isSome = true ∧
    (y.core x.site).replay = none ∧ Machine.liveStep (y.core x.site) x.index = none ∧
    ∀ g ∈ Machine.enginesOf x.d, Machine.engineBusy (y.core x.site) (Machine.cycNow y.dev cyc) g = false

/-- A step is in flight on its core, issued in a cycle. -/
def InFlightSince (t : Machine.State) (x : Machine.StepCtx) (op cycle : Nat) : Prop :=
  ∃ st ∈ (t.work.core x.site).steps, st.index = x.index ∧ st.op = op ∧ st.issueAt = cycle ∧ st.done = false

/-- The sequencer of a core has gone on past a step (R150). -/
def WentPast (y : Machine.Sys) (t : Machine.State) (x : Machine.StepCtx) : Prop :=
  (t.work.core x.site).nextIndex = (y.core x.site).nextIndex + 1 ∧ (t.work.core x.site).lastStep = x.index % 2 ^ 24

end Sys2Proof
end

