-- ==== Sys2Proof/Certificates/Slice0/Obligations.lean ====
section
/-! DEFINITION. The statements for the provers, each a proposition about the machine; OBLIGATIONS.json lists them. -/

open Sys2Proof Sys2Proof.Machine

/- Pins, stage and PMBus. -/

/-- R36, R397, R398, R501, R503: what the pins and the 54 V stage do when power comes. Nothing but the stage's own fields changes. -/
def Sys2Proof.PowerUpPinsClause : Prop :=
  ∀ s : State,
    (∀ ms, s.mod.pwrEn = false → 50 ≤ ms →
      exec (.pwrEnRise ms) s = .next { s with mod := { s.mod with pwrEn := true, stageOn := s.mod.vinOk } }) ∧
    (∀ ms, s.mod.pwrEn = false → ms < 50 →
      exec (.pwrEnRise ms) s = .next { s with mod := { s.mod with pwrEn := true, pwrEnDeferred := true } }) ∧
    (s.mod.pwrEnDeferred = true → s.mod.pwrEn = true →
      exec .pwrEnDeferredStart s = .next { s with mod := { s.mod with pwrEnDeferred := false, stageOn := s.mod.vinOk } }) ∧
    (s.mod.stageOn = true → exec .railsInRegulation s = .next { s with mod := { s.mod with pwrgood := true } }) ∧
    (s.mod.pwrEn = true → s.mod.pwrgood = true → s.mod.resetN = true → s.mod.refclk = true →
      exec .baseDieResetRelease s = .next { s with mod := { s.mod with fusesRead := true } }) ∧
    (s.mod.pwrEn = true → s.mod.pwrgood = true → s.mod.resetN = false →
      exec .resetNRise s = .next { s with mod := { s.mod with resetN := true, refclk := true, fusesRead := true } }) ∧
    (s.mod.vinOk = false → s.mod.ovStop = false →
      exec .vin54Start s = .next { s with mod := { s.mod with
        vinOk := true, liveConds := s.mod.liveConds.filter (· != .vinUvFault),
        stageOn := s.mod.pwrEn && !s.mod.pwrEnDeferred } }) ∧
    (s.mod.ovStop = true →
      exec .vin54OvervoltageRestart s = .next { s with mod := { s.mod with
        vinOk := true, ovStop := false, liveConds := s.mod.liveConds.filter (· != .vinOvFault),
        stageOn := s.mod.pwrEn && !s.mod.pwrEnDeferred } })

/-- R38, R39, R399, R501, R507: PWR_EN low, a lockout of VIN54 and the stage's temperature fault take every rail away: the stack
is off, WARM_OK is 0 and every byte of every memory reads as zero. PWR_EN low and the undervoltage lockout release the trip. -/
def Obligations.RailsFall : Prop :=
  ∀ (s : State) (i : Instr),
    (i = .pwrEnFall ∨ (∃ mv, i = .vin54Lockout mv ∧ (mv < 42500 ∨ (59500 < mv ∧ mv ≤ 64000))) ∨
      (i = .stageStatusCondition .otFault true ∧ s.mod.vinOk = true)) →
    Completes i s fun t =>
      t.mod.stageOn = false ∧ t.mod.pwrgood = false ∧ t.dev.boot.power = .off ∧ t.dev.boot.warmOk = false ∧
      (∀ k, k < 2 ^ 46 → t.mem.get k = 0) ∧ t.pending = s.pending ∧
      (i = .pwrEnFall → t.mod.pwrEn = false ∧ t.mod.tripLatched = false ∧ t.mod.resetN = s.mod.resetN) ∧
      (∀ mv, i = .vin54Lockout mv → t.mod.vinOk = false ∧ t.mod.tripLatched = (s.mod.tripLatched && decide (42500 ≤ mv)))

/-- R38, R398, R399, R405: RESET_N low with the rails up resets the base die: DRAM and the firmware store keep every byte, buffers,
configuration sets and mailboxes lose theirs, DRAM is in self-refresh, and WARM_OK tells whether a warm start is possible. -/
def Obligations.ResetKeepsDram : Prop :=
  ∀ (s : State) (ns : Nat), s.mod.resetN = true → s.mod.pwrEn = true → s.mod.pwrgood = true → 10000 ≤ ns →
    s.dev.boot.power ≠ .off →
    Completes (.resetNFall ns) s fun t =>
      t.mod = { s.mod with resetN := false, fusesRead := false } ∧ t.pending = s.pending ∧
      t.dev.boot.power = .off ∧ t.dev.boot.selfRefresh = true ∧
      t.dev.boot.warmOk = (s.dev.boot.reachedMem && !s.mod.tripLatched) ∧
      t.dev.noc.fenced = s.dev.noc.fenced ∧ t.dev.boot.storedDefects = s.dev.boot.storedDefects ∧
      t.dev.beat.wbc = 0 ∧ t.dev.sched.images = [] ∧
      (∀ k, k < 2 ^ 40 ∨ 2 ^ 45 ≤ k → t.mem.get k = s.mem.get k) ∧
      (∀ k, 2 ^ 40 ≤ k → k < 2 ^ 45 → t.mem.get k = 0)

/-- R42, R55, R351, R397: the boot ROM reaches BASE_ON and both host-link halves train; the loss of the reference clock stops the
core clocks and costs the alignment. Neither touches a memory. -/
def Sys2Proof.BaseOnAndClockLossClause : Prop :=
  ∀ s : State,
    (s.mod.fusesRead = true → s.mod.pwrEn = true → s.mod.pwrgood = true → s.mod.resetN = true → s.dev.boot.power = .off →
      Completes .baseOnReached s fun t =>
        t.mod = s.mod ∧ t.mem = s.mem ∧ t.pending = s.pending ∧ t.dev.boot.power = .baseOn ∧
        t.dev.host.halves = s.dev.host.halves.map fun x => { x with state := 1, idleElectric := false }) ∧
    (s.dev.boot.power ≠ .off →
      Completes .spanRefclkLoss s fun t =>
        t.mod = { s.mod with refclk := false } ∧ t.mem = s.mem ∧ t.pending = s.pending ∧
        t.dev.beat.aligned = false ∧ t.dev.beat.alignLost = true ∧ t.dev.beat.clockStopped = true)

/-- R36, R397, R398, R501, R503, R42, R55, R351: the clauses of PowerUpPinsClause and of BaseOnAndClockLossClause together. -/
def Obligations.PinsAndStart : Prop := PowerUpPinsClause ∧ BaseOnAndClockLossClause

/-- The PMBus reads with the bytes that the manual has the stage answer (R507); the summary bits are those of PMBus 1.3 (log 17). -/
def Sys2Proof.pmbusReads (m : Module) : List (Instr × List Byte) :=
  [(.capability, [0xB0]), (.voutMode, [0x14]), (.statusByte, leBytes 1 (statusWord m)), (.statusWord, leBytes 2 (statusWord m)),
   (.statusVout, [m.statVout]), (.statusIout, [m.statIout]), (.statusInput, [m.statInput]),
   (.statusTemperature, [m.statTemp]), (.statusCml, [m.statCml]),
   (.readVin, leBytes 2 m.telVin.toNat), (.readIin, leBytes 2 m.telIin.toNat), (.readVout, leBytes 2 m.telVout.toNat),
   (.readIout, leBytes 2 m.telIout.toNat), (.readTemperature1, leBytes 2 m.telTemp.toNat),
   (.readPout, leBytes 2 m.telPout.toNat), (.readPin, leBytes 2 m.telPin.toNat), (.pmbusRevision, [0x33]),
   (.mfrId, pmbusBlock "GLALUX"), (.mfrModel, pmbusBlock partName), (.mfrSerial, 16 :: serialText)]

/-- R507: while the stage runs, every PMBus read answers its bytes and changes nothing else. -/
def Sys2Proof.PmbusReadsAnswerClause : Prop :=
  ∀ s : State, s.mod.vinOk = true → ∀ p ∈ pmbusReads s.mod,
    exec p.1 s = .next { s with mod := { s.mod with pmbusResp := p.2 } }

/-- R40, R507: a condition of the stage sets its STATUS bit, the bit stays when the condition ends, and CLEAR_FAULTS clears what no
longer holds; the telemetry takes the new values; any other command sets the invalid-command bit. -/
def Sys2Proof.StageStatusClause : Prop :=
  ∀ s : State, s.mod.vinOk = true →
    (∀ c, c ≠ .otFault → (c = .voutUvFault → s.mod.pwrEn = true) →
      Completes (.stageStatusCondition c true) s fun t =>
        t = { s with mod := t.mod } ∧ c ∈ t.mod.liveConds ∧
        (nth [t.mod.statVout, t.mod.statIout, t.mod.statInput, t.mod.statTemp] (stageBit c).1 0).getLsbD (stageBit c).2 = true) ∧
    (∀ c, exec (.stageStatusCondition c false) s =
      .next { s with mod := { s.mod with liveConds := s.mod.liveConds.filter (· != c) } }) ∧
    (s.mod.liveConds = [] → exec .clearFaults s = .next { s with mod := { s.mod with
      statVout := 0, statIout := 0, statInput := 0, statTemp := 0, statCml := 0, pmbusResp := [] } }) ∧
    (∀ vin iin vout iout temp pout pin, exec (.pmbusTelemetryUpdate vin iin vout iout temp pout pin) s =
      .next { s with mod := { s.mod with
        telVin := vin, telIin := iin, telVout := vout, telIout := iout, telTemp := temp, telPout := pout, telPin := pin } }) ∧
    (∀ code, exec (.pmbusInvalidCommand code) s =
      .next { s with mod := { s.mod with statCml := s.mod.statCml ||| 0x80, pmbusResp := [] } })

/-- R507, R40: the clauses of PmbusReadsAnswerClause and of StageStatusClause together. -/
def Obligations.StageAndPmbus : Prop := PmbusReadsAnswerClause ∧ StageStatusClause

/- Beat time. -/

/-- R42, R44, R45: at a beat boundary, once the cores have done what was left of the beat, WBC advances by one, HOLD_ACC advances exactly
when the beat that begins is a hold beat, and stays within 56 bits as WBC does; SBC is WBC minus HOLD_ACC, so that a hold beat carries
the same SBC as the beat before it. The pins stay as they are, and so do the memories where no tile is in a drain path. Without the
reference clock no beat begins. -/
def Obligations.BeatBoundaryCounts : Prop :=
  ∀ s : State, (s.dev.beat.clockStopped = true → exec .beatBoundary s = .next s) ∧
    (s.dev.beat.clockStopped = false → Completes .beatBoundary s fun t =>
      let y := coresToBeatEnd s.work
      MemOf y s t ∧ t.dev.beat.wbc = s.dev.beat.wbc + 1 ∧
      t.dev.beat.holdAcc = s.dev.beat.holdAcc + (if isHoldBeat y.dev.beat (s.dev.beat.wbc + 1) then 1 else 0) ∧
      sbc t.dev = t.dev.beat.wbc - t.dev.beat.holdAcc ∧
      (s.dev.beat.holdAcc ≤ s.dev.beat.wbc → s.dev.beat.wbc + 1 < 2 ^ 56 → t.dev.beat.holdAcc < 2 ^ 56) ∧
      (isHoldBeat y.dev.beat (s.dev.beat.wbc + 1) = true → sbc t.dev = sbc s.dev) ∧
      ((∀ k < 18, (s.work.core k).draining = []) → ErrorFree s.dev → t.mem = s.mem ∧ y.dev.beat = s.dev.beat))

/-- R55, R56, R92: a lone device or a master with no partition RUNNING or HELD takes a beat load, which becomes WBC with HOLD_ACC zero at
a boundary after the order and, unless the device has lost alignment, makes SBC valid; with one RUNNING or HELD the load is refused; a
read of a low half latches the high half of the same count. -/
def Obligations.BeatLoad : Prop :=
  ∀ s : State,
    (∀ v : W32, v.getLsbD 0 = true → (s.dev.beat.role = .lone ∨ s.dev.beat.role = .master) → anyLive s.dev = false →
      exec (.beatLoadCtrlWrite v) s = .next { s with dev := { s.dev with beat := { s.dev.beat with
        loadPending := some (s.dev.beat.loadLo + s.dev.beat.loadHi * 2 ^ 32)
        loadAt := s.dev.beat.wbc
        loadRefused := s.dev.beat.loadRefused && !v.getLsbD 1 } } }) ∧
    (∀ v : W32, v.getLsbD 0 = true → anyLive s.dev = true →
      exec (.beatLoadCtrlWrite v) s = .next { s with dev := { s.dev with beat := { s.dev.beat with loadRefused := true } } }) ∧
    (∀ w, s.dev.beat.loadPending = some w → s.dev.beat.loadAt < s.dev.beat.wbc →
      (s.dev.beat.role = .lone ∨ s.dev.beat.role = .master) → anyLive s.dev = false →
      Completes .beatLoadEffect s fun t => StackOnly s t ∧ t.dev = { s.dev with beat := t.dev.beat } ∧
        t.dev.beat = { s.dev.beat with
          wbc := w, holdAcc := 0, aligned := !s.dev.beat.lossNow, loadPending := none, genHistory := t.dev.beat.genHistory } ∧
        t.dev.beat.genHistory.map Prod.snd = s.dev.beat.genHistory.map Prod.snd) ∧
    (∀ w, s.dev.beat.loadPending = some w → s.dev.beat.wbc ≤ s.dev.beat.loadAt → exec .beatLoadEffect s = .next s) ∧
    (∀ w, s.dev.beat.loadPending = some w → s.dev.beat.loadAt < s.dev.beat.wbc → anyLive s.dev = true →
      exec .beatLoadEffect s = .next { s with dev := { s.dev with beat := { s.dev.beat with loadPending := none, loadRefused := true } } }) ∧
    exec (.beatCountLoRead .wbc) s = .next { s with dev := { s.dev with beat := { s.dev.beat with
      latchWbc := s.dev.beat.wbc / 2 ^ 32 % 2 ^ 24 } } } ∧
    exec (.beatCountLoRead .sbc) s = .next { s with dev := { s.dev with beat := { s.dev.beat with
      latchSbc := sbc s.dev / 2 ^ 32 % 2 ^ 24 } } } ∧
    exec (.beatCountLoRead .holdAcc) s = .next { s with dev := { s.dev with beat := { s.dev.beat with
      latchAcc := s.dev.beat.holdAcc / 2 ^ 32 % 2 ^ 24 } } }

/-- R51, R53, R54, R55: a member takes WBC from every marker of its active upstream port, is aligned after 64
matches with HOLD_ACC from the last marker, and goes into holdover when no configured port carries markers. -/
def Obligations.MemberFollowsMarkers : Prop :=
  ∀ s : State,
    (∀ (p : Port) (m : Marker), s.dev.beat.role = .member → s.dev.beat.holdover = false →
      s.dev.beat.upstream = p → portCarries (s.work.port p) = true → m.term = s.dev.beat.term →
      incOf s.dev m.srcId = m.srcInc → m.srcInc ≠ 0 →
      Completes (.beatMarker p m) s fun t => StackOnly s t ∧
        t.dev = { s.dev with beat := t.dev.beat, span := t.dev.span, host := t.dev.host } ∧
        t.dev.beat.wbc = m.wbc + (s.work.port p).delay ∧ t.dev.beat.hop = m.hop + 1 ∧ t.dev.beat.lastAcc = m.holdAcc ∧
        t.dev.beat.holdAcc = s.dev.beat.holdAcc ∧
        t.dev.beat.matched =
          (if s.dev.beat.wbc = m.wbc + (s.work.port p).delay ∧ m.holdActive = false then s.dev.beat.matched + 1 else 0)) ∧
    (follows s.dev.beat = true → s.dev.beat.aligned = false → s.dev.beat.lossNow = false → 64 ≤ s.dev.beat.matched →
      exec .memberAligned s = .next { s with dev := { s.dev with beat := { s.dev.beat with
        aligned := true
        holdAcc := s.dev.beat.lastAcc + (s.dev.beat.wbc - s.dev.beat.lastMarkWbc - s.dev.beat.lastD) } } }) ∧
    (follows s.dev.beat = true → s.dev.beat.upstream ≠ 15 → s.dev.beat.holdover = false →
      (s.dev.beat.lastMarker.getD 0) + 4 ≤ s.dev.beat.wbc → (∀ p, portCarries (s.work.port p) = false) →
      Completes .markersMissing s fun t => StackOnly s t ∧
        t.dev = { s.dev with host := t.dev.host, beat := { s.dev.beat with holdover := true, holdEpochs := 0 } })

/-- R55: holdover that spans two epoch boundaries, and a phase error of more than 4 core cycles on 4 consecutive markers, cost the
alignment: SBC is no longer valid and every partition of the device enters FAULT_STOP. -/
def Sys2Proof.AlignmentLostClause : Prop :=
  ∀ (s : State) (i : Instr),
    ((i = .holdoverExpiry ∧ s.dev.beat.holdover = true ∧ 2 ≤ s.dev.beat.holdEpochs) ∨
    (i = .phaseErrorExcess ∧ follows s.dev.beat = true ∧ 4 ≤ s.dev.beat.phaseBad)) →
    s.dev.boot.parts.length = 4 →
    Completes i s fun t => StackOnly s t ∧
      t.dev.beat.aligned = false ∧ t.dev.beat.alignLost = true ∧ t.dev.beat.holdover = false ∧
      t.dev.beat.wbc = s.dev.beat.wbc ∧ ∀ q ∈ allParts s.work, partState t.dev q = .faultStop

/-- R44, R55, R71, R73: what happens at an epoch boundary and on a standby: the master forms its mirror, a holdover counts the
epoch, a standby takes the mirror, notices missing markers and takes over with the next term. -/
def Sys2Proof.EpochAndStandbyClause : Prop :=
  ∀ s : State,
    (s.dev.beat.wbc % 2 ^ 20 = 0 → s.dev.beat.role = .master → beatPort s.work 3 < 12 →
      Completes .epochBoundary s fun t => StackOnly s t ∧
        t.dev = { s.dev with span := t.dev.span, beat := { s.dev.beat with
          holdEpochs := t.dev.beat.holdEpochs, mirrorOut := t.dev.beat.mirrorOut } } ∧
        t.dev.beat.holdEpochs = s.dev.beat.holdEpochs + (if s.dev.beat.holdover then 1 else 0) ∧
        ∃ m, t.dev.beat.mirrorOut = some m ∧ m.wbc = s.dev.beat.wbc ∧ m.holdAcc = s.dev.beat.holdAcc ∧
          m.ledger = s.dev.beat.ledger ∧ m.term = s.dev.beat.term ∧
          (s.dev.span.ports.length = 12 → (t.work.port (beatPort s.work 3)).mgmt = (s.work.port (beatPort s.work 3)).mgmt ++
            (mirrorFlits s.work (beatPort s.work 3) m).map fun f => (s.dev.beat.wbc, f)) ∧
          ∀ p, p ≠ beatPort s.work 3 → t.work.port p = s.work.port p) ∧
    (∀ m, s.dev.beat.role = .standby → ledgerDiff s.dev.beat.ledger m.ledger = none →
      exec (.mirror m) s = .next { s with dev := { s.dev with
        beat := { s.dev.beat with mirror := some m }
        fw := { s.dev.fw with sendSession := m.fwSession, sendRound := m.fwRound, progress := m.fwProgress } } }) ∧
    (∀ m w, s.dev.beat.role = .standby → ledgerDiff s.dev.beat.ledger m.ledger = some w →
      Completes (.mirror m) s fun t => StackOnly s t ∧
        t.dev.beat = { s.dev.beat with mirror := some m, ledgerMismatch := true }) ∧
    (s.dev.beat.role = .standby → (s.dev.beat.lastStandbyMarker.getD 0) + 4 ≤ s.dev.beat.wbc →
      exec .standbyMarkersMissing s = .next { s with dev := { s.dev with beat := { s.dev.beat with takeover := true } } }) ∧
    (s.dev.beat.role = .standby → s.dev.beat.takeover = true → s.dev.beat.wbc % 2 ^ 20 = 0 →
      Completes .standbyTakeover s fun t => StackOnly s t ∧
        t.dev.beat = { s.dev.beat with role := .master, term := nextTerm s.dev.beat.term, masterId := s.dev.span.deviceId,
                                       hop := 0, takeover := false, upstream := 15 })

/-- R44, R55, R71, R73: the clauses of EpochAndStandbyClause and of AlignmentLostClause together. -/
def Obligations.FollowingTime : Prop := EpochAndStandbyClause ∧ AlignmentLostClause

/- Holds. -/

/-- R61, R63: a request that is neither stale nor a duplicate joins its hold point when the point is at least 64 beats ahead; one
that is nearer costs the alignment. -/
def Sys2Proof.HoldRequestJoinsClause : Prop :=
  ∀ (s : State) (p : Port) (r : HoldRec), isStale s.dev r.reqId r.reqInc = false →
    isDuplicate s.dev.beat 2 r.reqId r.reqInc r.reqSeq = false → (s.work.port p).state ≠ .paused →
    (s.dev.beat.wbc + 64 ≤ r.holdWbc → Completes (.holdRequest p r) s fun t => StackOnly s t ∧
      t.dev = { s.dev with beat := t.dev.beat, span := t.dev.span } ∧
      (∃ h ∈ t.dev.beat.points, h.w = r.holdWbc ∧ ⟨r.reqId, r.reqInc, r.reqSeq, r.holdLen, r.cause⟩ ∈ h.reqs ∧
        (h.closed = true → h.len = combined h.reqs)) ∧
      (∀ h, h.w ≠ r.holdWbc → (h ∈ t.dev.beat.points ↔ h ∈ s.dev.beat.points)) ∧
      t.dev.beat.wbc = s.dev.beat.wbc ∧ t.dev.beat.holdAcc = s.dev.beat.holdAcc) ∧
    (r.holdWbc < s.dev.beat.wbc + 64 → Completes (.holdRequest p r) s fun t => StackOnly s t ∧
      t.dev.beat.holdLate = true ∧ t.dev.beat.aligned = false)

/-- R62, R65, R66, R72: at its close a hold point takes the largest length of its requests (an open hold is larger than any); a master,
and a standby for itself, also writes the ledger entry of the point. -/
def Sys2Proof.HoldPointClosesClause : Prop :=
  ∀ (s : State) (w : Nat) (p : HoldPoint),
    s.dev.beat.points.find? (fun x => x.w == w && !x.closed) = some p → p.reqs ≠ [] → w ≤ s.dev.beat.wbc + 64 →
    Completes (.holdPointClose w) s fun t => StackOnly s t ∧
      t.dev = { s.dev with beat := t.dev.beat, span := t.dev.span } ∧
      (∀ x ∈ t.dev.beat.points, x.w = w → x.closed = true ∧ x.len = combined x.reqs) ∧
      (∀ x, x.w ≠ w → (x ∈ t.dev.beat.points ↔ x ∈ s.dev.beat.points)) ∧
      (s.dev.beat.role = .master ∨ s.dev.beat.role = .standby → ∃ e ∈ t.dev.beat.ledger, e.index = s.dev.beat.ledgerNext ∧ e.holdWbc = w ∧
        e.holdLen = combined p.reqs ∧ e.reqCount = p.reqs.length) ∧
      (s.dev.beat.role ≠ .master → s.dev.beat.role ≠ .standby → t.dev.beat.ledger = s.dev.beat.ledger)

/-- R62: the combined length of requests is at least every request's, and one of them has it; an open hold counts as larger than
any length. -/
def Sys2Proof.CombinedIsLargestClause : Prop :=
  ∀ reqs : List HoldReq, reqs ≠ [] → (∀ r ∈ reqs, r.len ≤ 65535) →
    (∀ r ∈ reqs, lenKey r.len ≤ lenKey (combined reqs)) ∧
    (∃ r ∈ reqs, r.len = combined reqs)

/-- R62, R65, R66: the clauses of HoldPointClosesClause and of CombinedIsLargestClause together. -/
def Obligations.HoldPointsClose : Prop := HoldPointClosesClause ∧ CombinedIsLargestClause

/-- R66, R67: a confirmation that agrees marks its point; a missing one is flagged; a release ends the open point that it names;
a point that starts is marked, and an open hold puts every RUNNING partition in HELD. -/
def Sys2Proof.HoldRecordsActClause : Prop :=
  ∀ s : State,
    (∀ (p : Port) (r : HoldRec), isStale s.dev r.reqId r.reqInc = false →
      isDuplicate s.dev.beat 3 r.reqId r.reqInc r.reqSeq = false → ownLen s.dev.beat r.holdWbc = some r.holdLen →
      Completes (.holdConfirmation p r) s fun t => StackOnly s t ∧
        (∀ x ∈ t.dev.beat.points, x.w = r.holdWbc → x.confirmed = true ∧ x.index = some r.ledgerIndex) ∧
        t.dev.beat.ledgerMismatch = s.dev.beat.ledgerMismatch) ∧
    (∀ (p : Port) (r : HoldRec), isStale s.dev r.reqId r.reqInc = false →
      isDuplicate s.dev.beat 3 r.reqId r.reqInc r.reqSeq = false → ownLen s.dev.beat r.holdWbc ≠ some r.holdLen →
      Completes (.holdConfirmation p r) s fun t => StackOnly s t ∧ t.dev.beat.ledgerMismatch = true) ∧
    (∀ (p : Port) (r : HoldRec) (h : HoldPoint), isStale s.dev r.reqId r.reqInc = false →
      isDuplicate s.dev.beat 4 r.reqId r.reqInc r.reqSeq = false → s.dev.beat.wbc + 64 ≤ r.holdWbc →
      releasedPoint s.dev.beat r.ledgerIndex = some h →
      Completes (.holdRelease p r) s fun t => StackOnly s t ∧
        (∀ x ∈ t.dev.beat.points, x.w = h.w → x.release = some r.holdWbc) ∧
        (∀ e ∈ t.dev.beat.ledger, e.holdWbc = h.w → e.releaseWbc = r.holdWbc)) ∧
    (∀ (w : Nat) (h : HoldPoint), h ∈ s.dev.beat.points → h.w = w → h.closed = true → h.confirmed = false →
      h.missing = false → w + propBeats s.work ≤ s.dev.beat.wbc →
      Completes (.confirmMissing w) s fun t => StackOnly s t ∧ t.dev.beat.confirmMissing = true ∧
        t.dev = { s.dev with beat := t.dev.beat, host := t.dev.host } ∧ t.dev.host.evtSeq = s.dev.host.evtSeq + 1) ∧
    (∀ (w : Nat) (h : HoldPoint), h ∈ s.dev.beat.points → h.w = w → h.closed = true → h.started = false →
      h.len = 0 → h.release = none → w ≤ s.dev.beat.wbc →
      Completes (.holdPointStart w) s fun t => StackOnly s t ∧
        (∀ x ∈ t.dev.beat.points, x.w = w → x.closed = true → x.started = true) ∧
        (∀ q : Part, partState s.dev q = .running → partState t.dev q = .held))

/-- R61, R63, R66, R67: the clauses of HoldRequestJoinsClause and of HoldRecordsActClause together. -/
def Obligations.HoldRequests : Prop := HoldRequestJoinsClause ∧ HoldRecordsActClause

/- Steps. -/

/-- The step kinds that read no memory as they issue: code and command. -/
def Sys2Proof.plainSteps (col : Col) (cyc : Nat) : List (Nat × Instr) :=
  [(3, .lane col cyc), (7, .spanSend col cyc), (8, .spanRecv col cyc), (9, .reduce col cyc), (12, .wait col cyc), (13, .hint col cyc)]

/-- The step kinds that work on memory as they issue. -/
def Sys2Proof.dataSteps (col : Col) (cyc : Nat) : List (Nat × Instr) :=
  [(1, .matmul col cyc), (4, .dmaMove col cyc), (5, .dmaGather col cyc), (6, .dmaScatter col cyc), (10, .rowop col cyc)]

/-- The step kinds that take a preparation. -/
def Sys2Proof.preparedSteps (col : Col) (cyc : Nat) : List (Nat × Instr) :=
  [(2, .attend col cyc), (11, .sketch col cyc), (14, .append col cyc)]

/-- R150, R165, R166, R173, R179: a LANE, SPAN_SEND, SPAN_RECV, REDUCE, WAIT or HINT step issues in its cycle, its lane program
starts, its flow is armed, or (HINT) it has reached its end; from its core as the cycle finds it on, no memory and no other core changes. -/
def Sys2Proof.PlainStepsIssueClause : Prop :=
  ∀ (s : State) (col : Col) (cyc : Nat) (x : StepCtx) (p : Nat × Instr), p ∈ plainSteps col cyc → IssuesAs s p.1 col cyc x →
    let y := coreAtIssue s.work x
    Completes p.2 s fun t => CoresOnly y s t ∧
      InFlightSince t x p.1 (cycNow y.dev cyc) ∧ WentPast y t x ∧
      (p.1 = 3 → (t.work.core x.site).vec.step = some x.index ∧ (t.work.core x.site).vec.pc = 0 ∧
        (t.work.core x.site).vec.halted = false) ∧
      (7 ≤ p.1 ∧ p.1 ≤ 9 → ∃ f ∈ (t.work.core x.site).flows, f.index = x.index ∧ f.flow = flowOf x.d ∧
        f.flits = flitsOf x.d ∧ f.addr = flowAddr x.d ∧ f.placed = [] ∧ (f.send = true ↔ p.1 = 7)) ∧
      (p.1 = 13 → ∃ st ∈ (t.work.core x.site).steps, st.index = x.index ∧ st.endAt = some (cycNow y.dev cyc)) ∧
      (∀ k, k ≠ x.site → t.work.core k = y.core k)

/-- Every row that a ROWOP names lies in an Open granule (R262). -/
def Sys2Proof.rowsOpen (y : Sys) (x : StepCtx) : Prop :=
  ∀ k < roCount x.d, ∀ a ∈ roRows x.d k, isOpen y x.col (granuleOf (a % colBytes)) = true

/-- R150, R160, R174, R177, R262: with no stored error, a MATMUL, a DMA step or a ROWOP on Open rows issues in its cycle and is in
flight; a ROWOP with a row in a Protected granule is refused as a whole and goes by. -/
def Sys2Proof.DataStepsIssueClause : Prop :=
  ∀ (s : State) (col : Col) (cyc : Nat) (x : StepCtx) (p : Nat × Instr), p ∈ dataSteps col cyc → IssuesAs s p.1 col cyc x →
    let y := coreAtIssue s.work x
    ErrorFree y.dev →
    Completes p.2 s fun t => KeepsPins s t ∧ WentPast y t x ∧
      (p.1 ≠ 10 ∨ rowsOpen y x → InFlightSince t x p.1 (cycNow y.dev cyc)) ∧
      (p.1 = 10 → ¬ rowsOpen y x → t.mem = y.mem ∧ t.dev.prot.rlRefused = sat32 (y.dev.prot.rlRefused + 1) ∧
        (t.work.core x.site).steps = (y.core x.site).steps) ∧
      (p.1 = 1 → CoresOnly y s t ∧ (t.work.core x.site).accKept = mmKeep x.d ∧
        (t.work.core x.site).tiles.length = (y.core x.site).tiles.length + (if mmKeep x.d then 0 else mmTiles x.d))

/-- R42, R101, R104, R453: a core without a tile in its drain path comes to a cycle of the present beat without touching a memory, another
core or anything else but the held cycles that it counts. -/
def Sys2Proof.CoreTimePassesClause : Prop :=
  ∀ (s : State) (k cyc : Nat), (s.work.core k).draining = [] → ErrorFree s.dev →
    let y := advanceCore cyc s.work k
    y.mem = s.mem ∧ y.dev = { s.dev with cores := y.dev.cores, power := y.dev.power } ∧ (∀ j, j ≠ k → y.core j = s.work.core j) ∧
      (y.core k).draining = [] ∧ (y.core k).nextIndex = (s.work.core k).nextIndex ∧ (y.core k).tiles.length = (s.work.core k).tiles.length

/-- R150, R165, R166, R173, R179, R160, R174, R177, R262, R101: the clauses of PlainStepsIssueClause, of DataStepsIssueClause and of
CoreTimePassesClause together. -/
def Obligations.StepsIssue : Prop := PlainStepsIssueClause ∧ DataStepsIssueClause ∧ CoreTimePassesClause

/-- R201, R202, R217: a step of a prepared kind whose preparation has finished without an error takes it and goes on. -/
def Obligations.PreparedStepsIssue : Prop :=
  ∀ (s : State) (col : Col) (cyc : Nat) (x : StepCtx) (p : Nat × Instr) (q : Prep), p ∈ preparedSteps col cyc →
    IssuesAs s p.1 col cyc x →
    let y := coreAtIssue s.work x
    ErrorFree y.dev → (y.core x.site).prep = some q → q.index = x.index % 2 ^ 32 → q.finished = true → q.failed = false →
    Completes p.2 s fun t => KeepsPins s t ∧ WentPast y t x ∧
      (p.1 = 2 → atMaxPages x.d ≠ 0 →
        (∃ a, (t.work.core x.site).attend = some a ∧ a.step = x.index ∧ a.next = 0) ∧
        ∃ st ∈ (t.work.core x.site).steps, st.index = x.index ∧ st.pages = q.descs ∧ st.done = false ∧ st.waitPrep = false) ∧
      (p.1 ≠ 2 → InFlightSince t x p.1 (cycNow y.dev cyc))

/-- R70, R187: a step of any kind whose issue cycle finds an engine busy or a replay running is a missed start: it is counted, its
partition stops, and nothing is written. -/
def Sys2Proof.MissedStartClause : Prop :=
  ∀ (s : State) (col : Col) (cyc : Nat) (x : StepCtx) (p : Nat × Instr),
    p ∈ plainSteps col cyc ++ dataSteps col cyc ++ preparedSteps col cyc →
    issueNow s.work col cyc = some x → opOf x.d = p.1 →
    let y := coreAtIssue s.work x
    x.site < y.dev.cores.length → y.dev.boot.parts.length = 4 → colAt y.dev x.site = some col.val → partOfSite y x.site = some x.part →
    (issueNow y col cyc).isSome = true →
    ((y.core x.site).replay ≠ none ∨ ∃ g ∈ enginesOf x.d, engineBusy (y.core x.site) (cycNow y.dev cyc) g = true) →
    Completes p.2 s fun t => MemOf y s t ∧
      (t.work.core x.site).missed = sat16 ((y.core x.site).missed + 1) ∧
      (t.work.core x.site).steps = [] ∧ partState t.dev x.part = .faultStop ∧
      t.dev.beat.wbc = s.dev.beat.wbc ∧ t.dev.noc = { y.dev.noc with sites := t.dev.noc.sites }

/-- R152, R157, R158: a step whose work is done reaches its end in the cycle, and is late when its nominal end is past; of a
SPAN_SEND or SPAN_RECV the flow is no longer armed, and its COUNT is the flits moved. A REDUCE combines first: it ends in the same way,
unless the check of its converter raises a fault. -/
def Sys2Proof.StepsEndClause : Prop :=
  ∀ (s : State) (col : Col) (i cyc : Nat) (st : StepRun) (x : StepCtx),
    let site := siteOf s.dev col
    let k := stepKey (s.work.core site) i
    let y := formFlags (Reached s col cyc) site (s.dev.beat.wbc * 64 + cyc + 1)
    liveStep (y.core site) k = some st → liveCtx y site k cyc = some x → st.endAt = none → y.dev.beat.wbc = s.dev.beat.wbc →
    readyToEnd y x st (s.dev.beat.wbc * 64 + cyc) = true → (y.core site).replay = none →
    (st.op ≠ 9 → Completes (.stepEnd col i cyc) s fun t => CoresOnly y s t ∧
      (∃ st', liveStep (t.work.core site) k = some st' ∧ st'.endAt = some (s.dev.beat.wbc * 64 + cyc) ∧
        (st'.late = true ↔ st.late = true ∨ st.nominalEnd < s.dev.beat.wbc * 64 + cyc) ∧
        (st.op = 7 ∨ st.op = 8 → st'.count = flitsMoved (y.core site) k)) ∧
      (st.op = 7 ∨ st.op = 8 → ∀ f ∈ (t.work.core site).flows, f.index ≠ k)) ∧
    (st.op = 9 → ErrorFree y.dev → Completes (.stepEnd col i cyc) s fun t => KeepsPins s t ∧
      ((∃ st', liveStep (t.work.core site) k = some st' ∧ st'.endAt = some (s.dev.beat.wbc * 64 + cyc)) ∨
        (t.work.core site).replay ≠ none ∨ y.dev.faults.frSeq < t.dev.faults.frSeq))

/-- R152, R185, R187: a step that has ended and whose checks have passed completes with OUTCOME DONE; its record goes out for
STATUS_ALWAYS or a detail, and nothing of it is held any more. -/
def Sys2Proof.StepsCompleteClause : Prop :=
  ∀ (s : State) (col : Col) (i cyc : Nat) (st : StepRun),
    let site := siteOf s.dev col
    let k := stepKey (s.work.core site) i
    liveStep (s.work.core site) k = some st →
    (s.work.core site).replay = none → checksPassed s.work col st (s.dev.beat.wbc * 64 + cyc) = true →
    awaitsProducer s.work col st = false → ErrorFree s.dev → s.dev.host.filter = [] → s.dev.host.txns = [] →
    Completes (.stepComplete col i cyc) s fun t => KeepsPins s t ∧
      (∃ st' ∈ (t.work.core site).steps, st'.index = k ∧ st'.done = true ∧ st'.outcome = some 0 ∧ st'.held = []) ∧
      liveStep (t.work.core site) k = none ∧
      (st.held = [] → t.mem = s.mem ∧
        t.dev = { s.dev with cores := t.dev.cores, host := t.dev.host, noc := { s.dev.noc with sites := t.dev.noc.sites } } ∧
        (site ∉ s.dev.noc.fenced → t.dev.noc = s.dev.noc) ∧
        (bitAt (fld st.desc 1 1) 4 = true → t.dev.host.stsOut.length = s.dev.host.stsOut.length + 1))

/-- R152, R157, R158, R185, R187: the clauses of StepsEndClause and of StepsCompleteClause together. -/
def Obligations.StepsFinish : Prop := StepsEndClause ∧ StepsCompleteClause

/-- R333, R280: a flow whose last beat passes with flits missing ends its step with BUS_ERROR, with a fault record, and stops its
partition. -/
def Sys2Proof.FlowExpiresClause : Prop :=
  ∀ (s : State) (col : Col) (i cyc q : Nat) (st : StepRun) (f : FlowArm),
    let site := siteOf s.dev col
    let k := stepKey (s.work.core site) i
    liveStep (s.work.core site) k = some st →
    (s.work.core site).flows.find? (fun f => f.index == k && !f.send) = some f →
    (f.lastBeat < sbc s.dev ∨ (sbc s.dev = f.lastBeat ∧ 28 ≤ cyc)) → f.placed.length < f.flits →
    partOfSite s.work site = some q → s.dev.boot.parts.length = 4 →
    Completes (.flowLastBeatExpiry col i cyc) s fun t => StackOnly s t ∧ partState t.dev q = .faultStop ∧
      liveStep (t.work.core site) k = none ∧ s.dev.faults.frSeq < t.dev.faults.frSeq

/-- R70, R187, R333, R280: the clauses of MissedStartClause and of FlowExpiresClause together. -/
def Obligations.StartsAndFlowsLost : Prop := MissedStartClause ∧ FlowExpiresClause

/-- R150, R244, R280: a descriptor is fetched ahead of its beat, through the bank that holds it. -/
def Sys2Proof.DescriptorFetchClause : Prop :=
  ∀ (s : State) (col : Col) (q a n key : Nat) (i : Image) (r : PartRun), columnRun s.work col = some (q, i, r) →
    i.secAt 1 col = some (a, n) → partLive s.dev q = true → ErrorFree s.dev →
    let site := siteOf s.dev col
    let idx := (s.work.core site).nextIndex + (s.work.core site).fetched.length
    64 * idx < n → addrKey s.dev (a + 64 * idx) = some key → key % 64 = 0 → site < s.dev.cores.length →
    (s.work.bank (bankId (key / 2 ^ 34) (tileOf (key % 2 ^ 34)) (bankOf (key % 2 ^ 34)))).waiting = [] →
    Completes (.stepDescriptorFetch col) s fun t => StackOnly s t ∧ t.dev = { s.dev with cores := t.dev.cores, prot := t.dev.prot } ∧
      (t.work.core site).fetched = (s.work.core site).fetched ++ [(idx, s.work.getN key 64)]

/-- R187, R315, R317, R377, R378, R492, R493: a status record that arrives goes to the ring of its partition with room, a fault record into
the event queue, and one that a stop on its way finds with a parity error is lost and counted at that stop. -/
def Sys2Proof.RecordsReachClause : Prop :=
  ∀ (s : State) (r : SentRecord) (rest : List SentRecord),
    (r.src < 18 → siteInc s.dev r.src = some r.inc) →
    (∀ (g : StsRing), s.dev.host.stsOut = r :: rest → r.data ≠ [] → s.dev.sched.rings[r.part]? = some g → g.records ≠ 0 →
      ringFull g.records g.produced g.consumer = false →
      Completes (.stepStatusRecord none) s fun t => StackOnly s t ∧ t.dev.host.stsOut = rest ∧
        t.dev.sched.rings = s.dev.sched.rings.set r.part { g with produced := g.produced + 1 } ∧
        ∃ a ∈ t.dev.host.accs, a.write = true ∧ a.use = .stsRecord r.part) ∧
    (s.dev.host.faultOut = r :: rest → s.dev.host.queue.length < 1024 →
      exec (.faultRecord none) s = .next { s with dev := { s.dev with host := { s.dev.host with
        faultOut := rest, queue := s.dev.host.queue ++ [⟨r.data, true⟩] } } }) ∧
    (s.dev.host.faultOut = r :: rest → 1024 ≤ s.dev.host.queue.length → (∀ e ∈ s.dev.host.queue, e.isFault = true) →
      exec (.faultRecord none) s = .next { s with dev := { s.dev with host := { s.dev.host with
        faultOut := rest, evtDropped := sat32 (s.dev.host.evtDropped + 1), ringDropped := s.dev.host.ringDropped + 1 } } }) ∧
    (∀ f : Site, r.src < 18 → (messageWay s.work r.src 24).contains f.val = true → f.val < s.dev.noc.sites.length →
      (s.dev.host.stsOut = r :: rest → Completes (.stepStatusRecord (some f)) s fun t => StackOnly s t ∧
        t.dev = { s.dev with host := { s.dev.host with stsOut := rest }, noc := t.dev.noc } ∧
        (nth t.dev.noc.sites f {}).shuttleErr = sat32 ((nth s.dev.noc.sites f {}).shuttleErr + 1) ∧
        (nth t.dev.noc.sites f {}).lostStatus = (nth s.dev.noc.sites f {}).lostStatus + 1) ∧
      (s.dev.host.faultOut = r :: rest → Completes (.faultRecord (some f)) s fun t => StackOnly s t ∧
        t.dev = { s.dev with host := { s.dev.host with faultOut := rest }, noc := t.dev.noc } ∧
        (nth t.dev.noc.sites f {}).shuttleErr = sat32 ((nth s.dev.noc.sites f {}).shuttleErr + 1) ∧
        (nth t.dev.noc.sites f {}).lostFault = (nth s.dev.noc.sites f {}).lostFault + 1))

/-- R315, R317: every flit of a message passes the parity check, and a flit with one bit of its payload or of its checked sideband changed
does not. -/
def Sys2Proof.ShuttleFlitsSoundClause : Prop :=
  ∀ (m : ShuttleMsg), m.cls < 8 → m.dest < 32 → m.src < 32 → m.inc < 256 → ∀ f ∈ messageFlits m,
    flitSound f = true ∧ f.payload.length = 8 ∧
    (∀ k < 8, ∀ i < 8, flitSound { f with payload := upd f.payload k (· ^^^ BitVec.ofNat 8 (2 ^ i)) } = false) ∧
    (∀ i < 24, flitSound { f with sideband := f.sideband ^^^ BitVec.ofNat 40 (2 ^ i) } = false)

/-- R150, R187, R315, R317, R377, R378, R492, R493: the clauses of DescriptorFetchClause, of RecordsReachClause and of
ShuttleFlitsSoundClause together. -/
def Obligations.RecordsArrive : Prop := DescriptorFetchClause ∧ RecordsReachClause ∧ ShuttleFlitsSoundClause

/- The matrix array, the buffer tile and replay. -/

/-- R95, R96, R184, R279: a line write stores exactly its masked bytes in the buffer, from its offset to the end of the line, and
leaves every other byte of every memory as the core left it that was brought to the cycle of the write. -/
def Obligations.BufferLineWriteStores : Prop :=
  ∀ (s : State) (col : Col) (w : LineWriter) (a : Timed Nat) (data : List Byte) (mask : List Bool),
    let y := Reached s col a.cyc
    let at0 := bufKey (siteOf y.dev col) a.val
    s.mem.wf = true → ErrorFree y.dev → siteOf y.dev col = siteOf s.dev col → col < y.dev.map.n → y.dev.map.n ≤ 16 → a.val < bufBytes →
    data.length = mask.length →
    Completes (.bufferLineWrite col w a data mask) s fun t => KeepsPins s t ∧ ErrorFree t.dev ∧
      ∀ k, t.mem.get k =
        if at0 ≤ k ∧ k < at0 + min data.length (256 - a.val % 256) ∧ nth mask (k - at0) false = true then nth data (k - at0) 0 else y.mem.get k

/-- R95, R97, R100, R275, R278: a feeder asks for its next line while its queue has room for four vectors; a bank that has served no read in
the cycle serves one of its waiting reads, which a feeder's line enters its queue by; a corrected line is written back. No memory byte
changes. -/
def Sys2Proof.FeedersAndBanksClause : Prop :=
  ∀ (s : State) (col : Col) (cyc : Nat),
    let y := Reached s col cyc
    let site := siteOf s.dev col
    let c := y.core site
    let now := cycNow y.dev cyc
    siteOf y.dev col = site →
    (∀ (side : FeederSide) (q : Nat) (p : StepRun × LineRead), feedStep c side q = some p → q < 64 →
      (side = .warpScale ∨ side = .weftScale ∨ (queueFill c now side q).2 ≤ 12) →
      Completes (.feederLineRequest col side ⟨q, cyc⟩) s fun t => CoresOnly y s t ∧
        (t.work.core site).reads = c.reads ++ [(.feeder side q, p.2.at0 / 256)] ∧
        ∃ st ∈ (t.work.core site).steps, st.index = p.1.index ∧
          askedLines st side q = askedLines p.1 side q ++ [⟨side, q, (askedLines p.1 side q).length, none⟩]) ∧
    (∀ (side : FeederSide) (q : Nat), side ≠ .warpScale → side ≠ .weftScale → 12 < (queueFill c now side q).2 →
      Completes (.feederLineRequest col side ⟨q, cyc⟩) s fun t => MemOf y s t ∧ t.dev = y.dev) ∧
    (∀ (bank : Nat) (r : LineReader × Nat), grantedRead c now bank = some r → ErrorFree y.dev →
      (bankServed c now bank = true → Completes (.bufferBankReadGrant col ⟨bank, cyc⟩ []) s fun t => MemOf y s t ∧ t.dev = y.dev) ∧
      (bankServed c now bank = false → Completes (.bufferBankReadGrant col ⟨bank, cyc⟩ []) s fun t => CoresOnly y s t ∧
        (t.work.core site).reads = c.reads.erase r ∧ lineBank r.2 = bank ∧ bankServed (t.work.core site) now bank = true ∧
        ∀ side q p, r.1 = .feeder side q → waitingLine c side q = some p →
          ∃ st ∈ (t.work.core site).steps, st.index = p.1.index ∧ { p.2 with granted := some now } ∈ st.lines)) ∧
    (∀ w, s.dev.prot.writeBacks.find? (fun w => w.site == site) = some w →
      Completes (.bufferWriteBack col) s fun t => StackOnly s t ∧ t.dev = { s.dev with prot := t.dev.prot } ∧
        t.dev.prot.writeBacks = s.dev.prot.writeBacks.erase w ∧
        (∀ e ∈ s.dev.prot.bufErr, 2 ≤ e.2.length → e ∈ t.dev.prot.bufErr))

/-- R101, R104, R107, R162: the next completed tile begins to drain when it is due and 64 cycles after the one before it, and not before;
its rows reach the vector unit one a cycle. A drained row enters the vector unit's stream where a place is free, its wait counted, waits
where the stream is full, and is dropped after HALT. -/
def Sys2Proof.DrainPathClause : Prop :=
  ∀ (s : State) (col : Col) (cyc : Nat),
    let y := Reached s col cyc
    let site := siteOf s.dev col
    let c := y.core site
    let now := cycNow y.dev cyc
    siteOf y.dev col = site →
    (∀ (tl : Tile) (rest : List Tile) (st : StepRun) (x : StepCtx), c.tiles = tl :: rest → liveStep c tl.index = some st →
      liveCtx y site tl.index 0 = some x →
      let due := tileDue st c.spareStage tl.t
      let start := match c.lastDrain with
        | some l => max due (l + 64)
        | none => due
      (now < due ∨ (∃ l, c.lastDrain = some l ∧ now < l + 64) ∨ waitsForLine c.skew st now = true →
        Completes (.tileDrain col [] cyc) s fun t => MemOf y s t ∧ t.dev = y.dev) ∧
      (start ≤ now → waitsForLine c.skew st now = false → c.draining = [] → ErrorFree y.dev →
        Completes (.tileDrain col [] cyc) s fun t => KeepsPins s t ∧
          (t.work.core site).tiles = rest ∧ (t.work.core site).lastDrain = some start ∧
          (mmToVector x.d = true → c.vec.step = some tl.index → c.vec.halted = false → CoresOnly y s t ∧
            (t.work.core site).rows = c.rows ++ ((List.range 64).filter fun i => decide (start + i ≤ now)).map fun i =>
              (start + i, (tl.c.drop (64 * i)).take 64)))) ∧
    (∀ (r : Nat × List F32) (rest : List (Nat × List F32)) (i : Nat), c.rows = r :: rest → c.vec.step = some i → c.vec.halted = false →
      (r.1 ≤ now → c.vec.stream.length < 16 → Completes (.drainRowEnterStream col cyc) s fun t => CoresOnly y s t ∧
        (t.work.core site).vec.stream = c.vec.stream ++ [r.2] ∧ (t.work.core site).rows.length = rest.length ∧
        (t.work.core site).drainStall = sat32 (c.drainStall + (now - r.1))) ∧
      (now < r.1 ∨ 16 ≤ c.vec.stream.length →
        Completes (.drainRowEnterStream col cyc) s fun t => MemOf y s t ∧ t.dev = y.dev)) ∧
    (∀ r rest, c.rows = r :: rest → c.vec.halted = true →
      Completes (.drainRowEnterStream col cyc) s fun t => CoresOnly y s t ∧ (t.work.core site).rows = rest ∧
        (t.work.core site).vec = c.vec)

/-- R95, R97, R100, R101, R104, R107, R162, R275, R278: the clauses of FeedersAndBanksClause and of DrainPathClause together. -/
def Obligations.ArrayFeedsAndDrains : Prop := FeedersAndBanksClause ∧ DrainPathClause

/-- R115, R116, R118: the oldest drained tile is compared. A tile with a product out of range is skipped and counted, one that passes
is counted, one that fails is counted as a failure and makes a replay or a fault record. -/
def Obligations.CheckCompares : Prop :=
  ∀ (s : State) (col : Col) (cyc : Nat) (tl : Tile) (rest : List Tile) (st : StepRun),
    let y := Reached s col cyc
    let site := siteOf s.dev col
    let c := y.core site
    siteOf y.dev col = site → c.drained = tl :: rest → liveStep c tl.index = some st →
    (tl.range = true → Completes (.arrayCheckCompare col cyc) s fun t => CoresOnly y s t ∧
      (t.work.core site).drained = rest ∧ (t.work.core site).checkSkipped = sat32 (c.checkSkipped + 1) ∧
      (t.work.core site).checkCount = c.checkCount) ∧
    (tl.range = false → (compareTile (checkTol st.desc) tl).fails = 0 →
      Completes (.arrayCheckCompare col cyc) s fun t => CoresOnly y s t ∧
      (t.work.core site).drained = rest ∧ (t.work.core site).checkCount = sat32 (c.checkCount + 1) ∧
      (t.work.core site).checkFail = c.checkFail) ∧
    (tl.range = false → (compareTile (checkTol st.desc) tl).fails ≠ 0 →
      Completes (.arrayCheckCompare col cyc) s fun t => MemOf y s t ∧
      (t.work.core site).checkFail = sat32 (c.checkFail + 1) ∧
      ((t.work.core site).replay ≠ none ∨ y.dev.faults.frSeq < t.dev.faults.frSeq))

/-- R283, R318, R487, R489: in a replay the next member issues again when its time has come and its engines are free; when every member has
passed its checks the replay ends and the members complete with OUTCOME corrected; a spoiled retention record fails the attempt; after a second failed attempt a fence order is sent for
the column and its partition stops. -/
def Obligations.ReplayProceeds : Prop :=
  ∀ (s : State) (col : Col) (cyc : Nat) (r : Replay),
    let site := siteOf s.dev col
    (∀ (m : Nat × Nat) (st : StepRun) (x : StepCtx) (spoiled : Option Nat),
      let y := Reached s col cyc
      siteOf y.dev col = site → (y.core site).replay = some r → ErrorFree y.dev →
      r.failed = false → r.members.find? (fun m => !r.reissued.contains m.1) = some m →
      liveStep (y.core site) m.1 = some st → liveCtx y site m.1 cyc = some x →
      m.1 = r.p → r.faultAt + 2 ≤ cycNow y.dev cyc →
      (∀ g ∈ enginesOf st.desc, engineBusy (y.core site) (cycNow y.dev cyc) g = false) →
      Completes (.replayReissue col ⟨spoiled, cyc⟩) s fun t => KeepsPins s t ∧
        (∃ r', (t.work.core site).replay = some r' ∧ r'.reissued = r.reissued ++ [m.1] ∧ (spoiled.isSome = true → r'.failed = true)) ∧
        ∃ st', liveStep (t.work.core site) m.1 = some st' ∧ st'.issueAt = cycNow y.dev cyc ∧ st'.replays = r.attempt) ∧
    ((s.work.core site).replay = some r → ErrorFree s.dev → r.failed = false → r.members.all (fun m => r.reissued.contains m.1) = true →
      s.dev.host.filter = [] → s.dev.host.txns = [] →
      (∀ m ∈ r.members, ∃ st, liveStep (s.work.core site) m.1 = some st ∧ checksPassed s.work col st (s.dev.beat.wbc * 64 + cyc) = true) →
      Completes (.replayEnd col cyc) s fun t => KeepsPins s t ∧ (t.work.core site).replay = none ∧
        ∀ m ∈ r.members, liveStep (t.work.core site) m.1 = none ∧
          ∃ st' ∈ (t.work.core site).steps, st'.index = m.1 ∧ st'.outcome = some 1 ∧ st'.replays = r.attempt) ∧
    ((s.work.core site).replay = some r → r.failed = true → 2 ≤ r.attempt →
      Completes (.replayEnd col cyc) s fun t => StackOnly s t ∧ (t.work.core site).replay = none ∧
        (⟨site, 0, 2⟩ : FenceMsg) ∈ t.dev.noc.fences ∧ (∀ m ∈ r.members, liveStep (t.work.core site) m.1 = none) ∧
        (∀ q, partOfSite s.work site = some q → s.dev.boot.parts.length = 4 → partState t.dev q = .faultStop))

/- The vector unit. -/

/-- The arithmetic lane instructions with OP, command and the 256 results that they leave in VD, for an instruction that finds a
vector unit `u` (R168 to R170). -/
def Sys2Proof.laneResults (col : Col) (cyc : Nat) (k : LaneCtx) (u : VecUnit) : List (Nat × Instr × List F32) :=
  let a := vreg u k.ins.va
  let b := vreg u k.ins.vb
  let c := vreg u k.ins.vc
  let one := fun (f : F32 → F32) => a.map f
  let two := fun (f : F32 → F32 → F32) => List.zipWith f a b
  let three := fun (f : F32 → F32 → F32 → F32) => List.zipWith (fun (p : F32 × F32) z => f p.1 p.2 z) (List.zip a b) c
  let m := k.ieee
  [(0x0B, .laneSplat col none cyc, List.replicate 256 (canon (BitVec.ofNat 32 k.ins.imm))),
   (0x10, .laneAdd col none cyc, two fun p q => (laneAddFn m p q).1), (0x11, .laneSub col none cyc, two fun p q => (laneSubFn m p q).1),
   (0x12, .laneMul col none cyc, two fun p q => (laneMulFn m p q).1),
   (0x13, .laneFma col none cyc, three fun p q r => (laneFmaFn m p q r).1),
   (0x14, .laneMax col none cyc, two fun p q => (laneMaxFn m p q).1), (0x15, .laneMin col none cyc, two fun p q => (laneMinFn m p q).1),
   (0x16, .laneAbs col none cyc, one laneAbsFn), (0x17, .laneNeg col none cyc, one laneNegFn),
   (0x18, .laneScale col none cyc, one fun p => (laneScaleFn m (sext 32 k.ins.imm) p).1),
   (0x19, .laneCmpgt col none cyc, two fun p q => (laneCmpgtFn m p q).1), (0x1A, .laneSel col none cyc, three laneSelFn),
   (0x20, .laneExp2 col none cyc, one fun p => (laneExp2Fn m p).1), (0x21, .laneLog2 col none cyc, one fun p => (laneLog2Fn m p).1),
   (0x22, .laneRcp col none cyc, one fun p => (laneRcpFn m p).1), (0x23, .laneRsq col none cyc, one fun p => (laneRsqFn m p).1),
   (0x28, .laneRsum col none cyc, List.replicate 256 (groupSum a m).1),
   (0x29, .laneRmax col none cyc, List.replicate 256 (laneRmaxFn a))]

/-- The vector unit goes on after an instruction: the position and the open loops (R167). -/
def Sys2Proof.wentOn (u v : VecUnit) (k : LaneCtx) : Prop :=
  v.pc = (laneNext (k.pc + 1) u.loops).1 ∧ v.loops = (laneNext (k.pc + 1) u.loops).2

/-- R166 to R170: an arithmetic lane instruction writes its results to every lane of VD, leaves every other register, the stream and
the memories as they were, and the unit goes on. -/
def Sys2Proof.LaneArithmeticClause : Prop :=
  ∀ (s : State) (col : Col) (cyc : Nat) (k : LaneCtx) (e : Nat × Instr × List F32),
    e ∈ laneResults col cyc k (s.work.core (siteOf s.dev col)).vec → laneCtx s.work col cyc e.1 = some k →
    Completes e.2.1 s fun t => StackOnly s t ∧ t.dev = { s.dev with cores := t.dev.cores } ∧
      vreg (t.work.core (siteOf s.dev col)).vec k.ins.vd = e.2.2 ∧
      (∀ r, r ≠ k.ins.vd → vreg (t.work.core (siteOf s.dev col)).vec r = vreg (s.work.core (siteOf s.dev col)).vec r) ∧
      (t.work.core (siteOf s.dev col)).vec.a = (s.work.core (siteOf s.dev col)).vec.a ∧
      (t.work.core (siteOf s.dev col)).vec.stream = (s.work.core (siteOf s.dev col)).vec.stream ∧
      wentOn (s.work.core (siteOf s.dev col)).vec (t.work.core (siteOf s.dev col)).vec k ∧
      ∀ site, site ≠ siteOf s.dev col → t.work.core site = s.work.core site

/-- R162, R166, R167: HALT ends the program, LOOP opens a loop over the next instructions, SETA and ADDA set an address register, LD
fills a register from the buffer, and IN takes up to four rows from the stream. No memory changes. -/
def Sys2Proof.LaneControlClause : Prop :=
  ∀ (s : State) (col : Col) (cyc : Nat) (k : LaneCtx),
    (laneCtx s.work col cyc 0x00 = some k → Completes (.laneHalt col false cyc) s fun t => StackOnly s t ∧
      t.dev = { s.dev with cores := t.dev.cores } ∧ (t.work.core (siteOf s.dev col)).vec.halted = true ∧
      (t.work.core (siteOf s.dev col)).vec.stream = [] ∧ (t.work.core (siteOf s.dev col)).rows = []) ∧
    (laneCtx s.work col cyc 0x01 = some k → Completes (.laneLoop col false cyc) s fun t => StackOnly s t ∧
      t.dev = { s.dev with cores := t.dev.cores } ∧
      (t.work.core (siteOf s.dev col)).vec.pc = (laneNext (k.pc + 1) (s.work.core (siteOf s.dev col)).vec.loops).1 ∧
      (t.work.core (siteOf s.dev col)).vec.loops = (k.pc + 1, k.pc + 1 + bits k.ins.imm 16 16, bits k.ins.imm 0 16) ::
        (laneNext (k.pc + 1) (s.work.core (siteOf s.dev col)).vec.loops).2) ∧
    (laneCtx s.work col cyc 0x02 = some k → Completes (.laneSeta col false cyc) s fun t => StackOnly s t ∧
      t.dev = { s.dev with cores := t.dev.cores } ∧ wentOn (s.work.core (siteOf s.dev col)).vec (t.work.core (siteOf s.dev col)).vec k ∧
      (t.work.core (siteOf s.dev col)).vec.a = (s.work.core (siteOf s.dev col)).vec.a.set k.ins.areg (k.ins.imm % 2 ^ 32)) ∧
    (laneCtx s.work col cyc 0x03 = some k → Completes (.laneAdda col false cyc) s fun t => StackOnly s t ∧
      t.dev = { s.dev with cores := t.dev.cores } ∧ wentOn (s.work.core (siteOf s.dev col)).vec (t.work.core (siteOf s.dev col)).vec k ∧
      (t.work.core (siteOf s.dev col)).vec.a = (s.work.core (siteOf s.dev col)).vec.a.set k.ins.areg
        ((nth (s.work.core (siteOf s.dev col)).vec.a k.ins.areg 0 + k.ins.imm) % 2 ^ 32)) ∧
    (∀ key,
      let y := Reached s col cyc
      laneCtx y col cyc 0x08 = some k → ErrorFree y.dev → siteOf y.dev col = siteOf s.dev col → fmtBytes k.ins.fmt 256 ≠ 0 →
      let a := nth (y.core (siteOf s.dev col)).vec.a k.ins.areg 0
      addrKey y.dev (bufAddr col a) = some key → 2 ^ 40 ≤ key → k.x.col = col →
      Completes (.laneLd col none cyc) s fun t => CoresOnly y s t ∧
      vreg (t.work.core (siteOf s.dev col)).vec k.ins.vd = (decodeElems k.ins.fmt (y.getN key (fmtBytes k.ins.fmt 256))).map widenExact ∧
      (t.work.core (siteOf s.dev col)).vec.a = (y.core (siteOf s.dev col)).vec.a.set k.ins.areg
        ((a + fmtBytes k.ins.fmt 256) % 2 ^ 32)) ∧
    (laneCtx s.work col cyc 0x0A = some k →
      inRows (s.work.core (siteOf s.dev col)).vec ≤ (s.work.core (siteOf s.dev col)).vec.stream.length →
      Completes (.laneIn col false cyc) s fun t => StackOnly s t ∧ t.dev = { s.dev with cores := t.dev.cores } ∧
      (t.work.core (siteOf s.dev col)).vec.stream =
        (s.work.core (siteOf s.dev col)).vec.stream.drop (inRows (s.work.core (siteOf s.dev col)).vec) ∧
      (vreg (t.work.core (siteOf s.dev col)).vec k.ins.vd).length = 256 ∧
      (∀ r j, r < inRows (s.work.core (siteOf s.dev col)).vec → j < 64 →
        nth (vreg (t.work.core (siteOf s.dev col)).vec k.ins.vd) (64 * r + j) 0 =
          nth (nth (s.work.core (siteOf s.dev col)).vec.stream r []) j 0) ∧
      (∀ j, 64 * inRows (s.work.core (siteOf s.dev col)).vec ≤ j → nth (vreg (t.work.core (siteOf s.dev col)).vec k.ins.vd) j 0 = 0))

/-- R166 to R170, R162, R166, R167: the clauses of LaneArithmeticClause and of LaneControlClause together. -/
def Obligations.LaneInstructions : Prop := LaneArithmeticClause ∧ LaneControlClause

/-- R137 to R140, R167, R171: ST completes whether or not physics strikes it; not struck, it writes 256 converted elements at the address in
its register and, for a format with block scales, the 8 scale bytes at the other address of the pair, moves both addresses past what it
wrote, and changes no other byte. -/
def Obligations.LaneStore : Prop :=
  ∀ (s : State) (col : Col) (cyc : Nat) (k : LaneCtx),
    let y := Reached s col cyc
    let site := siteOf s.dev col
    laneCtx y col cyc 0x09 = some k → ErrorFree y.dev → s.mem.wf = true → k.x.col = col → siteOf y.dev col = site → col < y.dev.map.n →
    y.dev.map.n ≤ 16 →
    let u := (y.core site).vec
    let a := nth u.a k.ins.areg 0
    let sc := nth u.a (Nat.xor k.ins.areg 1) 0
    let c := convOf k.x.d
    let f := fmtOf c.fmt
    let r := convertRun c (256 * u.stOrd) (vreg u k.ins.vd)
    let bytes := packElems c.fmt (checkRun f none 0 r.1).1
    (vreg u k.ins.vd).length = 256 → a + bytes.length ≤ bufBytes → (f.scaled = true → sc + 8 ≤ bufBytes ∧ (a + bytes.length ≤ sc ∨ sc + 8 ≤ a)) →
    (∀ upset : Option Upset, Completes (.laneSt col upset cyc) s fun t => KeepsPins s t) ∧
    Completes (.laneSt col none cyc) s fun t => KeepsPins s t ∧
      (∀ i, i < bytes.length → t.mem.get (bufKey site (a + i)) = nth bytes i 0) ∧
      (f.scaled = true → ∀ i b, r.1[i]? = some b → t.mem.get (bufKey site (sc + i)) = BitVec.ofNat 8 b.1) ∧
      (∀ key, (key < bufKey site a ∨ bufKey site a + bytes.length ≤ key) →
        (f.scaled = true → key < bufKey site sc ∨ bufKey site sc + 8 ≤ key) → t.mem.get key = y.mem.get key) ∧
      (t.work.core site).vec.a = (let moved := u.a.set k.ins.areg ((a + fmtBytes c.fmt 256) % 2 ^ 32)
        if f.scaled then moved.set (Nat.xor k.ins.areg 1) ((sc + 8) % 2 ^ 32) else moved)

/- DRAM banks and row logic. -/

/-- The row-operation commands with ROW_OP, COMPOUND_INDEX, activations and the byte they leave in the destination row (R254, R255). -/
def Sys2Proof.rowTable (site : Site) (tile : Layer) (bank : Fin 32) (cyc : Nat) : List (Nat × Nat × Nat × Instr × (Byte → Byte → Byte → Byte)) :=
  [(1, 0, 5, .rowAnd site tile bank cyc, fun a b _ => a &&& b), (2, 0, 5, .rowOr site tile bank cyc, fun a b _ => a ||| b),
   (3, 0, 8, .rowXor site tile bank cyc, fun a b _ => a ^^^ b), (4, 0, 8, .rowXnor site tile bank cyc, fun a b _ => ~~~(a ^^^ b)),
   (5, 0, 3, .rowNot site tile bank cyc, fun a _ _ => ~~~a),
   (6, 0, 6, .rowMaj3 site tile bank cyc, fun a b c => (a &&& b) ||| (b &&& c) ||| (a &&& c)),
   (7, 0, 2, .rowCopy site tile bank cyc, fun a _ _ => a), (8, 0, 2, .rowZero site tile bank cyc, fun _ _ _ => 0),
   (9, 0, 2, .rowOnes site tile bank cyc, fun _ _ _ => 0xFF),
   (10, 0, 8, .rowNand site tile bank cyc, fun a b _ => ~~~(a &&& b)), (10, 1, 8, .rowNor site tile bank cyc, fun a b _ => ~~~(a ||| b)),
   (10, 2, 6, .rowAndn site tile bank cyc, fun a b _ => a &&& ~~~b), (10, 3, 6, .rowOrn site tile bank cyc, fun a b _ => a ||| ~~~b),
   (10, 4, 10, .rowAnd3 site tile bank cyc, fun a b c => a &&& b &&& c), (10, 5, 10, .rowOr3 site tile bank cyc, fun a b c => a ||| b ||| c),
   (10, 6, 16, .rowXor3 site tile bank cyc, fun a b c => a ^^^ b ^^^ c),
   (10, 7, 16, .rowMux site tile bank cyc, fun a b c => (a &&& c) ||| (b &&& ~~~c)),
   (10, 8, 22, .rowFullAdd site tile bank cyc, fun a b c => a ^^^ b ^^^ c)]

/-- R234, R254, R255, R262, R264: the front row operation of a free bank, in its turn, whose layer holds its tokens writes its destination row, bit by bit,
from its source rows as they were, FULL_ADD also the row of C; no other byte changes; the bank is busy for 16 cycles for each
activation and has no open row. The cost of each operation is the number of activations of the tables. -/
def Sys2Proof.RowOperationsWriteClause : Prop :=
  ∀ (s : State) (site : Site) (tile : Layer) (bank : Fin 32) (cyc : Nat) (o : RowOp) (rest : List RowOp)
    (e : Nat × Nat × Nat × Instr × (Byte → Byte → Byte → Byte)), e ∈ rowTable site tile bank cyc →
    rowCost e.1 e.2.1 = e.2.2.1 ∧
    ((s.work.bank (bankId site tile bank)).rowOps = o :: rest → o.op = e.1 → (e.1 = 10 → o.compound = e.2.1) → o.waiting = false →
      o.cross = false → o.phase = 0 → o.dur = 16 * o.cost → inOrder s.work o (s.dev.beat.wbc * 64 + cyc) = true →
      bankFree s.work (bankId site tile bank) (s.dev.beat.wbc * 64 + cyc) = true →
      hasTokens s.work tile o.cost = true → waitingOps s.work tile = [] → s.mem.wf = true →
      Completes e.2.2.2.1 s fun t => KeepsPins s t ∧
        (∀ i, i < 8192 → (e.1 = 10 ∧ e.2.1 = 8 → o.c + 8192 ≤ o.dst ∨ o.dst + 8192 ≤ o.c) → t.mem.get (dramKey site o.dst + i) =
          e.2.2.2.2 (s.mem.get (dramKey site o.a + i)) (s.mem.get (dramKey site o.b + i)) (s.mem.get (dramKey site o.c + i))) ∧
        (∀ i, i < 8192 → e.1 = 10 → e.2.1 = 8 → t.mem.get (dramKey site o.c + i) =
          rowMaj (s.mem.get (dramKey site o.a + i)) (s.mem.get (dramKey site o.b + i)) (s.mem.get (dramKey site o.c + i))) ∧
        (∀ k, (k < dramKey site o.dst ∨ dramKey site o.dst + 8192 ≤ k) →
          (e.1 = 10 ∧ e.2.1 = 8 → k < dramKey site o.c ∨ dramKey site o.c + 8192 ≤ k) → t.mem.get k = s.mem.get k) ∧
        (t.work.bank (bankId site tile bank)).rowOps = rest ∧ (t.work.bank (bankId site tile bank)).openRow = none ∧
        (t.work.bank (bankId site tile bank)).busyUntil = s.dev.beat.wbc * 64 + cyc + 16 * o.cost)

/-- R260, R271: an operation that waited for tokens starts when its layer holds them, its wait is counted; a cross-bank copy puts its
source row on the bank bus; the row that has crossed it is written at its destination, and no other byte changes. -/
def Sys2Proof.RowOperationsWaitClause : Prop :=
  ∀ (s : State) (cyc : Nat),
    (∀ (site : Site) (tile : Layer) (bank : Fin 32) (o : RowOp) (rest : List RowOp),
      (s.work.bank (bankId site tile bank)).rowOps = o :: rest → o.op = 7 → o.waiting = false → o.cross = true → o.phase = 0 →
      inOrder s.work o (s.dev.beat.wbc * 64 + cyc) = true →
      bankFree s.work (bankId site tile bank) (s.dev.beat.wbc * 64 + cyc) = true → hasTokens s.work tile o.cost = true →
      waitingOps s.work tile = [] → (∀ b ∈ s.dev.prot.busCopies, b.1 ≠ (site : Nat)) →
      Completes (.rowCopy site tile bank cyc) s fun t => StackOnly s t ∧
        (t.work.bank (bankId site tile bank)).rowOps = rest ∧
        ∃ p, t.dev.prot.busCopies = s.dev.prot.busCopies ++ [(site.val, p)] ∧ p.phase = 1 ∧ p.dst = o.dst ∧
          p.latched = s.work.getN (dramKey site o.a) 8192) ∧
    (∀ (layer : Layer) (id : Nat) (o : RowOp), waitingOps s.work layer = [(id, o)] → hasTokens s.work layer o.cost = true →
      bankFree s.work id (s.dev.beat.wbc * 64 + cyc) = true →
      Completes (.rowOpThrottleRelease layer cyc) s fun t => KeepsPins s t ∧
        t.dev.prot.rlThrottleWait = sat32 (s.dev.prot.rlThrottleWait + (s.dev.beat.wbc * 64 + cyc - o.arrivedAt)) ∧
        (t.work.bank id).busyUntil = s.dev.beat.wbc * 64 + cyc + o.dur ∧ (t.work.bank id).openRow = none ∧
        (t.work.bank id).rowOps = (s.work.bank id).rowOps.erase o) ∧
    (∀ (site : Site) (tile : Layer) (o : RowOp),
      s.dev.prot.busCopies.find? (fun b => b.1 == (site : Nat) && tileOf b.2.dst == tile) = some (site.val, o) →
      o.arrivedAt ≤ s.dev.beat.wbc * 64 + cyc → o.cross = true → o.phase = 1 → o.latched.length = 8192 → s.mem.wf = true →
      bankFree s.work (bankId site tile (bankOf o.dst)) (s.dev.beat.wbc * 64 + cyc) = true →
      hasTokens s.work tile o.cost = true → waitingOps s.work tile = [] →
      Completes (.bankBusTransferDone site tile cyc) s fun t => KeepsPins s t ∧
        t.dev.prot.rlBusCopies = sat32 (s.dev.prot.rlBusCopies + 1) ∧ (∀ b ∈ t.dev.prot.busCopies, b.1 ≠ (site : Nat)) ∧
        ∀ k, t.mem.get k = if dramKey site o.dst ≤ k ∧ k < dramKey site o.dst + 8192
          then nth o.latched (k - dramKey site o.dst) 0 else s.mem.get k)

/-- R234, R254, R255, R264, R260, R271: the clauses of RowOperationsWriteClause and of RowOperationsWaitClause together. -/
def Obligations.RowOperations : Prop := RowOperationsWriteClause ∧ RowOperationsWaitClause

/-- R234, R244, R264, R265: a bank that nothing occupies and that no request waits at performs a read or a write at once and its row stays
open; a read changes no byte and gives the bytes stored, a write stores its masked bytes and no others; else the request waits, which is
counted; a request that waited is answered when nothing occupies the bank; a request of a fenced core to its own bank is dropped and
counted. -/
def Sys2Proof.BankRequestsClause : Prop :=
  ∀ (s : State) (r : BankReq) (cyc : Nat), s.dev.noc.fabricReset = false → r.site < 18 →
    r.addr + max r.len r.data.length ≤ colBytes → r.addr < colBytes →
    (r.site ∈ s.dev.noc.fenced → (∃ c i, r.who = .step c i ∧ siteOf s.dev c = r.site) → r.site < s.dev.noc.sites.length →
      Completes (.bankRequestArrive r [] cyc) s fun t => StackOnly s t ∧ t.dev = { s.dev with noc := t.dev.noc } ∧
        (nth t.dev.noc.sites r.site {}).fenceDrops = sat32 ((nth s.dev.noc.sites r.site {}).fenceDrops + 1)) ∧
    (¬ (r.site ∈ s.dev.noc.fenced ∧ ∃ c i, r.who = .step c i ∧ siteOf s.dev c = r.site) → ErrorFree s.dev →
    let id := bankId r.site (tileOf r.addr) (bankOf r.addr)
    let now := s.dev.beat.wbc * 64 + cyc
    ((s.work.bank id).freeAt now = now → (s.work.bank id).waiting = [] → r.write = false →
      Completes (.bankRequestArrive r [] cyc) s fun t => StackOnly s t ∧ t.dev = { s.dev with prot := t.dev.prot } ∧
        (t.work.bank id).openRow = some (rowOf r.addr) ∧
        t.dev.prot.bankReads = s.dev.prot.bankReads ++ [(r.who, r.addr, s.work.getN (dramKey r.site r.addr) r.len)]) ∧
    ((s.work.bank id).freeAt now = now → (s.work.bank id).waiting = [] → r.write = true →
      r.data.length = r.mask.length → s.mem.wf = true → s.dev.map.n ≤ 16 → s.dev.map.mig.mirroring = false →
      Completes (.bankRequestArrive r [] cyc) s fun t => KeepsPins s t ∧ (t.work.bank id).openRow = some (rowOf r.addr) ∧
        ∀ k, t.mem.get k = if dramKey r.site r.addr ≤ k ∧ k < dramKey r.site r.addr + r.data.length ∧
            nth r.mask (k - dramKey r.site r.addr) false = true
          then nth r.data (k - dramKey r.site r.addr) 0 else s.mem.get k) ∧
    (now < (s.work.bank id).freeAt now ∨ (s.work.bank id).waiting ≠ [] →
      Completes (.bankRequestArrive r [] cyc) s fun t => StackOnly s t ∧
        (t.work.bank id).waiting = (s.work.bank id).waiting ++ [{ req := r }] ∧
        t.dev.prot.rlReqWaits = sat32 (s.dev.prot.rlReqWaits + 1)) ∧
    (∀ (site : Site) (tile : Layer) (bank : Fin 32) (w : BankWait) (rest : List BankWait),
      (s.work.bank (bankId site tile bank)).waiting = w :: rest → w.req = r → r.write = false →
      (s.work.bank (bankId site tile bank)).freeAt now = now →
      (w.outcome = none → Completes (.bankRequestAfterRowOp site tile bank cyc) s fun t => StackOnly s t ∧
        (t.work.bank (bankId site tile bank)).waiting = rest ∧
        t.dev.prot.bankReads = s.dev.prot.bankReads ++ [(r.who, r.addr, s.work.getN (dramKey r.site r.addr) r.len)]) ∧
      (∀ b, w.outcome = some (some b) → Completes (.bankRequestAfterRowOp site tile bank cyc) s fun t => StackOnly s t ∧
        (t.work.bank (bankId site tile bank)).waiting = rest ∧
        t.dev.prot.bankReads = s.dev.prot.bankReads ++ [(r.who, r.addr, b)])))

/-- R267, R269, R290 to R296: refresh in cycle 32 steps two rows, leaves no row open and occupies the bank for 48 cycles from when it is free;
the granules of a column are encoded in order, one every 16,384 beats from the acceptance of the swap; a patrol row falls due and is
presented, occupies its bank for 80 cycles, and the pointer moves on by one row of 4,096; the idle scrubber reads its next line; an overdue
lap raises its alarm. No memory byte changes. -/
def Sys2Proof.RefreshAndScrubClause : Prop :=
  ∀ (s : State) (site : Site) (tile : Layer) (bank : Fin 32) (cyc : Nat),
    let now := s.dev.beat.wbc * 64 + cyc
    (cyc = 32 → s.dev.beat.wbc % (if (nth s.dev.prot.layers tile {}).dbl then 500 else 1000) =
        (31 * bank + 7 * (tile + 1)) % (if (nth s.dev.prot.layers tile {}).dbl then 500 else 1000) →
      (∀ k < 18, (s.work.bank (bankId k tile bank)).waiting = []) → (s.work.bank (bankId site tile bank)).refreshUntil ≤ now →
      Completes (.bankRefresh tile bank cyc) s fun t => StackOnly s t ∧ t.dev = { s.dev with prot := t.dev.prot } ∧
        (t.work.bank (bankId site tile bank)).openRow = none ∧
        (t.work.bank (bankId site tile bank)).refreshRow = ((s.work.bank (bankId site tile bank)).refreshRow + 2) % 4096 ∧
        (t.work.bank (bankId site tile bank)).refreshUntil = (s.work.bank (bankId site tile bank)).freeAt now + 48) ∧
    (∀ (col : Col) (g : Nat) (w : SwapPending), s.dev.sched.swap = some w →
      s.dev.prot.encoding.find? (fun g => g.1 == col.val) = some (col.val, g) →
      let due := w.accepted + 16384 * ((s.dev.prot.encoded.filter fun g => g.1 == col.val).length + 1)
      (due ≤ s.dev.beat.wbc → exec (.granuleEncodeDone col g) s = .next { s with dev := { s.dev with prot := { s.dev.prot with
        encoding := s.dev.prot.encoding.erase (col.val, g), encoded := s.dev.prot.encoded ++ [(col.val, g)] } } }) ∧
      (s.dev.beat.wbc < due → exec (.granuleEncodeDone col g) s = .next s)) ∧
    ((s.work.bank (bankId site tile bank)).patrolDue = none → s.dev.noc.fabricReset = false →
      (s.work.bank (bankId site tile bank)).patrolLast + patrolInterval s.work site tile ≤ s.dev.beat.wbc →
      Completes (.patrolRowDue site tile bank) s fun t => StackOnly s t ∧ t.dev = { s.dev with prot := t.dev.prot } ∧
        (t.work.bank (bankId site tile bank)).patrolDue = some s.dev.beat.wbc) ∧
    (∀ due, (s.work.bank (bankId site tile bank)).patrolDue = some due → s.dev.noc.fabricReset = false → ErrorFree s.dev →
      (s.work.bank (bankId site tile bank)).waiting = [] →
      ((s.work.bank (bankId site tile bank)).rowOps.any RowOp.waiting = false ∨ due + 1024 ≤ s.dev.beat.wbc) →
      Completes (.patrolRowPresent site tile bank [] cyc) s fun t => StackOnly s t ∧ t.dev = { s.dev with prot := t.dev.prot } ∧
        (t.work.bank (bankId site tile bank)).patrolDue = none ∧ (t.work.bank (bankId site tile bank)).patrolLast = s.dev.beat.wbc ∧
        (t.work.bank (bankId site tile bank)).patrolRow = ((s.work.bank (bankId site tile bank)).patrolRow + 1) % 4096 ∧
        (patrolSkips s.work site (rowOff tile bank (s.work.bank (bankId site tile bank)).patrolRow) = false →
          (t.work.bank (bankId site tile bank)).busyUntil = (s.work.bank (bankId site tile bank)).freeAt now + 80)) ∧
    (∀ b : Fin 64, scrubOn s.work site = true → ErrorFree s.dev → s.dev.prot.sites.length = 18 →
      (∀ r ∈ (s.work.core site).reads, lineBank r.2 ≠ b) → nth (nth s.dev.prot.sites site {}).scrubBeat b 0 ≠ s.dev.beat.wbc + 1 →
      Completes (.idleScrubRead site b []) s fun t => StackOnly s t ∧ t.dev = { s.dev with prot := t.dev.prot } ∧
        nth (scrubWalked (nth t.dev.prot.sites site {})) b 0 = nth (scrubWalked (nth s.dev.prot.sites site {})) b 0 + 1) ∧
    (scrubCfg s.work 0x20 2 0 ≠ 0 → (nth s.dev.prot.sites site {}).lapAlarmed = false → scrubOn s.work site = true →
      s.dev.prot.sites.length = 18 →
      scrubCfg s.work 0x20 2 0 * 31250 < s.dev.beat.wbc - (nth s.dev.prot.sites site {}).lapStart →
      Completes (.bufferLapAlarm site) s fun t => StackOnly s t ∧ (nth t.dev.prot.sites site {}).lapAlarmed = true ∧
        t.dev.host.evtSeq = s.dev.host.evtSeq + 1)

/-- R234, R244, R264, R265, R267, R269, R290 to R296: the clauses of BankRequestsClause and of RefreshAndScrubClause together. -/
def Obligations.BanksServe : Prop := BankRequestsClause ∧ RefreshAndScrubClause

/-- R280, R312, R478: a line of the vertical channel with a CRC mismatch is transferred again and counted, and lengthens its step by 8 cycles;
a second mismatch makes a fault record, and ends a step with BUS_ERROR. -/
def Obligations.VerticalChannelRetries : Prop :=
  ∀ (s : State) (site : Site) (line tile : Nat) (who : Requester),
    (site.val < s.dev.noc.sites.length → Completes (.vcLineRetransfer site line tile false who) s fun t => StackOnly s t ∧
      t.dev = { s.dev with cores := t.dev.cores, noc := t.dev.noc } ∧
      (nth t.dev.noc.sites site {}).vcRetries = sat32 ((nth s.dev.noc.sites site {}).vcRetries + 1) ∧
      ∀ c i st, who = .step c i → liveStep (s.work.core (siteOf s.dev c)) i = some st →
        ∃ st', liveStep (t.work.core (siteOf s.dev c)) i = some st' ∧ st'.lengthen = st.lengthen + 8) ∧
    Completes (.vcLineRetransfer site line tile true who) s fun t => StackOnly s t ∧ s.dev.faults.frSeq < t.dev.faults.frSeq ∧
      ∀ c i st, who = .step c i → liveStep (s.work.core (siteOf s.dev c)) i = some st → liveStep (t.work.core (siteOf s.dev c)) i = none

/- The page walker and the windows of ATTEND. -/

/-- R201, R202, R204, R205, R317, R492: a preparation begins for the next step of its kinds and is unfinished until PREPARATION_DONE, which
records a walk error; descriptors reach the feeder in order, and one that a stop on its way finds with a parity error is counted there and
stops every partition. -/
def Obligations.PreparationsRun : Prop :=
  ∀ (s : State) (col : Col),
    (∀ (b q idx run base : Nat) (i : Image) (r : PartRun) (d : Desc), (s.work.core (siteOf s.dev col)).prepTrigger = some b →
      b ≤ s.dev.beat.wbc → (s.work.core (siteOf s.dev col)).prep = none → columnRun s.work col = some (q, i, r) →
      partLive s.dev q = true → prepTarget s.work col = some (idx, run, d) → i.pw = some base →
      Completes (.preparationBegin col) s fun t => KeepsPins s t ∧
        (t.work.core (siteOf s.dev col)).prepTrigger = none ∧
        ∃ p, (t.work.core (siteOf s.dev col)).prep = some p ∧ p.index = idx ∧ p.run = run ∧ p.op = opOf d ∧ p.finished = false) ∧
    (∀ p, (s.work.core (siteOf s.dev col)).prep = some p → p.finished = false →
      liveStep (s.work.core (siteOf s.dev col)) (stepKey (s.work.core (siteOf s.dev col)) p.index) = none → copiesWait s.work (siteOf s.dev col) = false →
      Completes (.preparationDone col) s fun t => StackOnly s t ∧
        t.dev = { s.dev with cores := t.dev.cores, walker := t.dev.walker } ∧
        (t.work.core (siteOf s.dev col)).prep = some { p with finished := true } ∧
        (p.walkErr = 0 → t.dev.walker = s.dev.walker) ∧
        (p.walkErr ≠ 0 → t.dev.walker = { s.dev.walker with errCode := p.walkErr, errCol := col, errValid := true })) ∧
    (∀ (p : PageDesc) (rest : List PageDesc) (found : Option Site), (s.work.core (siteOf s.dev col)).descOut = p :: rest →
      (∀ f, found = some f → (messageWay s.work 24 (siteOf s.dev col)).contains f.val = false) →
      Completes (.pageDescriptor col found) s fun t => StackOnly s t ∧ t.dev = { s.dev with cores := t.dev.cores } ∧
        (t.work.core (siteOf s.dev col)).descOut = rest ∧
        (t.work.core (siteOf s.dev col)).descs = (s.work.core (siteOf s.dev col)).descs ++ [p]) ∧
    (∀ (p : PageDesc) (rest : List PageDesc) (f : Site), (s.work.core (siteOf s.dev col)).descOut = p :: rest →
      (messageWay s.work 24 (siteOf s.dev col)).contains f.val = true → s.dev.boot.parts.length = 4 → f.val < s.dev.noc.sites.length →
      Completes (.pageDescriptor col (some f)) s fun t => StackOnly s t ∧ s.dev.faults.frSeq < t.dev.faults.frSeq ∧
        (nth t.dev.noc.sites f {}).shuttleErr = sat32 ((nth s.dev.noc.sites f {}).shuttleErr + 1) ∧
        ∀ q ∈ allParts s.work, partState t.dev q = .faultStop)

/-- R205, R212, R217: no window begins before its cycle; the window of an idle descriptor only goes by; the window of a page makes six passes
whose tiles wait for their comparison, and is counted; the last window is followed by the output. -/
def Obligations.AttendWindows : Prop :=
  ∀ (s : State) (col : Col) (cyc : Nat) (a : AttendState) (st : StepRun) (x : StepCtx),
    let y := Reached s col cyc
    let site := siteOf s.dev col
    let c := y.core site
    let now := cycNow y.dev cyc
    siteOf y.dev col = site → c.attend = some a → liveStep c a.step = some st →
    liveCtx y site a.step cyc = some x → a.next + 1 < atMaxPages x.d → a.next < c.descs.length → a.next < st.pages.length →
    (now < windowStart st a.next → Completes (.attendPageWindow col [] cyc) s fun t => MemOf y s t ∧ t.dev = y.dev) ∧
    (windowStart st a.next ≤ now → waitsForLine c.skew st now = false → (nth st.pages a.next idleDesc).kind = 0x22 →
      Completes (.attendPageWindow col [] cyc) s fun t => CoresOnly y s t ∧
        (t.work.core site).attend = some { a with next := a.next + 1 } ∧ (t.work.core site).drained = c.drained) ∧
    (windowStart st a.next ≤ now → waitsForLine c.skew st now = false → (nth st.pages a.next idleDesc).kind ≠ 0x22 → ErrorFree y.dev →
      Completes (.attendPageWindow col [] cyc) s fun t => KeepsPins s t ∧
        (∃ b, (t.work.core site).attend = some b ∧ b.step = a.step ∧ b.next = a.next + 1) ∧
        (t.work.core site).drained.length = c.drained.length + 6 ∧
        ∃ st', liveStep (t.work.core site) a.step = some st' ∧ st'.count = st.count + 1 ∧ st'.checksDue = st.checksDue + 6)

/- The mesh. -/

/-- No request waits at a bank of the stack. -/
def Sys2Proof.NoneWait (d : Dev) : Prop := ∀ b ∈ d.prot.banks, b.2.waiting = []

/-- A packet of a kind arrives sound at a router in service, while no fabric reset runs; the router is not fenced, and the packet's
source column has the incarnation that the packet carries. -/
def Sys2Proof.arrives (s : State) (kind : Nat) (r : Site) (p : Packet) : Prop :=
  p.kind = kind ∧ s.dev.noc.fabricReset = false ∧ routerUsable s.dev.noc.failed r = true ∧ p.spoiled = false ∧
    p.hdrCrc = crc32c (packetHeader p) ∧ s.dev.noc.fenced.contains (r : Nat) = false ∧ stalePacket s.dev p = false

/-- A router has a response to a packet on its way: kind, STATUS and payload, which is filled up to whole units of 64 bytes. -/
def Sys2Proof.responds (t : State) (r : Site) (p : Packet) (kind status : Nat) (payload : List Byte) : Prop :=
  ∃ q, ((r : Nat), q) ∈ t.dev.noc.out ∧ q.kind = kind ∧ q.status = status ∧ q.len = payload.length ∧ q.payload = packetPayload payload ∧
    q.dest = p.src ∧ q.destEp = p.srcEp ∧ q.tag = p.tag ∧ q.hdrCrc = crc32c (packetHeader q)

/-- The packet rows with their kinds. -/
def Sys2Proof.packetRows (r : Site) (p : Packet) : List (Nat × Instr) :=
  [(1, .meshRead r p), (2, .meshWrite r p), (3, .meshReadData r p), (4, .meshWriteAck r p), (5, .meshSpanIn r p),
   (6, .meshSpanOut r p), (7, .meshError r p)]

/-- R90, R303, R305, R306, R308, R319, R321, R331: a packet goes on by the routing table, from a LAYER_SWITCH entry on layer 1 with its header
sealed anew; at its destination a READ answers with the bytes stored, a WRITE stores its payload and no other byte and is acknowledged, a
SPAN_IN places its flit, a SPAN_OUT hands its flit to its port; an address that the router does not serve is answered with an ERROR of
STATUS 4; a stale packet is dropped and counted. -/
def Sys2Proof.MeshServesClause : Prop :=
  ∀ (s : State) (r : Site) (p : Packet),
    (∀ e ∈ packetRows r p, ∀ n, arrives s e.1 r p → (r : Nat) ≠ p.dest → neighbour r (packetEntry s.work r p % 8) = some n →
      exec e.2 s = .next { s with dev := { s.dev with noc := { s.dev.noc with
        out := s.dev.noc.out.eraseP (fun x => x.2 == p) ++ [(n, leavingPacket (packetEntry s.work r p) p)]
        kept := (s.dev.noc.kept.filter fun k => k.1 != packetId p) ++ s.dev.noc.kept.filter fun k => k.1 == packetId p } } }) ∧
    (∀ e ∈ packetRows r p, p.kind = e.1 → s.dev.noc.fabricReset = false → routerUsable s.dev.noc.failed r = true → p.spoiled = false →
      p.hdrCrc = crc32c (packetHeader p) → s.dev.noc.fenced.contains (r : Nat) = false → (r : Nat) = p.dest →
      stalePacket s.dev p = true → s.dev.noc.sites.length = 18 →
      Completes e.2 s fun t => StackOnly s t ∧ t.dev = { s.dev with noc := t.dev.noc } ∧
        (nth t.dev.noc.sites r {}).staleDrops = sat32 ((nth s.dev.noc.sites r {}).staleDrops + 1)) ∧
    (∀ k, arrives s 1 r p → (r : Nat) = p.dest → meshKey s.work r p = some k → ErrorFree s.dev → NoneWait s.dev →
      Completes (.meshRead r p) s fun t => StackOnly s t ∧ t.dev = { s.dev with noc := t.dev.noc, prot := t.dev.prot, cores := t.dev.cores } ∧
        responds t r p 3 0 (s.work.getN k p.len)) ∧
    (∀ e ∈ [(1, Instr.meshRead r p), (2, .meshWrite r p)], arrives s e.1 r p → (r : Nat) = p.dest → badPayload p = false →
      meshKey s.work r p = none →
      Completes e.2 s fun t => StackOnly s t ∧ t.dev = { s.dev with noc := t.dev.noc } ∧ responds t r p 7 4 []) ∧
    (∀ k, arrives s 2 r p → (r : Nat) = p.dest → badPayload p = false → meshKey s.work r p = some k → ErrorFree s.dev → NoneWait s.dev →
      lineBusy s.work p.addr (min p.len p.payload.length) = false → s.dev.map.mig.mirroring = false → s.mem.wf = true →
      Completes (.meshWrite r p) s fun t => KeepsPins s t ∧ responds t r p 4 0 [] ∧
        ∀ j, t.mem.get j = if k ≤ j ∧ j < k + min p.len p.payload.length then nth p.payload (j - k) 0 else s.mem.get j) ∧
    (∀ f, arrives s 5 r p → (r : Nat) = p.dest → badPayload p = false → ErrorFree s.dev →
      (s.work.core r).flows.find? (fun f => f.flow == bits p.aux 0 8 && !f.send) = some f → bits p.aux 8 24 < f.flits →
      f.placed.contains (bits p.aux 8 24) = false →
      Completes (.meshSpanIn r p) s fun t => KeepsPins s t ∧
        { f with placed := f.placed ++ [bits p.aux 8 24], lastAt := s.dev.beat.wbc } ∈ (t.work.core r).flows) ∧
    (∀ q : Port, arrives s 6 r p → (r : Nat) = p.dest → badPayload p = false → portSite q = r → s.dev.span.ports.length = 12 →
      (∀ j, j < (q : Nat) → portSite j ≠ r) →
      Completes (.meshSpanOut r p) s fun t => StackOnly s t ∧
        (t.work.port q).sendQ = (s.work.port q).sendQ ++ [mkFlit s.dev 1 0x7FF false (bits p.aux 0 8) (bits p.aux 8 24) p.payload])

/-- R280, R303, R482, R492: an acknowledgement frees its request; data that comes back is written where its move wants it; a request
that is lost or refused is sent again once with a record, and a second failure of a read ends its step with BUS_ERROR. -/
def Sys2Proof.MeshAnswersClause : Prop :=
  ∀ (s : State) (r : Site) (p : Packet) (q : MeshReq),
    (arrives s 4 r p → (r : Nat) = p.dest → reqOf s.work p = some q → p.status = 0 →
      exec (.meshWriteAck r p) s = .next { s with dev := { s.dev with noc := { (takePacket s.work p).dev.noc with
        reqs := s.dev.noc.reqs.filter fun x => x.tag != q.tag } } }) ∧
    (∀ (c i k : Nat) (x : StepCtx) (m : MovePiece), arrives s 3 r p → (r : Nat) = p.dest → reqOf s.work p = some q → p.status = 0 →
      badPayload p = false → q.who = .step c i → liveCtx s.work (siteOf s.dev c) i 0 = some x → opOf x.d = 4 →
      mvTranspose x.d = false → (movePieces x.d)[q.pos]? = some m → (moveAddr x.d 0x20).1 = false →
      whose s.dev.map.n x.col m.dst = .buf → m.dst % 256 + min p.len p.payload.length ≤ 256 → addrKey s.dev m.dst = some k →
      ErrorFree s.dev → s.mem.wf = true →
      Completes (.meshReadData r p) s fun t => KeepsPins s t ∧
        t.dev.noc = { (takePacket s.work p).dev.noc with reqs := s.dev.noc.reqs.filter fun x => x.tag != q.tag } ∧
        ∀ j, t.mem.get j = if k ≤ j ∧ j < k + min p.len p.payload.length then nth p.payload (j - k) 0 else s.mem.get j) ∧
    (∀ i : Instr, (i = .meshRequestTimeout q.tag ∧ s.dev.noc.reqs.find? (fun x => x.tag == q.tag) = some q) ∨
        (i = .meshError r p ∧ arrives s 7 r p ∧ (r : Nat) = p.dest ∧ reqOf s.work p = some q ∧ p.status ≠ 3) →
      (q.resent = false → Completes i s fun t => StackOnly s t ∧ { q with resent := true } ∈ t.dev.noc.reqs ∧
        (q.pkt.src, q.pkt) ∈ t.dev.noc.out ∧ t.dev.faults.resends = sat32 (s.dev.faults.resends + 1) ∧
        t.dev.faults.frSeq = s.dev.faults.frSeq + 1) ∧
      (∀ c j, q.resent = true → q.who = .step c j → q.pkt.kind = 1 → (liveStep (s.work.core (siteOf s.dev c)) j).isSome = true →
        Completes i s fun t => StackOnly s t ∧ (∀ x ∈ t.dev.noc.reqs, x.tag ≠ q.tag) ∧
          liveStep (t.work.core (siteOf s.dev c)) j = none ∧ s.dev.faults.frSeq < t.dev.faults.frSeq)) ∧
    (∀ c j, arrives s 7 r p → (r : Nat) = p.dest → reqOf s.work p = some q → p.status = 3 → q.who = .step c j →
      (∀ st, liveStep (s.work.core (siteOf s.dev c)) j = some st → isHostMove st.desc = false →
        Completes (.meshError r p) s fun t => StackOnly s t ∧ liveStep (t.work.core (siteOf s.dev c)) j = none))

/-- R303, R305, R306, R308, R319, R321, R331, R280, R482, R492: the clauses of MeshServesClause and of MeshAnswersClause together. -/
def Obligations.MeshTraffic : Prop := MeshServesClause ∧ MeshAnswersClause

/- Fences, admissions and migrations. -/

/-- R317, R318, R321, R322, R381, R492: a fence order fences its core, and one with a parity error stops every partition; an admission
writes its incarnations at one boundary and lifts its fences at the next; a control message that is not answered is sent again, and
after the third time every partition stops. -/
def Obligations.FencesAndAdmissions : Prop :=
  ∀ s : State,
    (∀ (site : Site) (f : FenceMsg) (found : Option Site), s.dev.noc.fences.find? (fun f => f.site == site.val) = some f →
      (∀ p, found = some p → (messageWay s.work 24 site).contains p.val = false) →
      Completes (.fenceOrder site found) s fun t => StackOnly s t ∧ (site : Nat) ∈ t.dev.noc.fenced ∧
        t.dev.noc.fences = s.dev.noc.fences.erase f ∧ (t.work.core site).steps = [] ∧
        (f.why ≠ 0 → assoc t.dev.noc.fenceWhy site = some f.why) ∧
        (∀ x, x ≠ (site : Nat) → (x ∈ t.dev.noc.fenced ↔ x ∈ s.dev.noc.fenced)) ∧
        (∀ q, partOfSite s.work site = some q → partLive s.dev q = true → s.dev.boot.parts.length = 4 → partState t.dev q = .faultStop)) ∧
    (∀ (site : Site) (f : FenceMsg) (p : Site), s.dev.noc.fences.find? (fun f => f.site == site.val) = some f → s.dev.boot.parts.length = 4 →
      (messageWay s.work 24 site).contains p.val = true → p.val < s.dev.noc.sites.length →
      Completes (.fenceOrder site (some p)) s fun t => StackOnly s t ∧ t.dev.noc.fenced = s.dev.noc.fenced ∧
        t.dev.noc.fences = s.dev.noc.fences.erase f ∧
        (nth t.dev.noc.sites p {}).shuttleErr = sat32 ((nth s.dev.noc.sites p {}).shuttleErr + 1) ∧
        s.dev.faults.frSeq < t.dev.faults.frSeq ∧ ∀ q ∈ allParts s.work, partState t.dev q = .faultStop) ∧
    (∀ a, s.dev.noc.admits.find? (fun a => !a.written) = some a → a.cols.Nodup →
      Completes .admitIncarnationWrite s fun t => StackOnly s t ∧ t.dev = { s.dev with map := t.dev.map, sched := t.dev.sched, noc := t.dev.noc } ∧
        { a with written := true } ∈ t.dev.noc.admits ∧ t.dev.noc.fenced = s.dev.noc.fenced ∧
        ∀ c, c < s.dev.map.cols.length → colInc t.dev c = if c ∈ a.cols then nextInc (colInc s.dev c) else colInc s.dev c) ∧
    (∀ a, s.dev.noc.admits.find? (fun a => a.written) = some a →
      Completes .fenceLift s fun t => StackOnly s t ∧ t.dev.noc.admits = s.dev.noc.admits.erase a ∧
        (∀ c ∈ a.cols, siteOf s.dev c ∉ t.dev.noc.fenced) ∧
        (∀ x, (∀ c ∈ a.cols, siteOf s.dev c ≠ x) → (x ∈ t.dev.noc.fenced ↔ x ∈ s.dev.noc.fenced)) ∧
        (a.wave = true → a.cols ≠ [] → s.dev.boot.power = .linksQualified → t.dev.boot.power = .coresUp)) ∧
    (∀ (node : Nat) (m : CtrlMsg), s.dev.noc.ctrl.find? (fun c => c.node == node) = some m →
      (m.tries < 3 → Completes (.shuttleCtrlTimeout node) s fun t => StackOnly s t ∧ ⟨node, m.tries + 1⟩ ∈ t.dev.noc.ctrl ∧
        t.dev.faults.frSeq = s.dev.faults.frSeq + 1 ∧ t.dev.boot = s.dev.boot) ∧
      (3 ≤ m.tries → s.dev.boot.parts.length = 4 → Completes (.shuttleCtrlTimeout node) s fun t => StackOnly s t ∧
        (∀ c ∈ t.dev.noc.ctrl, c.node ≠ node) ∧ ∀ q ∈ allParts s.work, partState t.dev q = .faultStop))

/-- R229, R240, R249 to R253: a migration copies its column block by block to the target site; a faulty old site leaves zeros; the
switch maps the column to the target with the next incarnation, the idle old site ends the migration; a pending swap waits only for
granules of which the host still holds lines. -/
def Obligations.MigrationRuns : Prop :=
  ∀ s : State,
    let m := s.dev.map.mig
    (m.state = 1 → s.dev.noc.fabricReset = false → ErrorFree s.dev → NoneWait s.dev → s.mem.wf = true →
      Completes (.migrationBlockCopy false) s fun t => KeepsPins s t ∧
        (∀ k, t.mem.get k = if dramKey m.toSite (64 * m.next) ≤ k ∧ k < dramKey m.toSite (64 * m.next) + 64
          then s.mem.get (dramKey m.fromSite (64 * m.next) + (k - dramKey m.toSite (64 * m.next))) else s.mem.get k) ∧
        t.dev.map.mig = { m with next := m.next + 1, granules := (m.next + 1) / 2 ^ 20,
                                 state := if 201326592 ≤ m.next + 1 then 2 else 1 }) ∧
    (m.state = 1 → s.dev.noc.fabricReset = false → s.mem.wf = true →
      Completes (.migrationBlockCopy true) s fun t => KeepsPins s t ∧
        (∀ k, t.mem.get k = if dramKey m.toSite 0 ≤ k ∧ k < dramKey m.toSite 0 + colBytes then 0 else s.mem.get k) ∧
        t.dev.map.mig.state = 2 ∧ t.dev.map.mig.lost = true ∧ m.fromSite ∈ t.dev.map.badMem ∧ t.dev.faults.frSeq = s.dev.faults.frSeq + 1) ∧
    (m.state = 2 → siteOf s.dev m.col = m.fromSite → m.col < s.dev.map.cols.length →
      Completes .migrationSwitch s fun t => StackOnly s t ∧ siteOf t.dev m.col = m.toSite ∧
        colInc t.dev m.col = nextInc (colInc s.dev m.col) ∧
        (∀ c, c ≠ m.col → siteOf t.dev c = siteOf s.dev c ∧ colInc t.dev c = colInc s.dev c)) ∧
    (m.state = 2 → siteOf s.dev m.col = m.toSite →
      (∀ r ∈ s.dev.noc.reqs, r.pkt.dest = m.fromSite → 2 ≤ r.pkt.destEp) →
      (∀ b ∈ s.dev.prot.banks, b.1 / 384 = m.fromSite → b.2.waiting = []) →
      Completes .migrationOldSiteIdle s fun t => StackOnly s t ∧ t.dev.map.mig = { m with state := 3, mirroring := false } ∧
        (∀ c, siteOf t.dev c = siteOf s.dev c) ∧ t.dev.host.evtSeq = s.dev.host.evtSeq + 1) ∧
    (∀ p, s.dev.sched.swap = some p →
      Completes .backInvalidationDone s fun t => StackOnly s t ∧ t.dev = { s.dev with sched := t.dev.sched } ∧
        t.dev.sched.swap = some { p with backInv := p.backInv.filter (stillHeld s.work), since := s.dev.beat.wbc })


/- Span links. -/

/-- A flit arrives whole: nothing corrected, its CRC right, no reserved field set (R327, R328). -/
def Sys2Proof.soundFlit (f : Flit) : Prop :=
  f.uncorr = false ∧ f.corrected = 0 ∧ f.crc = flitCrc f ∧ f.cls ≤ 5 ∧ f.resv = false

/-- Only the ports of the span part of the stack have changed. -/
def Sys2Proof.portsOnly (s t : State) : Prop :=
  StackOnly s t ∧ t.dev = { s.dev with span := { s.dev.span with ports := t.dev.span.ports } }

/-- R181, R328, R331, R332, R343: a data flit with an uncorrectable codeword, with a wrong CRC, from a stale incarnation or for a flow
that nobody has armed is discarded and counted; else it is placed at the one site that has armed its flow, or it waits in the one
port that forwards its flow. -/
def Sys2Proof.DataFlitsClause : Prop :=
  ∀ (s : State) (p : Port) (f : Flit), s.dev.span.ports.length = 12 →
    (f.uncorr = true → f.corrected = 0 → Completes (.dataFlit p f) s fun t => portsOnly s t ∧
      (t.work.port p).uncorr = sat32 ((s.work.port p).uncorr + 1)) ∧
    (f.uncorr = false → f.corrected = 0 → f.crc ≠ flitCrc f → Completes (.dataFlit p f) s fun t => portsOnly s t ∧
      (t.work.port p).crc = sat32 ((s.work.port p).crc + 1)) ∧
    (soundFlit f → f.cls = 1 → portCarries (s.work.port p) = true →
      (isStale s.dev f.srcId f.srcInc = true → Completes (.dataFlit p f) s fun t => portsOnly s t ∧
        (t.work.port p).stale = sat32 ((s.work.port p).stale + 1)) ∧
      (isStale s.dev f.srcId f.srcInc = false → armedSites s.work f.flow f.seq = [] → (∀ q, portForwards s.work q f.flow = false) →
        Completes (.dataFlit p f) s fun t => portsOnly s t ∧
          (t.work.port p).unarmed = sat32 ((s.work.port p).unarmed + 1)) ∧
      (∀ (site : Nat) (a : FlowArm), isStale s.dev f.srcId f.srcInc = false → armedSites s.work f.flow f.seq = [site] →
        (∀ q, portForwards s.work q f.flow = false) → site ∉ s.dev.noc.fenced → ErrorFree s.dev →
        (s.work.core site).flows.find? (fun g => g.flow == f.flow && !g.send) = some a → f.seq < a.flits →
        a.placed.contains f.seq = false →
        Completes (.dataFlit p f) s fun t => KeepsPins s t ∧ 
          { a with placed := a.placed ++ [f.seq], lastAt := s.dev.beat.wbc } ∈ (t.work.core site).flows) ∧
      (∀ q : Port, isStale s.dev f.srcId f.srcInc = false → armedSites s.work f.flow f.seq = [] →
        (∀ k, portForwards s.work k f.flow = true ↔ k = (q : Nat)) → (s.work.port q).transit.length < 128 →
        Completes (.dataFlit p f) s fun t => portsOnly s t ∧
          (t.work.port q).transit = (s.work.port q).transit ++ [(s.dev.beat.wbc, f)]))

/-- R181, R341, R342, R346, R434, R483, R484: the next flit of a send, whose slot begins within 4 beats, is read into the span section; a management flit goes on by the
multicast or the unicast table; a hold-idle flit announces a pause; a firmware report goes out of the IN_PORT of group 0, and the
master takes it at the root. -/
def Sys2Proof.FlitsTravelClause : Prop :=
  ∀ s : State,
    (∀ (col : Col) (flow k : Nat) (a : FlowArm) (x : StepCtx),
      let c := s.work.core (siteOf s.dev col)
      let n := a.sent + (c.spanFlits.filter fun f => f.1 == flow).length
      c.flows.find? (fun a => a.flow == flow && a.send) = some a → liveCtx s.work (siteOf s.dev col) a.index 0 = some x →
      n < a.flits → n < flitsDue s.work x flow → siteOf s.dev col ∉ s.dev.noc.fenced → c.spanFlits.length < 1280 → ErrorFree s.dev →
      NoneWait s.dev →
      addrKey s.dev (a.addr + 256 * n) = some k →
      Completes (.spanFlitRead col flow) s fun t => StackOnly s t ∧ t.dev = { s.dev with cores := t.dev.cores, prot := t.dev.prot } ∧
        (t.work.core (siteOf s.dev col)).spanFlits = c.spanFlits ++ [(flow, n, s.work.getN k 256)]) ∧
    (∀ (p : Port) (f : Flit), soundFlit f → f.cls = 4 → portCarries (s.work.port p) = true → s.dev.span.ports.length = 12 →
      (f.flow ≠ 0xFF ∨ bits f.seq 20 4 = 1 ∨ bits f.seq 20 4 = 2) → mgmtStale s.dev f = false →
      (∀ q : Nat, f.mcast = false → s.dev.sched.haveActive = true → f.dst ≠ s.dev.span.deviceId → uroute s.work f.dst = q → q < 12 →
        portCarries (s.work.port q) = true →
        Completes (.mgmtFlit p f) s fun t => portsOnly s t ∧
          (t.work.port q).mgmt = (s.work.port q).mgmt ++ [(s.dev.beat.wbc, f)]) ∧
      (∀ (here : Bool) (out : Nat), f.mcast = true → groupOf s.work f.dst = some ((p : Nat), here, out) →
        Completes (.mgmtFlit p f) s fun t => portsOnly s t ∧ ∀ q, q < 12 → portCarries (s.work.port q) = true →
          (t.work.port q).mgmt = (s.work.port q).mgmt ++ (if bitAt out q then [(s.dev.beat.wbc, f)] else []))) ∧
    (∀ (p : Port) (f : Flit), soundFlit f → f.cls = 5 → portCarries (s.work.port p) = true →
      exec (.holdIdleFlit p f) s = .next { s with dev := { s.dev with span := { s.dev.span with
        ports := upd s.dev.span.ports p fun x => { x with holdIdle := true } } } }) ∧
    (∀ (p : Port) (r : FwReport) (g : Nat) (m : Bool × Nat), groupOf s.work 0 = some (g, m) → s.dev.span.ports.length = 12 →
      (g < 12 → portTrained (s.work.port g) = true → Completes (.firmwareReport p r) s fun t => StackOnly s t ∧
        (t.work.port g).recs = (s.work.port g).recs ++ [⟨5, reportBytes r⟩] ∧ t.dev.fw = s.dev.fw) ∧
      (12 ≤ g → s.dev.beat.role = .master → r.session = s.dev.fw.sendSession → 1 ≤ r.kind → r.kind ≤ 4 →
        Completes (.firmwareReport p r) s fun t => StackOnly s t ∧
          fwEntry t.dev r.id = progressAfter (fwEntry s.dev r.id) r ∧
          ∀ id, id ≠ r.id → fwEntry t.dev id = fwEntry s.dev id))

/-- R181, R328, R331, R332, R343, R341, R342, R346, R434, R483: the clauses of DataFlitsClause and of FlitsTravelClause together. -/
def Obligations.FlitsMove : Prop := DataFlitsClause ∧ FlitsTravelClause

/-- R330, R335, R338, R340, R344, R345: a LINK_HELLO of another partner than the expected one puts the port in MISPLACED; one that
closes the measurement fixes the delay and begins qualification; a LANE_STATE joins the pending switch; an ADMIT record is kept
for its beat, a late one costs the alignment; at its beat it sets or clears the incarnation of its device. -/
def Sys2Proof.PortRecordsActClause : Prop :=
  ∀ (s : State) (p : Port), s.dev.span.ports.length = 12 →
    (∀ h : Hello, portTrained (s.work.port p) = true → (h.id ≠ (s.work.port p).expId ∨ h.port ≠ (s.work.port p).expPort) →
      Completes (.linkHello p h) s fun t => StackOnly s t ∧ (t.work.port p).state = .misplaced ∧
        (t.work.port p).misplaced = true ∧ (t.work.port p).pId = h.id ∧ (t.work.port p).pPort = h.port) ∧
    (∀ h : Hello, (s.work.port p).state = .measuring → h.id = (s.work.port p).expId → h.port = (s.work.port p).expPort → h.echoTime ≠ 0 →
      h.oneWayValid = true → max (helloDelay h) h.oneWay + 416 ≤ 64 * 63 →
      Completes (.linkHello p h) s fun t => StackOnly s t ∧ (t.work.port p).state = .qualifying ∧
        (t.work.port p).delay = max 1 ((max (helloDelay h) h.oneWay + 416 + 63) / 64) ∧ (t.work.port p).measured = true) ∧
    (∀ mask sw, portCarries (s.work.port p) = true →
      Completes (.laneState p mask sw) s fun t => portsOnly s t ∧
        ((s.work.port p).switch = none → (t.work.port p).switch = some ⟨Nat.land (s.work.port p).lanes (mask % 16), sw⟩) ∧
        ∀ w, (s.work.port p).switch = some w →
          (t.work.port p).switch = some ⟨Nat.land w.mask (mask % 16), max w.sBeat sw⟩) ∧
    (∀ r : AdmitRec, termAhead s.dev.beat.term r.term = false →
      (∀ k ∈ s.dev.span.admKeys, k.1 = r.term → k.2.1 = r.admSeq → k.2.2 + 1024 < s.dev.beat.wbc) →
      (s.dev.beat.wbc + 64 ≤ r.effectWbc → Completes (.admitRecord p r) s fun t => StackOnly s t ∧
        t.dev.span.admits = s.dev.span.admits ++ [r] ∧ t.dev.span.incs = s.dev.span.incs) ∧
      (r.effectWbc < s.dev.beat.wbc + 64 → Completes (.admitRecord p r) s fun t => StackOnly s t ∧
        t.dev.beat.holdLate = true ∧ t.dev.beat.aligned = false ∧ t.dev.span.admits = s.dev.span.admits)) ∧
    (∀ r : AdmitRec, s.dev.span.admits = [r] → r.effectWbc ≤ s.dev.beat.wbc →
      (r.target ≠ s.dev.span.deviceId → (r.kind = 1 ∨ r.kind = 2) →
        Completes .admitEffect s fun t => StackOnly s t ∧ t.dev = { s.dev with span := t.dev.span } ∧ t.dev.span.admits = [] ∧
          ∀ id, incOf t.dev id = if id = r.target then (if r.kind = 1 then r.newInc else 0) else incOf s.dev id) ∧
      (r.target = s.dev.span.deviceId → r.kind = 1 → s.dev.span.dismissed = false →
        Completes .admitEffect s fun t => StackOnly s t ∧ t.dev.span.selfInc = r.newInc ∧ incOf t.dev r.target = r.newInc ∧
          t.dev.beat.alignLost = false) ∧
      (r.target = s.dev.span.deviceId → r.kind = 2 → s.dev.boot.parts.length = 4 →
        Completes .admitEffect s fun t => StackOnly s t ∧ t.dev.span.dismissed = true ∧ incOf t.dev r.target = 0 ∧
          ∀ q ∈ allParts s.work, partState t.dev q = .faultStop))

/-- The states of a port that runs. -/
def Sys2Proof.liveState (x : PortS) : Prop := x.state = .ready ∨ x.state = .degraded ∨ x.state = .paused

/-- R334, R337, R338, R339, R347, R348, R349: the states of a port: RETRAIN begins training from DOWN, LOST or MISPLACED, a cleared USE
leads to DOWN; three locked lanes lead to MEASURING; qualification ends in READY, DEGRADED or DOWN; a failed lane asks for a switch,
which leads to DEGRADED or, with fewer than three lanes, to LOST; a lost partner leads to LOST. DEVICE_ID is locked while a port is
not DOWN. -/
def Sys2Proof.PortStatesClause : Prop :=
  ∀ (s : State) (p : Port), s.dev.span.ports.length = 12 →
    (∀ v : W32, v.getLsbD 16 = true → v.getLsbD 18 = true → routerUsable s.dev.noc.failed (portSite p) = true →
      ((s.work.port p).state = .down ∨ (s.work.port p).state = .lost ∨ (s.work.port p).state = .misplaced) →
      Completes (.spanPortRetrain p v) s fun t => StackOnly s t ∧ (t.work.port p).state = .training ∧ (t.work.port p).use = true ∧
        (t.work.port p).expId = v.toNat % 2 ^ 11 ∧ (t.work.port p).expPort = v.toNat / 2 ^ 12 % 2 ^ 4 ∧
        (t.work.port p).lanes = 0 ∧ (t.work.port p).measured = false ∧ (t.work.port p).pValid = false ∧
        ∀ q, q ≠ (p : Nat) → t.work.port q = s.work.port q) ∧
    (∀ v : W32, v.getLsbD 16 = false →
      Completes (.spanPortUseClear p v) s fun t => StackOnly s t ∧ (t.work.port p).state = .down ∧ (t.work.port p).use = false ∧
        (t.work.port p).idleElectric = true ∧ ∀ q, q ≠ (p : Nat) → t.work.port q = s.work.port q) ∧
    ((s.work.port p).state = .training → (∀ lanes, lanes < 16 → 3 ≤ laneCount lanes →
      Completes (.trainingLock p lanes) s fun t => StackOnly s t ∧ (t.work.port p).state = .measuring ∧
        (t.work.port p).lanes = lanes) ∧
      (stateLasted s.work p (if (s.work.port p).fastNow then 31250 else 3125000) = true → Completes (.trainingTimeout p) s fun t =>
        StackOnly s t ∧ (t.work.port p).state = .down ∧ (t.work.port p).idleElectric = true)) ∧
    (∀ passed, (s.work.port p).state = .qualifying → stateLasted s.work p (qualBeats (s.work.port p)) = true →
      Completes (.qualificationEnd p passed) s fun t => StackOnly s t ∧
        (t.work.port p).lanePass = Nat.land passed (s.work.port p).lanes ∧
        (t.work.port p).state = (if laneCount (Nat.land passed (s.work.port p).lanes) = 4 then .ready
          else if laneCount (Nat.land passed (s.work.port p).lanes) = 3 then .degraded else .down)) ∧
    (∀ lane : Fin 4, liveState (s.work.port p) → bitAt (s.work.port p).lanes lane = true → (s.work.port p).switch = none →
      Completes (.laneFailure p lane) s fun t => portsOnly s t ∧ (t.work.port p).state = (s.work.port p).state ∧
        (t.work.port p).lanes = (s.work.port p).lanes ∧
        (t.work.port p).lanesFailed = Nat.lor (s.work.port p).lanesFailed (2 ^ lane.val) ∧
        ∃ w, (t.work.port p).switch = some w ∧ w.mask = Nat.land (s.work.port p).lanes (15 - 2 ^ lane.val) ∧ w.sBeat % 8 = 0 ∧
          s.dev.beat.wbc + 2 * (s.work.port p).delay + 4 ≤ w.sBeat ∧ w.sBeat < s.dev.beat.wbc + 2 * (s.work.port p).delay + 12) ∧
    (∀ w, (s.work.port p).switch = some w → w.sBeat ≤ s.dev.beat.wbc → liveState (s.work.port p) →
      (3 ≤ laneCount w.mask → Completes (.laneSwitch p) s fun t => StackOnly s t ∧ (t.work.port p).lanes = w.mask ∧
        (t.work.port p).switch = none ∧
        (t.work.port p).state = if (s.work.port p).state = .paused then .paused else .degraded) ∧
      (laneCount w.mask < 3 → Completes (.laneSwitch p) s fun t => StackOnly s t ∧ (t.work.port p).state = .lost ∧
        (t.work.port p).lost = true)) ∧
    (∀ i : Instr, (i = .codewordLockLoss p ∧ liveState (s.work.port p)) ∨
        (i = .holdIdleTimeout p ∧ (s.work.port p).state = .paused ∧ (s.work.port p).pauseSince + 125000 ≤ s.dev.beat.wbc) →
      Completes i s fun t => StackOnly s t ∧ (t.work.port p).state = .lost ∧ (t.work.port p).lost = true ∧
        (t.work.port p).lossStop = true ∧ t.dev.beat.wbc = s.dev.beat.wbc) ∧
    (∀ v : W32, (∀ x ∈ s.dev.span.ports, x.state = .down) →
      exec (.spanSelfWrite v) s = .next { s with dev := { s.dev with span := { s.dev.span with deviceId := v.toNat % 2 ^ 11 } } }) ∧
    (∀ v : W32, (∃ x ∈ s.dev.span.ports, x.state ≠ .down) → exec (.spanSelfWrite v) s = .next s)

/-- R330, R335, R338, R340, R344, R345, R334, R337, R339, R347, R348, R349: the clauses of PortRecordsActClause and of
PortStatesClause together. -/
def Obligations.PortsChange : Prop := PortRecordsActClause ∧ PortStatesClause


/- The host link. -/

/-- Bytes are stored from a key on, and no other byte of any memory changes. -/
def Sys2Proof.storesAt (s t : State) (k : Nat) (data : List Byte) : Prop :=
  ∀ j, t.mem.get j = if k ≤ j ∧ j < k + data.length then nth data (j - k) 0 else s.mem.get j

/-- A message for the host has joined the queue of the half on which it travels (R352). -/
def Sys2Proof.queuedFor (s t : State) (m : HostMsg) : Prop :=
  (t.work.half (halfFor s.dev m.addr)).txQ = (s.work.half (halfFor s.dev m.addr)).txQ ++ [m]

/-- R351, R355, R356, R358, R368: a half trains; a sound flit brings acknowledgement, credits and, in sequence, its units; any other one
is counted; flits are sent again from the one asked for; a half that fails hands what it has not been acknowledged for to the other
half, after a HALF_STATE. -/
def Obligations.HostHalves : Prop :=
  ∀ (s : State) (h : Half), s.dev.host.halves.length = 2 →
    ((s.work.half h).state ≠ 2 → s.dev.boot.power ≠ .off → halfUsable s.dev h = true →
      Completes (.halfTrained h) s fun t => StackOnly s t ∧ t.dev = { s.dev with host := t.dev.host } ∧
        (t.work.half h).state = 2 ∧ (t.work.half h).txQ = (s.work.half h).txQ ∧ (t.work.half h).unacked = [] ∧
        t.dev.host.evtSeq = s.dev.host.evtSeq + 1) ∧
    (∀ f : HostFlit, (s.work.half h).state = 2 →
      ((f.uncorr = true ∨ 2 ≤ f.kind ∨ crc32c (hostFlitBytes f) ≠ f.crc) →
        exec (.hostFlit h f) s = .next { s with dev := { s.dev with host := { s.dev.host with
          halves := upd s.dev.host.halves h fun x => { x with crcErr := sat32 (x.crcErr + 1), retryPending := true } } } }) ∧
      (f.uncorr = false → crc32c (hostFlitBytes f) = f.crc → f.retryReq = false →
        (f.kind = 0 → Completes (.hostFlit h f) s fun t => StackOnly s t ∧ t.dev = { s.dev with host := t.dev.host } ∧
          (t.work.half h).unacked = (if f.ackValid then dropAcked f.ackSeq (s.work.half h).unacked else (s.work.half h).unacked) ∧
          (t.work.half h).rxSeq = (s.work.half h).rxSeq ∧ (t.work.half h).rxUnits = (s.work.half h).rxUnits) ∧
        (f.kind = 1 → f.seq = (if (s.work.half h).rxGot then ((s.work.half h).rxSeq + 1) % 4096 else 0) →
          Completes (.hostFlit h f) s fun t => StackOnly s t ∧ t.dev = { s.dev with host := t.dev.host, free := t.dev.free } ∧
            (t.work.half h).rxSeq = f.seq ∧ (t.work.half h).rxGot = true ∧ (t.work.half h).retryPending = false))) ∧
    (∀ n, (s.work.half h).resend = some n → Completes (.hostFlitResend h) s fun t => StackOnly s t ∧
      (t.work.half h).resend = none ∧
      (t.work.half h).retries = sat32 ((s.work.half h).retries + ((s.work.half h).unacked.dropWhile fun e => e.seq != n).length) ∧
      (t.work.half h).txNow = ((s.work.half h).unacked.dropWhile fun e => e.seq != n).take 25 ∧
      (t.work.half h).unacked = (s.work.half h).unacked) ∧
    (∀ (o : Half) (i : Instr), (i = .halfNoProgress h ∨ (∃ l, i = .halfLaneFailure h l) ∨
        (∃ b : BitVec 2, i = .halfState b ∧ b.getLsbD h = false ∧ b.getLsbD o = true)) → o ≠ h →
      (s.work.half h).state = 2 → (s.work.half o).state = 2 →
      Completes i s fun t => StackOnly s t ∧ t.dev = { s.dev with host := t.dev.host } ∧ (t.work.half h).state = 0 ∧
        (t.work.half h).idleElectric = true ∧ (t.work.half h).txQ = [] ∧ (t.work.half h).unacked = [] ∧
        t.dev.host.evtSeq = s.dev.host.evtSeq + 1 ∧
        (t.work.half o).txQ = ({ op := 0x40, addr := 2 ^ o.val } : HostMsg) ::
          (((s.work.half h).unacked.flatMap SentFlit.msgs) ++ (s.work.half h).txQ) ++ (s.work.half o).txQ)

/-- R79, R242, R358, R360, R361, R364, R365, R366: a request of the host that no rule refuses is served at once when its line has no
transaction: RD_SHARED and RD_OWN grant the line with its data and record it, RD_UC answers with data, WR_UC stores its masked
bytes, WB_DIRTY stores the line and EVICT_CLEAN gives it up; a refused request is answered with its cause and counted; a stale
writeback is answered with STATUS 3 and stores nothing. -/
def Obligations.HostRequests : Prop :=
  ∀ (s : State) (h : Half) (tag a : Nat), s.dev.host.halves.length = 2 → halfShut s.work h = false → a % 128 = 0 →
    (∀ e ∈ [(Instr.rdShared h tag a, false), (.rdOwn h tag a, true)],
      (∀ k, accessCause s.work a 128 false true = none → mailboxLocked s.work a = false → behindReset s.work a = false →
        (∀ x ∈ s.dev.host.txns, x.line ≠ lineOf s.dev a) → s.dev.host.filter.length < 2 ^ 20 → ErrorFree s.dev → NoneWait s.dev →
        leavingGranule s.work a = none → addrKey s.dev a = some k →
        Completes e.1 s fun t => StackOnly s t ∧ t.dev = { s.dev with host := t.dev.host, prot := t.dev.prot } ∧
          queuedFor s t { op := 0x20, st := if e.2 then 2 else 1, tag := tag, addr := a, data := s.work.getN k 128 } ∧
          assoc t.dev.host.filter (lineOf s.dev a) = some e.2 ∧
          ∀ l, l ≠ lineOf s.dev a → assoc t.dev.host.filter l = assoc s.dev.host.filter l) ∧
      (∀ c, accessCause s.work a 128 false true = some c →
        Completes e.1 s fun t => StackOnly s t ∧ queuedFor s t { op := 0x23, tag := tag, addr := a, status := 1, cause := c } ∧
          t.dev.map.errCount = sat32 (s.dev.map.errCount + 1) ∧ t.dev.host.filter = s.dev.host.filter ∧
          (s.dev.map.errValid = false → t.dev.map.errValid = true ∧ t.dev.map.errAddr = a ∧ t.dev.map.errCause = c))) ∧
    (∀ len k, csrOffset s.work a = none → 0 < len → len % 4 = 0 → len ≤ 128 → accessCause s.work a len false false = none →
      behindReset s.work a = false → (∀ x ∈ s.dev.host.txns, x.line ≠ lineOf s.dev a) → ErrorFree s.dev → NoneWait s.dev →
      fencedAt s.work a = none → addrKey s.dev a = some k →
      Completes (.rdUc h tag a len) s fun t => StackOnly s t ∧ t.dev = { s.dev with host := t.dev.host, prot := t.dev.prot } ∧
        queuedFor s t { op := 0x21, tag := tag, len := len % 128, addr := a, data := s.work.getN k len }) ∧
    (∀ data mask k, data.length = 128 → mask.length = 128 → csrOffset s.work a = none → accessCause s.work a 128 true false = none →
      mailboxLocked s.work a = false → behindReset s.work a = false → (∀ x ∈ s.dev.host.txns, x.line ≠ lineOf s.dev a) →
      ErrorFree s.dev → NoneWait s.dev → fencedAt s.work a = none → s.mem.wf = true → s.dev.map.mig.mirroring = false →
      (∀ o, place s.dev.map.n a ≠ .mailbox o) → addrKey s.dev a = some k →
      Completes (.wrUc h tag a data mask) s fun t => KeepsPins s t ∧ queuedFor s t { op := 0x22, tag := tag, addr := a } ∧
        ∀ j, t.mem.get j = if k ≤ j ∧ j < k + 128 ∧ nth mask (j - k) false = true then nth data (j - k) 0 else s.mem.get j) ∧
    (∀ data k, data.length = 128 → ownsLine s.dev.host (lineOf s.dev a) = true → accessCause s.work a 128 true true = none →
      behindReset s.work a = false → ErrorFree s.dev → NoneWait s.dev → s.mem.wf = true → s.dev.map.mig.mirroring = false → (∀ o, place s.dev.map.n a ≠ .mailbox o) → addrKey s.dev a = some k →
      Completes (.wbDirty h tag a data) s fun t => KeepsPins s t ∧ queuedFor s t { op := 0x22, tag := tag, addr := a } ∧
        storesAt s t k data ∧ assoc t.dev.host.filter (lineOf s.dev a) = none) ∧
    (∀ data c, ownsLine s.dev.host (lineOf s.dev a) = true → accessCause s.work a 128 true true = some c →
      Completes (.wbDirty h tag a data) s fun t => StackOnly s t ∧
        queuedFor s t { op := 0x23, tag := tag, addr := a, status := 1, cause := c } ∧
        assoc t.dev.host.filter (lineOf s.dev a) = none ∧ t.dev.map.errCount = sat32 (s.dev.map.errCount + 1)) ∧
    (∀ data, ownsLine s.dev.host (lineOf s.dev a) = false →
      Completes (.wbDirty h tag a data) s fun t => StackOnly s t ∧
        queuedFor s t { op := 0x23, tag := tag, addr := a, status := 3 } ∧ t.dev.host.filter = s.dev.host.filter ∧
        t.dev.host.evtSeq = s.dev.host.evtSeq + 1) ∧
    Completes (.evictClean h tag a) s fun t => StackOnly s t ∧ t.dev = { s.dev with host := t.dev.host } ∧
      queuedFor s t { op := 0x22, tag := tag, addr := a } ∧ assoc t.dev.host.filter (lineOf s.dev a) = none ∧
      ∀ l, l ≠ lineOf s.dev a → assoc t.dev.host.filter l = assoc s.dev.host.filter l

/-- R361, R362, R363, R364: the answer to a snoop, or its timeout, ends the snooping transaction of its line: a waiting device write is
then performed, data that the host returned is stored first; a timeout drops the line, marks it stale and is counted; the next
transaction of the line begins with HOME_TRANSACTION_RESUME. -/
def Obligations.SnoopsEnd : Prop :=
  ∀ (s : State) (h : Half) (tag a : Nat) (x : Txn), s.dev.host.halves.length = 2 → halfShut s.work h = false → a % 128 = 0 →
    s.dev.host.txns.find? (fun t => t.line == lineOf s.dev a && t.snooping) = some x →
    (∀ b who data mask k, x.req = .devWrite b who data mask → ErrorFree s.dev → NoneWait s.dev → s.mem.wf = true → s.dev.map.mig.mirroring = false →
      data.length = mask.length → addrKey s.dev b = some k →
      Completes (.snpRsp h tag a 0 none) s fun t => KeepsPins s t ∧ assoc t.dev.host.filter (lineOf s.dev a) = none ∧
        t.dev.host.txns = s.dev.host.txns.eraseP (fun z => z.line == lineOf s.dev a && z.snooping) ∧
        ∀ j, t.mem.get j = if k ≤ j ∧ j < k + data.length ∧ nth mask (j - k) false = true then nth data (j - k) 0 else s.mem.get j) ∧
    (∀ g data k, x.req = .backInv g → data.length = 128 → ownsLine s.dev.host (lineOf s.dev a) = true →
      accessCause s.work a 128 true true = none → ErrorFree s.dev → NoneWait s.dev → s.mem.wf = true → s.dev.map.mig.mirroring = false →
      (∀ o, place s.dev.map.n a ≠ .mailbox o) → addrKey s.dev a = some k →
      Completes (.snpRsp h tag a 0 (some data)) s fun t => KeepsPins s t ∧ storesAt s t k data ∧
        assoc t.dev.host.filter (lineOf s.dev a) = none ∧
        t.dev.host.txns = s.dev.host.txns.eraseP (fun z => z.line == lineOf s.dev a && z.snooping)) ∧
    (∀ g, x.req = .backInv g → x.since + 31250 ≤ s.dev.beat.wbc → Completes (.snoopTimeout (lineOf s.dev a)) s fun t => StackOnly s t ∧
      t.dev = { s.dev with host := t.dev.host } ∧ assoc t.dev.host.filter (lineOf s.dev a) = none ∧
      lineOf s.dev a ∈ t.dev.host.stale ∧ t.dev.host.snoopTimeouts = sat32 (s.dev.host.snoopTimeouts + 1) ∧
      t.dev.host.evtSeq = s.dev.host.evtSeq + 1) ∧
    (∀ (line : Nat) (z : Txn) (h2 : Nat) (tag2 b k : Nat), (∀ w ∈ s.dev.host.txns, w.line = line → w.snooping = false) →
      s.dev.host.txns.find? (fun w => w.line == line) = some z → z.req = .shared h2 tag2 b → lineOf s.dev b = line →
      s.dev.host.filter.length < 2 ^ 20 → ErrorFree s.dev → NoneWait s.dev → leavingGranule s.work b = none → addrKey s.dev b = some k →
      Completes (.homeTransactionResume line) s fun t => StackOnly s t ∧ t.dev = { s.dev with host := t.dev.host, prot := t.dev.prot } ∧
        t.dev.host.txns = s.dev.host.txns.eraseP (fun w => w.line == line) ∧
        queuedFor s t { op := 0x20, st := 1, tag := tag2, addr := b, data := s.work.getN k 128 } ∧
        assoc t.dev.host.filter line = some false)

/-- The host holds no line and no transaction is open; the memories have their canonical form. -/
def Sys2Proof.HostQuiet (s : State) : Prop := s.dev.host.filter = [] ∧ s.dev.host.txns = [] ∧ s.mem.wf = true

/-- A mailbox has been answered: OWNER, STATUS and STATE (R369, R373, R376). -/
def Sys2Proof.Answered (t : State) (m : Mbx) (status state : Nat) : Prop :=
  t.mem.get (mbxKey (256 * m)) = 0 ∧ t.mem.get (mbxKey (256 * m + 8)) = BitVec.ofNat 8 status ∧
    t.mem.get (mbxKey (256 * m + 9)) = BitVec.ofNat 8 state

/-- R357, R367, R377, R394, R492: data of a host read is written where its move wants it; the answer to a write ends it; an access that
was not performed ends its step with BUS_ERROR; a queued event record is written when the ring is set and has room; a consumer
write stores the count. -/
def Sys2Proof.HostAnswersClause : Prop :=
  ∀ (s : State) (tag : Nat) (a : HostAcc), s.dev.host.accs.find? (fun a => a.sent && a.tag == tag) = some a →
    (∀ (c i pos k : Nat) (x : StepCtx) (m : MovePiece) (data : List Byte), a.write = false → a.use = .stepRead c i pos →
      data.length = a.len → liveCtx s.work (siteOf s.dev c) i 0 = some x → mvTranspose x.d = false →
      (movePieces x.d)[pos]? = some m → (moveAddr x.d 0x20).1 = false → whose s.dev.map.n x.col m.dst = .buf →
      m.dst % 256 + data.length ≤ 256 → addrKey s.dev m.dst = some k → ErrorFree s.dev → s.mem.wf = true →
      Completes (.hdata tag data) s fun t => KeepsPins s t ∧ storesAt s t k data ∧
        t.dev.host.accs = s.dev.host.accs.filter fun x => !(x.sent && x.tag == tag)) ∧
    (∀ (m : Mbx) (pos : Nat) (data : List Byte) (r : CmdRun), a.write = false → a.use = .cmdRef m pos → openCmd s.dev m = some r →
      data.length = a.len → 1 < r.pendingRefs →
      Completes (.hdata tag data) s fun t => StackOnly s t ∧
        openCmd t.dev m = some { r with pendingRefs := r.pendingRefs - 1 } ∧
        t.dev.host.refData = s.dev.host.refData ++ [((m : Nat), pos, data)]) ∧
    (∀ q, (a.use = .stsProducer q ∨ a.use = .evtProducer ∨ (∃ c i, a.use = .stepWrite c i)) →
      exec (.hack tag) s = .next { s with dev := { s.dev with host := { s.dev.host with
        accs := s.dev.host.accs.filter fun x => !(x.sent && x.tag == tag) } } }) ∧
    (∀ c i status, ((∃ pos, a.use = .stepRead c i pos) ∨ a.use = .stepWrite c i) →
      (liveStep (s.work.core (siteOf s.dev c)) i).isSome = true →
      Completes (.herr tag status) s fun t => StackOnly s t ∧ liveStep (t.work.core (siteOf s.dev c)) i = none ∧
        s.dev.faults.frSeq < t.dev.faults.frSeq ∧ ∀ x ∈ t.dev.host.accs, ¬ (x.sent = true ∧ x.tag = tag))

/-- R377, R378, R394: the oldest queued record is written to the event ring when it is set, has room and the link is up; the consumer
registers take what the host writes. -/
def Sys2Proof.RingsAdvanceClause : Prop :=
  ∀ s : State,
    (∀ (r : RingRec) (rest : List RingRec), s.dev.host.queue = r :: rest → r.bytes ≠ [] → s.dev.host.ringSet = true →
      linkLost s.dev = false → ringFull s.dev.host.ringSize s.dev.host.produced s.dev.host.evtConsumer = false →
      Completes .eventRingFlush s fun t => StackOnly s t ∧ t.dev = { s.dev with host := t.dev.host } ∧ t.dev.host.queue = rest ∧
        t.dev.host.produced = s.dev.host.produced + 1 ∧ ∃ x ∈ t.dev.host.accs, x.write = true ∧ x.use = .evtRecord) ∧
    (s.dev.host.queue = [] ∨ s.dev.host.ringSet = false ∨ linkLost s.dev = true ∨
      ringFull s.dev.host.ringSize s.dev.host.produced s.dev.host.evtConsumer = true → exec .eventRingFlush s = .next s) ∧
    (s.dev.boot.power ≠ .off → ∀ v : W32, exec (.hlEvtConsumerWrite v) s = .next { s with dev := { s.dev with
      host := { s.dev.host with evtConsumer := v.toNat } } }) ∧
    (s.dev.boot.power ≠ .off → ∀ (q : Part) (v : W32), exec (.hlStsConsumerWrite q v) s = .next { s with dev := { s.dev with
      sched := { s.dev.sched with rings := upd s.dev.sched.rings q fun r => { r with consumer := v.toNat } } } })

/-- R357, R367, R377, R394, R492, R378: the clauses of HostAnswersClause and of RingsAdvanceClause together. -/
def Obligations.HostAnswersAndRings : Prop := HostAnswersClause ∧ RingsAdvanceClause

/-- R369, R373, R376, R381: a handover whose command is in the mailbox is taken in order and acknowledged with STATE 1; an unknown group
or verb is answered with STATUS 0x40; a command that ended while IN_PROGRESS is reported once, with its event. -/
def Obligations.MailboxLife : Prop :=
  ∀ s : State,
    (∀ (m : Mbx) (rest : List Nat), s.dev.host.handovers = m.val :: rest → s.dev.host.taking = true → HostQuiet s →
      bitAt (fld (s.work.getN (mbxKey (256 * m)) 256) 1 1) 0 = false → fld (s.work.getN (mbxKey (256 * m)) 256) 6 2 ≤ 224 →
      Completes .mailboxTake s fun t => KeepsPins s t ∧ t.dev.host.handovers = rest ∧
        t.mem.get (mbxKey (256 * m + 9)) = 1 ∧
        ∃ r, t.dev.host.cmds = s.dev.host.cmds ++ [r] ∧ r.mb = (m : Nat) ∧ r.final = none ∧ r.inProgress = false ∧ r.pendingRefs = 0 ∧
          r.group = (s.mem.get (mbxKey (256 * m + 5))).toNat ∧ r.verb = (s.mem.get (mbxKey (256 * m + 4))).toNat ∧
          r.payload = s.work.getN (mbxKey (256 * m + 32)) (fld (s.work.getN (mbxKey (256 * m)) 256) 6 2)) ∧
    (∀ (m : Mbx) (r : CmdRun), openCmd s.dev m = some r → (r.verb = 0 ∨ verbsOf r.group < r.verb) → HostQuiet s →
      Completes (.commandUnknown m) s fun t => KeepsPins s t ∧ Answered t m 0x40 3 ∧ openCmd t.dev m = none) ∧
    (∀ (m : Mbx) (r : CmdRun) (f : Nat × List Byte),
      s.dev.host.cmds.find? (fun r => r.mb == m.val && r.inProgress && r.final.isSome && r.destPending == 0) = some r →
      r.final = some f →
      Completes (.commandDone m) s fun t => StackOnly s t ∧ t.dev = { s.dev with host := t.dev.host } ∧
        t.dev.host.cmds = s.dev.host.cmds.filter (· != r) ∧ t.dev.host.evtSeq = s.dev.host.evtSeq + 1)

/- Registers. -/

/-- The register writes that have a row of their own, with the offset of their register in CSR space. -/
def Sys2Proof.registerRows (v : W32) : List (Nat × Instr) :=
  [(0x40000, .memMapCtrlWrite v), (0x60018, .dpInjCtrlWrite v), (0x50110, .rlCountCtrlClear v), (0x70010, .nocCountCtrlClear v),
   (0x80000, .spanSelfWrite v), (0x80008, .spanCountCtrlClear v), (0x90004, .hlEvtConsumerWrite v), (0xB0300, .pwrCountCtrlClear v),
   (0xC0008, .seCountCtrlClear v), (0x20088, .beatLoadCtrlWrite v)]

/-- The register rows that act only while the stack runs. -/
def Sys2Proof.guardedRows (site : Site) (v : W32) : List Instr :=
  [.memMapCtrlWrite v, .dpInjCtrlWrite v, .seqCountsWrite site v, .arrayCountCtrlClear site v, .rlCountCtrlClear v, .nocCountCtrlClear v,
   .spanCountCtrlClear v, .pwrCountCtrlClear v, .seCountCtrlClear v, .hlEvtConsumerWrite v]

/-- R6, R56, R122, R189, R227, R253, R272, R299, R323, R349, R366, R477: the register writes. While the stack is off they do nothing; a
register write at the address of a register is that register's write; the clears clear their counters and nothing else; ARM is
refused where a partition is live. -/
def Obligations.RegisterWrites : Prop :=
  ∀ (s : State) (site : Site) (v : W32),
    (s.dev.boot.power = .off → ∀ i ∈ guardedRows site v, exec i s = .next s) ∧
    (s.dev.boot.power ≠ .off →
      (∀ e ∈ registerRows v, exec (.registerWrite (0x7F00000000 + e.1) v) s = exec e.2 s) ∧
      exec (.registerWrite 0x7F00020024 v) s = .next { s with dev := { s.dev with beat := { s.dev.beat with
        alignLost := s.dev.beat.alignLost && !v.getLsbD 4, ledgerMismatch := s.dev.beat.ledgerMismatch && !v.getLsbD 5
        holdLate := s.dev.beat.holdLate && !v.getLsbD 6, confirmMissing := s.dev.beat.confirmMissing && !v.getLsbD 7
        setMismatch := s.dev.beat.setMismatch && !v.getLsbD 8 } } } ∧
      exec (.memMapCtrlWrite v) s = .next { s with dev := { s.dev with map := { s.dev.map with
        maint := if v.getLsbD 0 && anyLive s.dev then s.dev.map.maint else v.getLsbD 0
        maintRefused := (v.getLsbD 0 && anyLive s.dev) || (s.dev.map.maintRefused && !v.getLsbD 1) } } } ∧
      (v.getLsbD 2 = true → anyLive s.dev = true → Completes (.dpInjCtrlWrite v) s fun t => StackOnly s t ∧
        t.dev.prot.injArm = false ∧ t.dev.prot.injCancelled = true ∧ t.dev.prot.injCount = v.toNat % 4) ∧
      (v.getLsbD 2 = true → anyLive s.dev = false → injectable s.work s.dev.prot.injAddr (v.toNat % 4) = true →
        Completes (.dpInjCtrlWrite v) s fun t => StackOnly s t ∧ t.dev = { s.dev with prot := t.dev.prot } ∧
          t.dev.prot.injArm = true ∧ t.dev.prot.injCount = v.toNat % 4) ∧
      exec (.seqCountsWrite site v) s = .next { s with dev := { s.dev with cores := upd s.dev.cores site fun c => { c with
        missed := if v.toNat % 2 ^ 16 = 0 then c.missed else 0, retViol := if v.toNat / 2 ^ 16 = 0 then c.retViol else 0 } } } ∧
      (v.getLsbD 0 = true →
        exec (.arrayCountCtrlClear site v) s = .next { s with dev := { s.dev with cores := upd s.dev.cores site fun c => { c with
          checkCount := 0, checkFail := 0, checkSkipped := 0, feedStall := 0, drainStall := 0 } } } ∧
        exec (.rlCountCtrlClear v) s = .next { s with dev := { s.dev with prot := { s.dev.prot with
          rlRefused := 0, rlThrottleWait := 0, rlBusCopies := 0, rlReqWaits := 0 } } } ∧
        exec (.nocCountCtrlClear v) s = .next { s with dev := { s.dev with noc := { s.dev.noc with
          sites := s.dev.noc.sites.map fun x => { x with fenceDrops := 0, staleDrops := 0, vcRetries := 0, shuttleErr := 0 } } } } ∧
        exec (.spanCountCtrlClear v) s = .next { s with dev := { s.dev with span := { s.dev.span with
          ports := s.dev.span.ports.map fun p =>
            { p with corr := 0, uncorr := 0, crc := 0, stale := 0, unarmed := 0, transitN := 0, pauseN := 0 } } } } ∧
        exec (.pwrCountCtrlClear v) s = .next { s with dev := { s.dev with power := { s.dev.power with
          sites := s.dev.power.sites.map fun x => { x with bubble := 0, droop := 0, bursts := 0 } } } } ∧
        exec (.seCountCtrlClear v) s = .next { s with dev := { s.dev with faults := { s.dev.faults with
          resends := 0, sites := s.dev.faults.sites.map fun _ => {} } } }) ∧
      (v.getLsbD 0 = false → ∀ i ∈ [Instr.arrayCountCtrlClear site v, .rlCountCtrlClear v, .nocCountCtrlClear v,
        .spanCountCtrlClear v, .pwrCountCtrlClear v, .seCountCtrlClear v], exec i s = .next s))


/- The start-up. -/

/-- The steps that only begin with GO: code and command. -/
def Sys2Proof.plainBootSteps : List (Nat × Instr) := [(1, .selftest), (2, .dramInit), (3, .fill), (4, .checker), (6, .fwReceive)]

/-- R401, R403, R405, R423: GO starts a boot step that is permitted; while a step is busy, or out of its order, it is refused with error 1,
and a warm start without WARM_OK with error 2; what runs goes on. No memory changes. -/
def Obligations.BootStepsBegin : Prop :=
  ∀ (s : State) (e : Nat × Instr), s.dev.boot.power ≠ .off →
    (e ∈ plainBootSteps → s.dev.boot.busyStep = 0 → stepPermitted s.dev e.1 = true →
      (e.1 = 1 → s.dev.boot.ctrlWarm = true → s.dev.boot.warmOk = true) →
      Completes e.2 s fun t => StackOnly s t ∧ stepBusy t.dev e.1 = true ∧ t.dev.boot.stepResult = 1 ∧ t.dev.boot.stepError = 0 ∧
        t.dev.boot.power = s.dev.boot.power ∧ t.dev.boot.lastDone = s.dev.boot.lastDone ∧
        (e.1 = 1 → t.dev.boot.warmStart = s.dev.boot.ctrlWarm ∧
          t.dev.noc.fenced = if s.dev.boot.ctrlWarm then s.dev.noc.fenced else []) ∧
        (e.1 = 6 → t.dev.fw.receiving = true ∧ t.dev.fw.pieces = [] ∧ t.dev.fw.session = 0)) ∧
    (e ∈ (5, .fwLoad) :: plainBootSteps → s.dev.boot.busyStep ≠ 0 ∨ stepPermitted s.dev e.1 = false →
      Completes e.2 s fun t => StackOnly s t ∧ t.dev.host.evtSeq = s.dev.host.evtSeq + 1 ∧
        t.dev = { s.dev with boot := { s.dev.boot with ctrlStep := e.1, stepResult := 3, stepError := 1 }, host := t.dev.host }) ∧
    (s.dev.boot.busyStep = 0 → stepPermitted s.dev 1 = true → s.dev.boot.ctrlWarm = true → s.dev.boot.warmOk = false →
      Completes .selftest s fun t => StackOnly s t ∧
        t.dev.boot = { s.dev.boot with ctrlStep := 1, stepResult := 3, stepError := 2 }) ∧
    (s.dev.boot.busyStep = 0 → stepPermitted s.dev 5 = true → reverifies s.dev = false → s.dev.boot.manLen = 7380 →
      Completes .fwLoad s fun t => KeepsPins s t ∧ stepBusy t.dev 5 = true ∧ t.dev.fw.state = 1 ∧ t.dev.fw.retained = false ∧
        fwReadsLeft t.dev = true ∧ (∀ k, k < 2 ^ 45 → t.mem.get k = s.mem.get k))

/-- R284, R285, R287, R307, R397, R403, R408, R410: the steps that end the start-up of the memories. SELFTEST fixes the routers in
service, DRAM_INIT wants usable memory, FILL leaves zeros in every usable buffer and, at a cold start, in every usable DRAM, and
CHECKER leads to MEM_READY where some site can carry a column. -/
def Obligations.BootStepsEnd : Prop :=
  ∀ s : State,
    (∀ found, stepBusy s.dev 1 = true → defectsLeft s.dev = false →
      let failed := badRouters (addFindings s.work found).dev
      (meshUsable failed = true → Completes (.selftestComplete found false) s fun t => StackOnly s t ∧
        t.dev.noc.failed = failed ∧ t.dev.boot.stepResult = 2 ∧ t.dev.boot.stepError = 0 ∧ t.dev.boot.lastDone = 1) ∧
      (meshUsable failed = false → Completes (.selftestComplete found false) s fun t => StackOnly s t ∧
        t.dev.noc.failed = failed ∧ t.dev.boot.fatal = true ∧ t.dev.boot.stepResult = 3 ∧ t.dev.boot.stepError = 3) ∧
      Completes (.selftestComplete found true) s fun t => StackOnly s t ∧ t.dev.boot.fatal = true ∧ t.dev.boot.stepResult = 3 ∧
        t.dev.boot.stepError = 3 ∧ ∀ u ∈ found, ∃ v ∈ t.dev.boot.badUnits, sameUnit u v = true ∧ v.test = true ∧ v.thisStart = true) ∧
    (∀ found, stepBusy s.dev 2 = true →
      ((∃ k, k < 18 ∧ memUsable (addFindings s.work found).dev k = true) → Completes (.dramInitComplete found) s fun t => StackOnly s t ∧
        t.dev.boot.selfRefresh = false ∧ t.dev.boot.stepResult = 2 ∧ t.dev.boot.lastDone = 2) ∧
      ((∀ k, k < 18 → memUsable (addFindings s.work found).dev k = false) → Completes (.dramInitComplete found) s fun t => StackOnly s t ∧
        t.dev.boot.fatal = true ∧ t.dev.boot.stepResult = 3 ∧ t.dev.boot.stepError = 4)) ∧
    (stepBusy s.dev 3 = true → ∀ beats,
      (beats ≤ fillBound s.dev.boot.warmStart → s.mem.wf = true → Completes (.memoryFillComplete beats false) s fun t => KeepsPins s t ∧
        t.dev.prot.fillDone = true ∧ t.dev.prot.fillBeats = beats ∧ t.dev.boot.stepResult = 2 ∧ t.dev.boot.lastDone = 3 ∧
        (∀ site i, site < 18 → memUsable s.dev site = true →
          (i < bufBytes → t.mem.get (bufKey site i) = 0) ∧
          (i < colBytes → t.mem.get (dramKey site i) = if s.dev.boot.warmStart then s.mem.get (dramKey site i) else 0)) ∧
        (∀ site i, site < 18 → memUsable s.dev site = false →
          (i < bufBytes → t.mem.get (bufKey site i) = s.mem.get (bufKey site i)) ∧
          (i < colBytes → t.mem.get (dramKey site i) = s.mem.get (dramKey site i))) ∧
        ∀ k, 2 ^ 42 ≤ k → t.mem.get k = s.mem.get k) ∧
      (∀ expired, (expired = true ∨ fillBound s.dev.boot.warmStart < beats) → Completes (.memoryFillComplete beats expired) s fun t => StackOnly s t ∧
        t.dev.boot.fatal = true ∧ t.dev.boot.stepError = 5 ∧ t.dev.prot.fillDone = s.dev.prot.fillDone)) ∧
    (∀ answers, stepBusy s.dev 4 = true → s.dev.boot.power = .baseOn →
      let failed := failedSites answers
      let d := (addFindings s.work (failed.map fun x => ⟨7, x, 0, false, false, false, false⟩)).dev
      ((∃ k, k < 18 ∧ memUsable d k = true ∧ coreUsable d k = true) →
        Completes (.checkerComplete answers) s fun t => StackOnly s t ∧ t.dev.boot.power = .memReady ∧ t.dev.boot.reachedMem = true ∧
          t.dev.boot.stepResult = 2 ∧ t.dev.boot.lastDone = 4 ∧ t.dev.prot.selfDone = true ∧ t.dev.prot.selfFail = !failed.isEmpty ∧
          t.dev.prot.selfSites = failed ∧
          (s.dev.boot.warmStart = false → 1 ≤ t.dev.map.n ∧ t.dev.map.n ≤ 16 ∧
            ∀ c, c < t.dev.map.n → memUsable d (siteOf t.dev c) = true ∧ coreUsable d (siteOf t.dev c) = true ∧
              siteOf t.dev c ∉ failed ∧ ∀ c', c' < c → siteOf t.dev c' < siteOf t.dev c)) ∧
      ((∀ k, k < 18 → memUsable d k = false ∨ coreUsable d k = false) →
        Completes (.checkerComplete answers) s fun t => StackOnly s t ∧ t.dev.boot.fatal = true ∧ t.dev.boot.stepError = 9 ∧
          t.dev.boot.power = .baseOn ∧ t.dev.prot.selfSites = failed))

/-- R109, R410, R411, R414, R438, R439: a core wave ramps its sites, which wait fenced; a core that passed receives the column part of
the firmware, and the next wave follows, after wave 4 the final map and its admission; a core holds the pieces that reach it; with
the digest right it is loaded, else it is load-failed, fenced and reported. -/
def Obligations.CoreWaves : Prop :=
  ∀ s : State,
    (s.dev.boot.wavesBusy = true → s.dev.boot.ramped = false → s.dev.boot.wave ≤ 4 →
      s.dev.boot.wavesAt * 64 + 1500000 * s.dev.boot.wave < (s.dev.beat.wbc + 1) * 64 → s.dev.power.clocksStopped = false →
      Completes .coreWaveRamp s fun t => StackOnly s t ∧ t.dev.boot.ramped = true ∧ t.dev.boot.wave = s.dev.boot.wave ∧
        ∀ x ∈ waveSites s.dev s.dev.boot.wave, x ∈ t.dev.boot.powered ∧ x ∈ t.dev.noc.fenced) ∧
    (s.dev.boot.wavesBusy = true → s.dev.boot.ramped = true →
      ∀ (failed : List Site) (found : List BadUnit),
      let d := (addFindings s.work found).dev
      (s.dev.boot.wave < 4 → Completes (.coreWaveTestDone failed found) s fun t => StackOnly s t ∧ t.dev.boot.ramped = false ∧
        t.dev.boot.wave = s.dev.boot.wave + 1 ∧
        (∀ x ∈ waveSites s.dev s.dev.boot.wave, x ∈ s.dev.boot.powered → coreUsable d x = true → x ∉ failed.map (·.val) →
          x ∈ t.dev.boot.cleanSites ∧ (assoc t.dev.fw.segPieces x).isSome = true) ∧
        ∀ x ∈ waveSites s.dev s.dev.boot.wave, x ∈ failed.map (·.val) ∨ coreUsable d x = false →
          x ∉ t.dev.boot.powered ∧ x ∉ t.dev.boot.coreOk) ∧
      (s.dev.boot.wave = 4 → Completes (.coreWaveTestDone failed found) s fun t => StackOnly s t ∧ t.dev.boot.wave = 7 ∧
        t.dev.boot.mapFinal = true ∧ t.dev.boot.mapDigest = sha256 (resourceMap t.work) ∧
        ∃ a, t.dev.noc.admits = s.dev.noc.admits ++ [a] ∧ a.wave = true ∧ a.written = false ∧ a.cols = waveColumns t.dev)) ∧
    (∀ (site : Site) (l : List (Nat × List Byte)), assoc s.dev.fw.segPieces site = some l →
      (∀ piece session data found, (∀ f, found = some f → (messageWay s.work 24 site).contains f.val = false) →
        ((∀ p ∈ l, p.1 ≠ piece) → Completes (.columnSegmentPiece site piece session data found) s fun t => StackOnly s t ∧
          t.dev = { s.dev with fw := t.dev.fw } ∧ assoc t.dev.fw.segPieces site = some (l ++ [(piece, padTo 24 data)])) ∧
        ((∃ p ∈ l, p.1 = piece) → exec (.columnSegmentPiece site piece session data found) s = .next s)) ∧
      (∀ piece session data (f : Site), (messageWay s.work 24 site).contains f.val = true → f.val < s.dev.noc.sites.length →
        Completes (.columnSegmentPiece site piece session data (some f)) s fun t => StackOnly s t ∧
          t.dev = { s.dev with noc := t.dev.noc } ∧
          (nth t.dev.noc.sites f {}).shuttleErr = sat32 ((nth s.dev.noc.sites f {}).shuttleErr + 1)) ∧
      (∀ seg, columnSeg s.work = some seg → segmentGood seg l = true →
        Completes (.columnSegmentDeliveryEnd site) s fun t => StackOnly s t ∧ t.dev = { s.dev with fw := t.dev.fw } ∧
          (site : Nat) ∈ t.dev.fw.loaded ∧ (site : Nat) ∉ t.dev.fw.loadFailed) ∧
      (∀ seg, columnSeg s.work = some seg → segmentGood seg l = false →
        Completes (.columnSegmentDeliveryEnd site) s fun t => StackOnly s t ∧ (site : Nat) ∉ t.dev.fw.loaded ∧
          (site : Nat) ∈ t.dev.fw.loadFailed ∧ (⟨site, 0, 1⟩ : FenceMsg) ∈ t.dev.noc.fences ∧ s.dev.host.evtSeq < t.dev.host.evtSeq))

/- Mailbox commands. -/

/-- A mailbox holds a command of a group and verb that can run: taken, whole, its group not busy (R373 to R376). -/
def Sys2Proof.Ready (s : State) (m : Mbx) (group verb need : Nat) (r : CmdRun) : Prop :=
  openCmd s.dev m = some r ∧ r.group = group ∧ r.verb = verb ∧ r.deferred = false ∧ r.pendingRefs = 0 ∧
    groupBusy s.dev group verb = false ∧ r.refErr = false ∧ lengthOk r need = true ∧ HostQuiet s

/-- A mailbox command has been answered, and no byte outside its mailbox has changed. -/
def Sys2Proof.Replies (s t : State) (m : Mbx) (status state : Nat) : Prop :=
  KeepsPins s t ∧ Answered t m status state ∧
    ∀ k, (k < mbxKey (256 * m) ∨ mbxKey (256 * m) + 256 ≤ k) → t.mem.get k = s.mem.get k

/-- The mailbox rows with group, verb and the length that their last field asks for. -/
def Sys2Proof.mailboxRows (m : Mbx) : List (Instr × Nat × Nat × Nat) :=
  [(.bootInfo m, 1, 1, 0), (.bootResourceMap m, 1, 2, 0xC), (.bootDefects m, 1, 3, 16), (.bootCores m, 1, 4, 0),
   (.bootResetColumn m, 1, 5, 2), (.bootResetCluster m, 1, 5, 2), (.bootResetPartition m, 1, 5, 2), (.bootResetFabric m, 1, 5, 2),
   (.bootResetDevice m, 1, 5, 2), (.cfgWrite m, 2, 1, 8), (.cfgRead m, 2, 2, 0x18), (.cfgSwap m, 2, 3, 9),
   (.cfgSwapImmediate m, 2, 3, 9), (.cfgSwapCancel m, 2, 3, 9), (.schedLoad m, 3, 1, 0x2C), (.schedUnload m, 3, 2, 8),
   (.schedStart m, 3, 3, 0x10), (.schedStop m, 3, 4, 1), (.schedDrain m, 3, 5, 1), (.memCopy m, 4, 1, 0x18), (.memFill m, 4, 2, 0x18),
   (.memMigrate m, 4, 3, 2), (.kvWrite m, 5, 1, 0xC), (.kvBind m, 5, 2, 0xD), (.kvRelease m, 5, 3, 9), (.kvFree m, 5, 4, 4),
   (.kvStatus m, 5, 5, 0), (.pwrGrant m, 6, 1, 0x10), (.pwrEnv m, 6, 2, 0x10), (.pwrHint m, 6, 3, 4), (.pwrCoolantStay m, 6, 4, 1),
   (.pwrCoolantResume m, 6, 4, 1), (.pwrCoolantStop m, 6, 4, 1), (.faultRing m, 7, 1, 0xC), (.faultFence m, 7, 2, 1),
   (.faultAdmit m, 7, 3, 1), (.fwSend m, 8, 1, 0x1C), (.fwStatus m, 8, 2, 0xC), (.fwIdentity m, 8, 3, 0xC), (.fwAttest m [], 8, 4, 0x2C),
   (.spanPlace m, 9, 1, 0x48), (.spanRole m, 9, 2, 1), (.spanBeatLoad m, 9, 3, 8), (.spanAdmit m, 9, 4, 3), (.spanDismiss m, 9, 5, 2),
   (.spanHold m, 9, 6, 2), (.spanRelease m, 9, 7, 4), (.spanLedger m, 9, 8, 0x10), (.spanRoutes m, 9, 9, 4)]

/-- R373, R374, R376: a command whose group has one IN_PROGRESS is answered with STATUS 0x43, one whose reference could not be read
with 0x46, one of a wrong length with 0x41; nothing of its effect happens. -/
def Obligations.CommandsTurnedAway : Prop :=
  ∀ (s : State) (m : Mbx) (e : Instr × Nat × Nat × Nat) (r : CmdRun), e ∈ mailboxRows m → openCmd s.dev m = some r →
    r.group = e.2.1 → r.verb = e.2.2.1 → r.deferred = false → r.pendingRefs = 0 → HostQuiet s →
    let status := if groupBusy s.dev e.2.1 e.2.2.1 then 0x43 else if r.refErr then 0x46 else 0x41
    (groupBusy s.dev e.2.1 e.2.2.1 = true ∨ r.refErr = true ∨ lengthOk r e.2.2.2 = false) →
    Completes e.1 s fun t => Replies s t m status 3 ∧ openCmd t.dev m = none ∧
      t.dev.boot = s.dev.boot ∧ t.dev.map = s.dev.map ∧ t.dev.beat = s.dev.beat ∧ t.dev.sched = s.dev.sched ∧ t.dev.noc = s.dev.noc ∧
      t.dev.fw = s.dev.fw ∧ t.dev.power = s.dev.power ∧ t.dev.span = s.dev.span ∧
      t.dev.prot = s.dev.prot ∧ t.dev.walker = s.dev.walker

/-- R383, R390, R392, R393, R412, R414: commands that are answered at once with DONE and OK: the identification, the defect list, a
ring, a fence order, a beat load, a hold, the boot routes, a role; and those that begin something: BOOT.CORES in LINKS_QUALIFIED,
FAULT.ADMIT of a site that is clean. The reports go to their host address. -/
def Obligations.BootFaultSpanCommands : Prop :=
  ∀ (s : State) (m : Mbx) (r : CmdRun),
    (Ready s m 1 1 0 r → Completes (.bootInfo m) s fun t => Replies s t m 0 3 ∧ t.dev.boot = s.dev.boot ∧
      t.mem.get (mbxKey (256 * m + 32)) = BitVec.ofNat 8 s.dev.boot.power.code ∧
      t.mem.get (mbxKey (256 * m + 33)) = BitVec.ofNat 8 s.dev.map.n) ∧
    (Ready s m 1 3 16 r → Completes (.bootDefects m) s fun t => match parseDefects r.payload 4096 with
      | some l => Replies s t m 0 3 ∧ t.dev.boot = { s.dev.boot with storedDefects := some l }
      | none => Replies s t m 0x41 3 ∧ t.dev.boot = s.dev.boot) ∧
    (Ready s m 1 4 0 r → s.dev.boot.power = .linksQualified → Completes (.bootCores m) s fun t => Replies s t m 0 2 ∧
      t.dev.boot.wavesBusy = true ∧ t.dev.boot.wave = 0 ∧ t.dev.boot.ramped = false ∧ t.dev.boot.wavesAt = s.dev.beat.wbc + 1) ∧
    (Ready s m 1 4 0 r → s.dev.boot.power ≠ .linksQualified → Completes (.bootCores m) s fun t => Replies s t m 0x42 3 ∧
      t.dev.boot = s.dev.boot) ∧
    (∀ e ∈ [(Instr.bootResourceMap m, 1, 2, 0xC), (.fwStatus m, 8, 2, 0xC)], Ready s m e.2.1 e.2.2.1 e.2.2.2 r →
      destOk (r.field 0 8) = true → 4 ≤ r.field 8 4 →
      Completes e.1 s fun t => StackOnly s t ∧ t.dev = { s.dev with host := t.dev.host } ∧
        ∃ x ∈ t.dev.host.accs, x.write = true ∧ x.use = .cmdDest m) ∧
    (Ready s m 7 1 0xC r → r.field 0 8 < 2 ^ 52 → r.field 0 8 % 4096 = 0 → ringSizeOk (r.field 8 4) = true → s.dev.host.queue = [] →
      Completes (.faultRing m) s fun t => Replies s t m 0 3 ∧ t.dev.host.ringSet = true ∧
        t.dev.host.ringAddr = r.field 0 8 ∧ t.dev.host.ringSize = r.field 8 4 ∧ t.dev.host.produced = 0) ∧
    (Ready s m 7 2 1 r → r.field 0 1 < s.dev.map.n → Completes (.faultFence m) s fun t => Replies s t m 0 3 ∧
      t.dev.noc.fences = s.dev.noc.fences ++ [⟨siteOf s.dev (r.field 0 1), 0xA, 0⟩]) ∧
    (Ready s m 7 3 1 r → r.field 0 1 < s.dev.map.n → s.dev.boot.cleanSites.contains (siteOf s.dev (r.field 0 1)) = true →
      Completes (.faultAdmit m) s fun t => Replies s t m 0 2 ∧
        t.dev.noc.admits = s.dev.noc.admits ++ [⟨[r.field 0 1], false, true, false⟩]) ∧
    (Ready s m 9 1 0x48 r → placeReserved r = false → r.field 0x40 8 = 0 → anyLive s.dev = false →
      (∀ x ∈ s.dev.span.ports, x.state = .down) → s.dev.span.ports.length = 12 →
      Completes (.spanPlace m) s fun t => Replies s t m 0 3 ∧ t.dev.span.deviceId = r.field 0 2 ∧
        ∀ p : Port, (t.work.port p).expId = bits (r.field (4 + 4 * p) 4) 0 11 ∧
          (t.work.port p).expPort = bits (r.field (4 + 4 * p) 4) 12 4 ∧ (t.work.port p).state = .down) ∧
    (∀ role, Ready s m 9 2 1 r → anyLive s.dev = false →
      nth [some Role.lone, some .member, some .master, some .standby] (r.field 0 1) none = some role →
      Completes (.spanRole m) s fun t => Replies s t m 0 3 ∧ t.dev.beat.role = role ∧ t.dev.beat.wbc = s.dev.beat.wbc) ∧
    (Ready s m 9 3 8 r → r.field 0 8 < 2 ^ 56 → anyLive s.dev = false → loadAllowed s.dev = true →
      Completes (.spanBeatLoad m) s fun t => Replies s t m 0 3 ∧
        t.dev.beat = { s.dev.beat with loadPending := some (r.field 0 8), loadAt := s.dev.beat.wbc }) ∧
    (∀ e ∈ [(Instr.spanAdmit m, 4, 3, 1), (.spanDismiss m, 5, 2, 2)], Ready s m 9 e.2.1 e.2.2.1 r → s.dev.beat.role = .master →
      r.field 0 2 < 2048 → (e.2.2.2 = 1 → r.field 2 1 ≠ 0) →
      Completes e.1 s fun t => Replies s t m 0 3 ∧ ∃ a, t.dev.span.admits = s.dev.span.admits ++ [a] ∧
        a.kind = e.2.2.2 ∧ a.target = r.field 0 2 ∧ a.term = s.dev.beat.term ∧ a.effectWbc % 64 = 0 ∧
        s.dev.beat.wbc + propBeats s.work + 64 ≤ a.effectWbc ∧ (e.2.2.2 = 1 → a.newInc = r.field 2 1)) ∧
    (Ready s m 9 6 2 r → (∀ p ∈ s.dev.beat.points, p.w ≠ holdPointFor s.work) →
      Completes (.spanHold m) s fun t => Replies s t m 0 3 ∧
        ∃ p ∈ t.dev.beat.points, p.w = holdPointFor s.work ∧ ∃ q ∈ p.reqs, q.len = r.field 0 2 ∧ q.cause = 0xA) ∧
    (∀ p, Ready s m 9 7 4 r → s.dev.beat.role = .master → p ∈ s.dev.beat.points → p.closed = true → p.len = 0 → p.release = none →
      p.index = some (r.field 0 4) → (∀ q ∈ s.dev.beat.points, q.index = p.index → q = p) →
      Completes (.spanRelease m) s fun t => Replies s t m 0 3 ∧
        ∀ q ∈ t.dev.beat.points, q.w = p.w → q.release = some (holdPointFor s.work)) ∧
    (Ready s m 9 8 0x10 r → s.dev.beat.role = .master → destOk (r.field 8 8) = true →
      Completes (.spanLedger m) s fun t => KeepsPins s t ∧ t.dev.beat = s.dev.beat ∧
        ((∃ e ∈ s.dev.beat.ledger, r.field 0 4 ≤ e.index ∧ e.index < r.field 0 4 + r.field 4 4) →
          ∃ x ∈ t.dev.host.accs, x.write = true ∧ x.use = .cmdDest m) ∧
        ((∀ e ∈ s.dev.beat.ledger, ¬ (r.field 0 4 ≤ e.index ∧ e.index < r.field 0 4 + r.field 4 4)) → Replies s t m 0 3)) ∧
    (Ready s m 9 9 4 r → bits (r.field 0 4) 5 11 = 0 → bits (r.field 0 4) 28 3 = 0 →
      Completes (.spanRoutes m) s fun t => Replies s t m 0 3 ∧ t.dev.span = { s.dev.span with
        bootIn := bits (r.field 0 4) 0 4, bootLocal := bitAt (r.field 0 4) 4, bootOut := bits (r.field 0 4) 16 12,
        bootValid := bitAt (r.field 0 4) 31 })

/- Resets. -/

/-- R318, R415, R416, R417, R419, R422: a reset that is accepted goes IN_PROGRESS. A column, cluster or partition reset sends the fence
orders of its cores and leaves every memory as it is; a fabric reset stops every live partition and takes the mesh out of service; a device reset also
sends RESET_NOTICE on each half that is up. -/
def Obligations.ResetsBegin : Prop :=
  ∀ (s : State) (m : Mbx) (r : CmdRun), Ready s m 1 5 2 r →
    (∀ e ∈ [(Instr.bootResetColumn m, 1, s.dev.map.n, [siteOf s.dev (r.field 1 1)]),
        (.bootResetCluster m, 2, 6, [3 * r.field 1 1, 3 * r.field 1 1 + 1, 3 * r.field 1 1 + 2])],
      r.field 0 1 = e.2.1 → r.field 1 1 < e.2.2.1 → s.dev.power.clocksStopped = false → sitesLive s.work e.2.2.2 = false →
      (∀ x ∈ e.2.2.2, x < 18) →
      Completes e.1 s fun t => KeepsPins s t ∧ Answered t m 0 2 ∧ resetting t.dev e.2.1 = true ∧ t.dev.boot.rstSites = e.2.2.2 ∧
        (∀ x ∈ e.2.2.2, (⟨x, 0, 0⟩ : FenceMsg) ∈ t.dev.noc.fences) ∧ ∀ k, k < 2 ^ 44 → t.mem.get k = s.mem.get k) ∧
    (r.field 0 1 = 3 → r.field 1 1 < 4 → 6 ≤ s.dev.boot.power.code → s.dev.power.clocksStopped = false →
      nth s.dev.boot.disabling (r.field 1 1) .no = .no → s.dev.boot.parts.length = 4 →
      (∀ c ∈ colsOf s.work (r.field 1 1), siteOf s.dev c < 18) →
      Completes (.bootResetPartition m) s fun t => KeepsPins s t ∧ Answered t m 0 2 ∧ resetting t.dev 3 = true ∧
        t.dev.boot.rstTarget = r.field 1 1 ∧ partLive t.dev (r.field 1 1) = false ∧
        (∀ c ∈ colsOf s.work (r.field 1 1), (⟨siteOf s.dev c, 0, 0⟩ : FenceMsg) ∈ t.dev.noc.fences) ∧
        ∀ k, k < 2 ^ 44 → t.mem.get k = s.mem.get k) ∧
    (r.field 0 1 = 4 → migrating s.dev.map.mig = false → 2 ≤ s.dev.boot.power.code → s.dev.boot.parts.length = 4 →
      Completes (.bootResetFabric m) s fun t => KeepsPins s t ∧ Answered t m 0 2 ∧ resetting t.dev 4 = true ∧
        t.dev.noc.fabricReset = true ∧ t.dev.boot.selfRefresh = true ∧ t.dev.noc.reqs = [] ∧ t.dev.noc.out = [] ∧
        (∀ q ∈ allParts s.work, partLive s.dev q = true → partState t.dev q = .faultStop) ∧
        ∀ k, k < 2 ^ 44 → t.mem.get k = s.mem.get k) ∧
    (r.field 0 1 = 5 → s.dev.host.halves.length = 2 →
      Completes (.bootResetDevice m) s fun t => KeepsPins s t ∧ Answered t m 0 2 ∧ resetting t.dev 5 = true ∧
        t.dev.noc.fabricReset = true ∧
        ∀ h : Half, (s.work.half h).state = 2 → ∃ l, (t.work.half h).txQ = l ++ [{ op := 0x41 }])

/-- R109, R285, R296, R346, R366, R396, R405, R415 to R422: a reset ends with its event and its count. The buffers of the sites of a
column, cluster or partition reset are zero once their fence orders have arrived; the sites are clean, or lose their rails after a failed
test; the columns of a partition reset are admitted again and the partition leaves FAULT_STOP; the mesh is in service again; the boot ROM restarts at BASE_ON with DRAM kept; a disabled partition is IDLE. -/
def Obligations.ResetsEnd : Prop :=
  ∀ s : State,
    (∀ e ∈ [(true, 1), (false, 2)], resetting s.dev e.2 = true → ordersArrived s.dev = true →
      Completes (if e.1 then .columnResetEnd false else .clusterResetEnd false) s fun t => StackOnly s t ∧
        (∀ x ∈ s.dev.boot.rstSites, ∀ i, i < bufBytes → t.mem.get (bufKey x i) = 0) ∧ (∀ k, k < 2 ^ 40 → t.mem.get k = s.mem.get k) ∧
        t.dev.boot.rstBusy = false ∧ t.dev.boot.rstCount = sat16 (s.dev.boot.rstCount + 1) ∧
        t.dev.host.evtSeq = s.dev.host.evtSeq + 1 ∧ (∀ x ∈ s.dev.boot.rstSites, x ∈ t.dev.boot.cleanSites) ∧
        t.dev.boot.powered = s.dev.boot.powered) ∧
    (∀ e ∈ [(true, 1), (false, 2)], resetting s.dev e.2 = true → ordersArrived s.dev = true → s.dev.boot.rstTest = true →
      Completes (if e.1 then .columnResetEnd true else .clusterResetEnd true) s fun t => StackOnly s t ∧
        t.dev.boot.rstBusy = false ∧ ∀ x ∈ s.dev.boot.rstSites, x ∉ t.dev.boot.powered ∧ x ∉ t.dev.boot.coreOk) ∧
    (∀ i ∈ [Instr.columnResetEnd false, .columnResetEnd true, .clusterResetEnd false, .clusterResetEnd true, .partitionResetEnd],
      ordersArrived s.dev = false → exec i s = .next s) ∧
    (resetting s.dev 3 = true → nth s.dev.boot.disabling s.dev.boot.rstTarget .no = .no → s.dev.boot.parts.length = 4 →
      ordersArrived s.dev = true →
      Completes .partitionResetEnd s fun t => StackOnly s t ∧ t.dev.boot.rstBusy = false ∧
        (∀ x ∈ s.dev.boot.rstSites, ∀ i, i < bufBytes → t.mem.get (bufKey x i) = 0) ∧ (∀ k, k < 2 ^ 40 → t.mem.get k = s.mem.get k) ∧
        (partState s.dev s.dev.boot.rstTarget = .faultStop → partState t.dev s.dev.boot.rstTarget = .idle) ∧
        ∃ a, t.dev.noc.admits = s.dev.noc.admits ++ [a] ∧ a.wave = false ∧
          ∀ x ∈ s.dev.boot.rstSites, ∀ c, colAt s.dev x = some c → x ∈ s.dev.boot.powered → assoc s.dev.noc.fenceWhy x = none →
            c ∈ a.cols) ∧
    (resetting s.dev 4 = true → s.dev.host.heldWb = [] →
      Completes .fabricResetEnd s fun t => StackOnly s t ∧ t.dev.boot.rstBusy = false ∧ t.dev.noc.fabricReset = false ∧
        t.dev.noc.pathReset = [] ∧ t.dev.boot.selfRefresh = false ∧
        (s.dev.beat.role = .member → t.dev.beat.aligned = false) ∧ (s.dev.beat.role = .master → t.dev.beat = s.dev.beat)) ∧
    (resetting s.dev 5 = true →
      Completes .bootRomRestart s fun t => KeepsPins s t ∧ t.dev.boot.power = .baseOn ∧
        t.dev.boot.warmOk = (s.dev.boot.reachedMem && !s.mod.tripLatched) ∧ t.dev.beat.wbc = 0 ∧ t.dev.sched.images = [] ∧
        (∀ h : Half, (t.work.half h).state = 1) ∧
        (∀ k, k < 2 ^ 40 ∨ 2 ^ 45 ≤ k → t.mem.get k = s.mem.get k) ∧ (∀ k, 2 ^ 40 ≤ k → k < 2 ^ 45 → t.mem.get k = 0)) ∧
    (∀ q : Part, s.dev.boot.parts.length = 4 → s.dev.boot.disabling.length = 4 → partState s.dev q ≠ .faultStop →
      (nth s.dev.boot.disabling q .no = .cut ∨ nth s.dev.boot.disabling q .no = .cutForReset ∨
        ∃ w, nth s.dev.boot.disabling q .no = .drain w ∧ w < s.dev.beat.wbc ∧ partDrained s.work q = true) →
      Completes (.disableComplete q) s fun t => StackOnly s t ∧ partState t.dev q = .idle ∧
        nth t.dev.boot.disabling q .no = .no ∧ s.dev.host.evtSeq < t.dev.host.evtSeq)


/- Schedules and configuration sets. -/

/-- R46, R78, R79, R81, R86, R89, R90, R229, R299, R397: a partition whose start beat has come runs its image from the first step, with MAINT
cleared and an armed injection cancelled; a REPEAT image begins its list again at the end of a run, any other leaves its partition
idle; the swap exchanges the sets, and from CORES_UP an immediate swap leads to READY. -/
def Obligations.ScheduleRuns : Prop :=
  ∀ s : State, s.dev.boot.parts.length = 4 → s.dev.sched.runs.length = 4 →
    (∀ q : Part, (nth s.dev.sched.runs q {}).startPending = true → firstBeatOf s.dev (nth s.dev.sched.runs q {}).start = true →
      partState s.dev q = .idle →
      Completes (.partitionStart q) s fun t => StackOnly s t ∧ partState t.dev q = .running ∧ t.dev.map.maint = false ∧
        t.dev.prot.injArm = false ∧ (s.dev.prot.injArm = true → t.dev.prot.injCancelled = true) ∧
        nth t.dev.sched.runs q {} = { nth s.dev.sched.runs q {} with startPending := false, run := 0 } ∧
        ∀ c ∈ colsOf s.work q, siteOf s.dev c < s.dev.cores.length →
          (t.work.core (siteOf s.dev c)).nextIndex = 0 ∧ (t.work.core (siteOf s.dev c)).nextRun = 0 ∧
          (t.work.core (siteOf s.dev c)).prepTrigger = some s.dev.beat.wbc) ∧
    (∀ (q : Part) (i : Image), runImage s.dev q = some i → i.rep = true → partState s.dev q = .running →
      firstBeatOf s.dev (runEnd (nth s.dev.sched.runs q {}) i) = true →
      Completes (.imageRunRepeat q) s fun t => StackOnly s t ∧
        t.dev = { s.dev with sched := t.dev.sched, cores := t.dev.cores } ∧
        (nth t.dev.sched.runs q {}).run = (nth s.dev.sched.runs q {}).run + 1 ∧
        ∀ c ∈ colsOf s.work q, (t.work.core (siteOf s.dev c)).nextIndex = 0) ∧
    (∀ (q : Part) (i : Image), runImage s.dev q = some i → i.rep = false → partState s.dev q = .running →
      firstBeatOf s.dev (runEnd (nth s.dev.sched.runs q {}) i) = true →
      Completes (.imageFinish q) s fun t => StackOnly s t ∧ partState t.dev q = .idle ∧
        ∀ c ∈ colsOf s.work q, (t.work.core (siteOf s.dev c)).prep = none ∧
          (t.work.core (siteOf s.dev c)).steps.length = (s.work.core (siteOf s.dev c)).steps.length) ∧
    (∀ p, s.dev.sched.swap = some p → swapDue s.work p = true → ErrorFree s.dev → NoneWait s.dev →
      Completes .configurationSwap s fun t => StackOnly s t ∧ t.dev.sched.bank = 1 - s.dev.sched.bank ∧
        t.dev.sched.haveActive = true ∧ t.dev.sched.swap = none ∧ t.dev.sched.images = s.dev.sched.images ∧
        t.dev.beat.genHistory = (s.dev.beat.wbc, generation t.work) :: s.dev.beat.genHistory ∧
        (s.dev.boot.power = .coresUp → p.sbc = none → 6 ≤ t.dev.boot.power.code))

/-- R85 to R88, R267, R382, R384: CFG.WRITE stores into the shadow set and nowhere else; CFG.READ sends bytes of a set to the host;
CFG.SWAP makes the shadow set pending, at an SBC or immediately, when every check of R85 passes, and else answers the first
failing code with nothing pending; until 64 SBC before it a stated swap can be cancelled. -/
def Obligations.SetCommands : Prop :=
  ∀ (s : State) (m : Mbx) (r : CmdRun),
    (Ready s m 2 1 8 r → 8 + r.field 4 4 ≤ r.payload.length → r.field 0 4 + r.field 4 4 ≤ 2 ^ 32 → s.dev.sched.swap = none →
      Completes (.cfgWrite m) s fun t => KeepsPins s t ∧ Answered t m 0 3 ∧
        ∀ k, (k < mbxKey (256 * m) ∨ mbxKey (256 * m) + 256 ≤ k) → t.mem.get k =
          if setKey (1 - s.dev.sched.bank) (r.field 0 4) ≤ k ∧ k < setKey (1 - s.dev.sched.bank) (r.field 0 4) + r.field 4 4
          then nth r.payload (8 + (k - setKey (1 - s.dev.sched.bank) (r.field 0 4))) 0 else s.mem.get k) ∧
    (Ready s m 2 2 0x18 r → r.field 0 4 < 2 → r.field 0xC 4 = 0 → destOk (r.field 0x10 8) = true →
      r.field 4 4 + r.field 8 4 ≤ 2 ^ 32 → r.field 8 4 ≠ 0 →
      Completes (.cfgRead m) s fun t => StackOnly s t ∧ t.dev = { s.dev with host := t.dev.host } ∧
        ∃ x ∈ t.dev.host.accs, x.write = true ∧ x.use = .cmdDest m) ∧
    (Ready s m 2 3 9 r → r.field 0 8 < 2 ^ 56 →
      (r.field 8 1 = 0 → s.dev.beat.aligned = true →
        (swapCheck s.work (some (r.field 0 8)) = 0 → Completes (.cfgSwap m) s fun t => Replies s t m 0 3 ∧
          ∃ p, t.dev.sched = { s.dev.sched with swap := some p } ∧ p.sbc = some (r.field 0 8)) ∧
        (swapCheck s.work (some (r.field 0 8)) ≠ 0 → Completes (.cfgSwap m) s fun t =>
          Replies s t m (swapCheck s.work (some (r.field 0 8))) 3 ∧ t.dev.sched = s.dev.sched)) ∧
      (r.field 8 1 = 1 →
        (swapCheck s.work none = 0 → Completes (.cfgSwapImmediate m) s fun t => Replies s t m 0 3 ∧
          ∃ p, t.dev.sched = { s.dev.sched with swap := some p } ∧ p.sbc = none) ∧
        (swapCheck s.work none ≠ 0 → Completes (.cfgSwapImmediate m) s fun t =>
          Replies s t m (swapCheck s.work none) 3 ∧ t.dev.sched = s.dev.sched)) ∧
      ((r.field 8 1 = 2 ∨ r.field 8 1 = 3) → ∀ p x, s.dev.sched.swap = some p → p.sbc = some x →
        (sbc s.dev + 64 ≤ x → Completes (.cfgSwapCancel m) s fun t => Replies s t m 0 3 ∧
          t.dev.sched = { s.dev.sched with swap := none }) ∧
        (x < sbc s.dev + 64 → Completes (.cfgSwapCancel m) s fun t => Replies s t m 0x44 3 ∧ t.dev.sched = s.dev.sched)))

/-- R80, R81, R280, R385, R420, R421: SCHED.LOAD reads the image through its checker and makes an image that passes every check loaded, with a fresh status ring, and answers the code
of the first failing check else; SCHED.UNLOAD forgets an image whose partition is not live; SCHED.START arms the start of the image
that the active set names; SCHED.STOP begins a CUT and SCHED.DRAIN a DRAIN. -/
def Obligations.ScheduleCommands : Prop :=
  ∀ (s : State) (m : Mbx) (r : CmdRun),
    (Ready s m 3 1 0x2C r → r.field 0 1 < 4 → r.field 1 1 < 2 → r.field 2 6 = 0 → r.field 8 8 < 2 ^ 40 → r.field 0x10 8 < 2 ^ 52 →
      r.field 0x10 8 % 4096 = 0 → (∃ k, k < 15 ∧ r.field 0x18 4 = 2 ^ (6 + k)) → r.field 0x1C 4 = 0 → s.dev.noc.fabricReset = false →
      r.field 0x20 8 = 0 →
      let audit := if imageFormatOk s.work (r.field 8 8) then ccRead s.work (r.field 8 8) (devField s.work (r.field 8 8 + 8) 8)
        else (true, s.work)
      let code := (loadCheck audit.2 (r.field 8 8) (r.field 0 1) (r.field 1 1 == 1)).1
      (audit.1 = true → code = 0 → s.dev.sched.rings.length = 4 →
        Completes (.schedLoad m) s fun t => KeepsPins s t ∧ Answered t m 0 3 ∧
          (nth t.dev.sched.rings (r.field 0 1) {}).addr = r.field 0x10 8 ∧
          (nth t.dev.sched.rings (r.field 0 1) {}).records = r.field 0x18 4 ∧
          ∃ i ∈ t.dev.sched.images, i.addr = r.field 8 8 ∧ i.part = r.field 0 1 ∧ i.shadow = (r.field 1 1 == 1)) ∧
      (audit.1 = true → code ≠ 0 → ErrorFree s.dev → NoneWait s.dev →
        Completes (.schedLoad m) s fun t => Replies s t m code 3 ∧ t.dev.sched = s.dev.sched) ∧
      (audit.1 = false → code ≠ 1 → code ≠ 2 → Completes (.schedLoad m) s fun t => KeepsPins s t ∧ Answered t m 3 3)) ∧
    (∀ i, Ready s m 3 2 8 r → r.field 0 8 < 2 ^ 40 → imageAt s.dev (r.field 0 8) = some i → partLive s.dev i.part = false →
      Completes (.schedUnload m) s fun t => Replies s t m 0 3 ∧ imageAt t.dev (r.field 0 8) = none ∧
        ∀ a, a ≠ r.field 0 8 → imageAt t.dev a = imageAt s.dev a) ∧
    (∀ i, Ready s m 3 3 0x10 r → r.field 0 1 < 4 → r.field 1 7 = 0 → r.field 8 8 < 2 ^ 56 →
      imageAt s.dev (imageIn s.work s.dev.sched.bank (r.field 0 1)) = some i → 6 ≤ s.dev.boot.power.code →
      s.dev.sched.haveActive = true → partState s.dev (r.field 0 1) = .idle → nth s.dev.boot.disabling (r.field 0 1) .no = .no →
      colsOf s.work (r.field 0 1) ≠ [] → s.dev.beat.aligned = true → sbc s.dev + 64 ≤ r.field 8 8 →
      let audit := ccRead s.work i.addr i.size
      (audit.1 = true → digestNow audit.2 i.addr i.size = true → i.latencyBad = false → s.dev.sched.runs.length = 4 →
        ErrorFree s.dev → NoneWait s.dev → Completes (.schedStart m) s fun t => Replies s t m 0 3 ∧
          nth t.dev.sched.runs (r.field 0 1) {} = { image := some i.addr, start := r.field 8 8, run := 0, startPending := true } ∧
          t.dev.boot.parts = s.dev.boot.parts) ∧
      (audit.1 = false ∨ digestNow audit.2 i.addr i.size = false →
        Completes (.schedStart m) s fun t => KeepsPins s t ∧ Answered t m 3 3)) ∧
    (∀ e ∈ [(Instr.schedStop m, 4, Disabling.cut), (.schedDrain m, 5, .drain s.dev.beat.wbc)], Ready s m 3 e.2.1 1 r →
      r.field 0 1 < 4 → partLive s.dev (r.field 0 1) = true → nth s.dev.boot.disabling (r.field 0 1) .no = .no →
      s.dev.boot.disabling.length = 4 →
      Completes e.1 s fun t => KeepsPins s t ∧ Answered t m 0 2 ∧ nth t.dev.boot.disabling (r.field 0 1) .no = e.2.2 ∧
        t.dev.boot.parts = s.dev.boot.parts ∧ ∀ k, k < 2 ^ 44 → t.mem.get k = s.mem.get k)

/- The memory and page-store commands. -/

/-- A range of device addresses lies in one stretch of DRAM or of a buffer, from a key on, and in no fenced core's buffer. -/
def Sys2Proof.oneStretch (s : State) (a n k : Nat) : Prop :=
  (∀ i, i < n → addrKey s.dev (a + i) = some (k + i) ∧ fencedAt s.work (a + i) = none) ∧ k + n ≤ 2 ^ 42

/-- A mailbox command is answered OK, a stretch holds new bytes, and no other byte outside the mailbox has changed. -/
def Sys2Proof.StoresAndReplies (s t : State) (m : Mbx) (k n : Nat) (byte : Nat → Byte) : Prop :=
  KeepsPins s t ∧ Answered t m 0 3 ∧ ∀ j, (j < mbxKey (256 * m) ∨ mbxKey (256 * m) + 256 ≤ j) →
    t.mem.get j = if k ≤ j ∧ j < k + n then byte (j - k) else s.mem.get j

/-- R174, R203, R224, R242, R249, R250, R386, R387: MEM.COPY copies the bytes that stood in the source, from the host once its data has come; MEM.FILL
repeats its pattern of 8 bytes; MEM.MIGRATE fences the old site, clears the target's buffer and mirrors; KV.WRITE stores within a
structure of a loaded image; KV.BIND, KV.RELEASE and KV.FREE end OK, or REFUSED where their rule says so; a release of a sequence that
a step still names is deferred and ends later; KV.STATUS answers the free counts. -/
def Obligations.MemoryCommands : Prop :=
  ∀ (s : State) (m : Mbx) (r : CmdRun), ErrorFree s.dev → NoneWait s.dev → s.dev.map.mig.mirroring = false → s.dev.noc.fabricReset = false →
    (Ready s m 4 1 0x18 r → r.field 8 8 < 2 ^ 40 → r.field 0x10 8 % 64 = 0 →
      sideCause s.work (r.field 8 8) (r.field 0x10 8) true = none →
      (∀ ks kd, r.field 0 8 < 2 ^ 40 → sideCause s.work (r.field 0 8) (r.field 0x10 8) false = none →
        oneStretch s (r.field 0 8) (r.field 0x10 8) ks → oneStretch s (r.field 8 8) (r.field 0x10 8) kd →
        Completes (.memCopy m) s fun t => StoresAndReplies s t m kd (r.field 0x10 8) fun i => s.mem.get (ks + i)) ∧
      (∀ a, r.field 0 8 = 2 ^ 63 + a → a < 2 ^ 52 → r.field 0x10 8 ≠ 0 →
        Completes (.memCopy m) s fun t => StackOnly s t ∧ t.dev = { s.dev with host := t.dev.host } ∧
          (∃ r', openCmd t.dev m = some r' ∧ 0 < r'.pendingRefs) ∧
          ∃ x ∈ t.dev.host.accs, x.write = false ∧ ∃ pos, x.use = .memRead m pos)) ∧
    (∀ k, Ready s m 4 2 0x18 r → r.field 0 8 < 2 ^ 40 → sideCause s.work (r.field 0 8) (r.field 8 8) true = none →
      oneStretch s (r.field 0 8) (r.field 8 8) k →
      Completes (.memFill m) s fun t => StoresAndReplies s t m k (r.field 8 8) fun i => nth (leBytes 8 (r.field 0x10 8)) (i % 8) 0) ∧
    (Ready s m 4 3 2 r → r.field 0 1 < s.dev.map.n → r.field 1 1 < 18 →
      (∀ q, partOf s.work (r.field 0 1) = some q → partLive s.dev q = false) →
      (r.field 1 1 = s.dev.map.spare0 ∨ r.field 1 1 = s.dev.map.spare1) → migrating s.dev.map.mig = false →
      Completes (.memMigrate m) s fun t => KeepsPins s t ∧ Answered t m 0 2 ∧ t.dev.map.mig.state = 1 ∧
        t.dev.map.mig.col = r.field 0 1 ∧ t.dev.map.mig.fromSite = siteOf s.dev (r.field 0 1) ∧ t.dev.map.mig.toSite = r.field 1 1 ∧
        t.dev.map.mig.mirroring = true ∧ t.dev.noc.fences = s.dev.noc.fences ++ [⟨siteOf s.dev (r.field 0 1), 0, 0⟩] ∧
        (∀ i, i < bufBytes → t.mem.get (bufKey (r.field 1 1) i) = 0) ∧ ∀ k, k < 2 ^ 40 → t.mem.get k = s.mem.get k) ∧
    (∀ k i b x, Ready s m 5 1 0xC r → r.field 0 8 < 2 ^ 40 → 0xC + r.field 8 4 ≤ r.payload.length → i ∈ s.dev.sched.images →
      i.pw = some b → x ∈ kvStructs s.work (readPw s.work b) → x.2.1 ≤ r.field 0 8 → r.field 0 8 + r.field 8 4 ≤ x.2.1 + x.2.2 →
      (∀ j ∈ s.dev.sched.images, prepRuns s.work j.columns = false) → oneStretch s (r.field 0 8) (r.field 8 4) k →
      Completes (.kvWrite m) s fun t => StoresAndReplies s t m k (r.field 8 4) fun i => nth r.payload (0xC + i) 0) ∧
    (∀ p, Ready s m 5 2 0xD r → r.field 0xC 1 < 4 → kvParams s.work (r.field 0xC 1) = some p → r.field 0 4 < p.seqCount →
      r.field 4 4 < p.seqCount → prepRuns s.work (colsOf s.work (r.field 0xC 1)) = false →
      let ea := readSeq s.work p (r.field 0 4)
      let eb := readSeq s.work p (r.field 4 4)
      let l := bindEntries s.work ea (r.field 8 4) (pairedLists s.work p ea eb)
      ((∀ a, fencedAt s.work a = none) → ea.stride = eb.stride → ea.phase = eb.phase → (∀ x ∈ l, x.2.2 < x.2.1.cap) →
        (∀ u ∈ recordUses s.work p l, devField s.work u.1 2 + u.2 ≤ 65535) →
        Completes (.kvBind m) s fun t => KeepsPins s t ∧ Answered t m 0 3) ∧
      ((ea.stride ≠ eb.stride ∨ ea.phase ≠ eb.phase) → Completes (.kvBind m) s fun t => Replies s t m 0x44 3)) ∧
    (∀ p, Ready s m 5 3 9 r → r.field 8 1 < 4 → kvParams s.work (r.field 8 1) = some p → r.field 0 4 < p.seqCount →
      (seqInUse s.work (r.field 8 1) (r.field 0 4) = true → Completes (.kvRelease m) s fun t => Replies s t m 0 2 ∧
        ∃ x ∈ t.dev.host.cmds, x.mb = r.mb ∧ x.deferred = true ∧ x.inProgress = true) ∧
      (seqInUse s.work (r.field 8 1) (r.field 0 4) = false → prepRuns s.work (colsOf s.work (r.field 8 1)) = false →
        (∀ a, fencedAt s.work a = none) → Completes (.kvRelease m) s fun t => KeepsPins s t ∧ Answered t m 0 3)) ∧
    (∀ q p, Ready s m 5 4 4 r → r.field 0 1 < s.dev.map.n → partOf s.work (r.field 0 1) = some q → kvParams s.work q = some p →
      r.payload.length % 4 = 0 → r.field 1 3 = 0 → (readPool s.work p (r.field 0 1)).frames ≠ 0 →
      prepRuns s.work (colsOf s.work q) = false → (∀ a, fencedAt s.work a = none) →
      (∀ k, k < (r.payload.length - 4) / 4 →
        r.field (4 + 4 * k) 4 < (readPool s.work p (r.field 0 1)).frames ∧
        ∀ b, (kvRead ⟨s.work, none⟩ (recordAddr (readPool s.work p (r.field 0 1)) (r.field (4 + 4 * k) 4) + 2) 2).1 = some b →
          bitAt (leNat b) 0 = false) →
      freeCount s.work (readPool s.work p (r.field 0 1)) + (r.payload.length - 4) / 4 ≤ (readPool s.work p (r.field 0 1)).freeSize →
      Completes (.kvFree m) s fun t => KeepsPins s t ∧ Answered t m 0 3) ∧
    (Ready s m 5 5 0 r → Completes (.kvStatus m) s fun t => Replies s t m 0 3 ∧ t.dev.walker = s.dev.walker ∧
      ∀ c k, c < 16 → k < 4 →
        t.mem.get (mbxKey (256 * m + 32 + 4 * c + k)) = nth (leBytes 4 (readWalker s.work (0x040 + 4 * c))) k 0) ∧
    (∀ x p, s.dev.host.cmds.find? (fun r => r.deferred && r.inProgress && r.final.isNone) = some x → x.group = 5 → x.verb = 3 →
      seqInUse s.work (x.field 8 1) (x.field 0 4) = false → prepRuns s.work (colsOf s.work (x.field 8 1)) = false →
      kvParams s.work (x.field 8 1) = some p → HostQuiet s → (∀ a, fencedAt s.work a = none) →
      Completes .kvDeferredCommand s fun t => KeepsPins s t ∧
        ∃ z ∈ t.dev.host.cmds, z.mb = x.mb ∧ z.inProgress = true ∧ z.final = some (0, []))

/- Power and heat. -/

/-- R448 to R450, R454, R458, R467, R477: a window boundary takes the sensor readings and the measured power, and limits every powered
core (a coolant loss that it detects joins the sources of the limit at the next); a parity error of the control complex's storage that is
met then stops every partition; a grant or report that is overdue is given up with its event; a droop trip gates the array from two to nine cycles later; a
heavy phase raises the set point of its site until it ends. -/
def Obligations.PowerRuns : Prop :=
  ∀ s : State, s.dev.power.sites.length = 18 →
    (∀ w : WindowMeasure, s.dev.beat.wbc % 31250 = 0 → s.dev.boot.power ≠ .off →
      Completes (.windowBoundary w) s fun t => StackOnly s t ∧
        (∀ i, i < 330 → (t.work.sensor i).reading = nth w.readings i 0 ∧ (t.work.sensor i).sampled = true) ∧
        (∀ e, w.spoiled = some e → s.dev.boot.parts.length = 4 → ∀ q ∈ allParts s.work, partState t.dev q = .faultStop) ∧
        t.dev.power.otherUw = w.otherUw ∧ (∀ x ∈ limitSources t.work, x.1 ≠ 5 ∨ s.dev.power.coolantLoss = true → t.dev.power.limit ≤ x.2) ∧ t.dev.power.limit ≤ 1750 ∧
        (∀ x, x < 18 → (t.work.pow x).powerW = min 255 (nth w.vcoreUw x 0 / 10 ^ 6) ∧
          (x ∈ s.dev.boot.powered → (t.work.pow x).limitW ≤ coreMax s.work))) ∧
    (∀ q, s.dev.power.grantSeq = some q → s.dev.power.grantStale = false →
      s.dev.power.grantAt + pwrCfg s.work 0xE 2 100 * 31250 ≤ s.dev.beat.wbc →
      Completes .grantTimeout s fun t => StackOnly s t ∧ t.dev = { s.dev with
        power := { s.dev.power with grant := none, nextGrant := none, grantStale := true }, host := t.dev.host } ∧
        t.dev.host.evtSeq = s.dev.host.evtSeq + 1) ∧
    (s.dev.power.envStale = false → s.dev.power.envAt + 3125000 ≤ s.dev.beat.wbc →
      Completes .envStaleTimeout s fun t => StackOnly s t ∧
        t.dev = { s.dev with power := { s.dev.power with envStale := true }, host := t.dev.host } ∧
        t.dev.host.evtSeq = s.dev.host.evtSeq + 1) ∧
    (∀ uw cyc, Completes (.bubbleLoopPeriod uw cyc) s fun t => StackOnly s t ∧
      ∀ x, x < 18 → (x ∈ s.dev.boot.powered →
        (t.work.pow x).newRatio = nextRatio s.work (s.work.pow x).ratio (nth uw x 0) (s.work.pow x).limitW) ∧
        (x ∉ s.dev.boot.powered → t.work.pow x = s.work.pow x)) ∧
    (∀ (x : Site) cyc, (x : Nat) ∈ s.dev.boot.powered → (∀ g ∈ (s.work.pow x).gates, g.2 < cycNow s.dev cyc) →
      (s.work.pow x).burstsWin < 64 →
      exec (.droopTrip x cyc) s = .next { s with dev := { s.dev with power := { s.dev.power with
        sites := upd s.dev.power.sites x fun p => { p with
          gates := p.gates ++ [(cycNow s.dev cyc + 2, cycNow s.dev cyc + 9)]
          bursts := sat32 (p.bursts + 1), burstsWin := p.burstsWin + 1 } } } }) ∧
    (∀ (col : Col) index q i r d, columnRun s.work col = some (q, i, r) → stepDesc s.work (siteOf s.dev col) i col index = some d →
      siteOf s.dev col ∈ s.dev.boot.powered → siteOf s.dev col < 18 → opOf d ≠ 13 → 0 < fld d 4 1 →
      firstBeatOf s.dev (r.start + r.run * i.length + startOffset d - fld d 4 1) = true →
      Completes (.heavyPhaseStart col index) s fun t => StackOnly s t ∧ t.dev = { s.dev with power := t.dev.power } ∧
        (∃ b ∈ (t.work.pow (siteOf s.dev col)).boosts, b.index = index ∧ b.hint = false) ∧
        (t.work.pow (siteOf s.dev col)).setCode = setPoint t.work (t.work.pow (siteOf s.dev col))) ∧
    (∀ (col : Col) index b, b ∈ (s.work.pow (siteOf s.dev col)).boosts → b.index = index →
      boostOver s.work (siteOf s.dev col) b = true →
      Completes (.heavyPhaseEnd col index) s fun t => StackOnly s t ∧ t.dev = { s.dev with power := t.dev.power } ∧
        ∀ b' ∈ (t.work.pow (siteOf s.dev col)).boosts, b'.index ≠ index)

/-- R39, R388, R389, R399, R449, R466, R467, R471, R472: the thermal trip stops the clocks, removes every compute rail and stops every
partition; a grant and a report are taken when their sequence number is ahead and refused else; a hint is stored; after a coolant
loss the host keeps the 300 W source, ends it, or stops every partition and removes the rails. -/
def Obligations.PowerCommands : Prop :=
  ∀ s : State, s.dev.boot.parts.length = 4 →
    (∀ sensor, s.dev.boot.power ≠ .off → s.mod.tripLatched = false → sensor < 72 →
      Completes (.thermalTrip sensor) s fun t => t.mod = { s.mod with tripLatched := true } ∧ t.mem = s.mem ∧ t.pending = s.pending ∧
        t.dev.power.clocksStopped = true ∧ t.dev.boot.warmOk = false ∧ (∀ x, x < 18 → x ∉ t.dev.boot.powered) ∧
        ∀ q ∈ allParts s.work, partState t.dev q = .faultStop) ∧
    (∀ (m : Mbx) (r : CmdRun), Ready s m 6 1 0x10 r → 300 ≤ r.field 0 2 → r.field 0 2 ≤ 2000 → r.field 8 8 < 2 ^ 56 →
      (seqAhead s.dev.power.grantSeq (r.field 4 4) = true → Completes (.pwrGrant m) s fun t => Replies s t m 0 3 ∧
        t.dev.power = { s.dev.power with nextGrant := some (r.field 0 2, r.field 8 8), grantSeq := some (r.field 4 4)
                                         grantAt := s.dev.beat.wbc, grantStale := false }) ∧
      (seqAhead s.dev.power.grantSeq (r.field 4 4) = false → Completes (.pwrGrant m) s fun t => Replies s t m 0x44 3 ∧
        t.dev.power = s.dev.power)) ∧
    (∀ (m : Mbx) (r : CmdRun), Ready s m 6 2 0x10 r → r.field 0xC 1 < 16 → r.field 0xE 2 = 0 →
      (seqAhead s.dev.power.envSeq (r.field 0 4) = true → Completes (.pwrEnv m) s fun t => Replies s t m 0 3 ∧
        t.dev.power.envSeq = some (r.field 0 4) ∧ t.dev.power.envAt = s.dev.beat.wbc ∧ t.dev.power.envStale = false ∧
        (bitAt (r.field 0xC 1) 3 = true → t.dev.power.flowSource = flowWatts (r.field 0xA 2) ∧
          (r.field 0xA 2 < 300 → t.dev.power.coolantLoss = true)) ∧
        (bitAt (r.field 0xC 1) 0 = true → t.dev.power.inlet = some (sext 16 (r.field 4 2)))) ∧
      (seqAhead s.dev.power.envSeq (r.field 0 4) = false → Completes (.pwrEnv m) s fun t => Replies s t m 0x44 3 ∧
        t.dev.power = s.dev.power)) ∧
    (∀ (m : Mbx) (r : CmdRun), Ready s m 6 3 4 r → Completes (.pwrHint m) s fun t => Replies s t m 0 3 ∧
      t.dev.power = { s.dev.power with hintW := r.field 0 2, hintMs := r.field 2 2 }) ∧
    (∀ (m : Mbx) (r : CmdRun), Ready s m 6 4 1 r →
      (s.dev.power.coolantLoss = true →
        (r.field 0 1 = 0 → Completes (.pwrCoolantStay m) s fun t => Replies s t m 0 3 ∧ t.dev.power = s.dev.power) ∧
        (r.field 0 1 = 1 → Completes (.pwrCoolantResume m) s fun t => Replies s t m 0 3 ∧
          t.dev.power = { s.dev.power with coolantLoss := false }) ∧
        (r.field 0 1 = 2 → Completes (.pwrCoolantStop m) s fun t => Replies s t m 0 3 ∧ t.dev.power.coolantLoss = false ∧
          (∀ x, x < 18 → x ∉ t.dev.boot.powered) ∧ ∀ q ∈ allParts s.work, partState t.dev q = .faultStop)) ∧
      (s.dev.power.coolantLoss = false → ∀ e ∈ [(0, Instr.pwrCoolantStay m), (1, .pwrCoolantResume m), (2, .pwrCoolantStop m)],
        r.field 0 1 = e.1 → Completes e.2 s fun t => Replies s t m 0x42 3 ∧ t.dev.power = s.dev.power))

/- Firmware and identity. -/

/-- An object has been refused: FW_STATE 4 with its detail, the step failed with error 7, the store empty (R403, R429). -/
def Sys2Proof.Refused (s t : State) (detail : Nat) : Prop :=
  KeepsPins s t ∧ t.dev.fw.state = 4 ∧ t.dev.fw.detail = detail ∧ t.dev.fw.retained = false ∧ t.dev.boot.stepResult = 3 ∧
    t.dev.boot.stepError = 7 ∧ (∀ i, i < 2 ^ 21 → t.mem.get (fwKey i) = 0) ∧ ∀ k, k < 2 ^ 45 → t.mem.get k = s.mem.get k

/-- An image has been accepted and runs (R397, R429, R442). -/
def Sys2Proof.Accepted (s t : State) (slot : Bool) : Prop :=
  StackOnly s t ∧ t.dev.fw.state = 3 ∧ t.dev.fw.retained = true ∧ t.dev.fw.keySlot = slot ∧ t.dev.fw.ready = true ∧
    t.dev.host.taking = true ∧ t.dev.boot.stepResult = 2 ∧ (t.dev.boot.power = .fwLoaded ∨ t.dev.boot.power = .linksQualified)

/-- What the checks of an object lead to: its refusal with the detail of the first failing check, or its acceptance (R429). -/
def Sys2Proof.Verdict (s t : State) : Except Nat Bool → Prop
  | .error d => Refused s t d
  | .ok slot => Accepted s t slot

/-- R397, R403, R429, R431, R435: when FW_LOAD has read its object, and when a received object is whole, the object that passes its checks
is accepted and one that fails is refused with the detail of the first failing check; a retained image is checked again; silence
for 31,250,000 beats ends the reception. -/
def Obligations.FirmwareChecks : Prop :=
  ∀ s : State,
    (stepBusy s.dev 5 = true → fwReadsLeft s.dev = false → Completes .fwLoadComplete s fun t => Verdict s t <|
      if reverifies s.dev then recheckObject s.dev.fw (storedManifest s.work) (storedImage s.work (fld (storedManifest s.work) 0xC 4))
      else checkObject s.dev.fw (storedManifest s.work) (storedImage s.work s.dev.boot.imgLen) s.dev.boot.imgLen) ∧
    (stepBusy s.dev 6 = true → s.dev.fw.checking = true → Completes .fwObjectCheckDone s fun t => Verdict s t <|
      checkObject s.dev.fw (storedManifest s.work) (storedImage s.work s.dev.fw.imageLen) s.dev.fw.imageLen) ∧
    (stepBusy s.dev 6 = true → s.dev.fw.receiving = true → s.dev.fw.checking = false → s.dev.fw.lastFlit + 31250000 ≤ s.dev.beat.wbc →
      Completes .fwReceiveTimeout s fun t => Refused s t 9)

/-- A round has been reported while chunks lack: nothing is checked, the pieces stay, and for each page with lacking chunks one MISSING
record waits at the upstream port (R433, R434). -/
def Sys2Proof.RoundReported (s t : State) (round : Nat) : Prop :=
  StackOnly s t ∧ t.dev.fw.checking = false ∧ t.dev.fw.round = round ∧ t.dev.fw.reported = round :: s.dev.fw.reported ∧
    t.dev.fw.pieces = s.dev.fw.pieces ∧
    ∀ g, groupOf s.work 0 = some g → g.1 < 12 → portTrained (s.work.port g.1) = true → s.dev.span.ports.length = 12 →
      ((t.work.port g.1).recs.length = (s.work.port g.1).recs.length +
        ((List.range 4).filter fun p => (chunksLacking t.dev.fw).any fun c => c / 128 == p).length)

/-- R432 to R435: the first session met is accepted and replaces the image in the store; a piece of that session that is not yet held is
stored; one of another session, or one that is held, changes no memory. The first end marker of a round fixes the number of chunks: with
all chunks held the check begins, with some lacking they are reported, and after round 4 the object is refused; without an end marker
for 8,192 beats the next round is taken as ended. -/
def Obligations.FirmwareReception : Prop :=
  ∀ (s : State) (p : Port) (f : Flit),
    let session := bits f.seq 13 7
    let seen := { s with dev := { s.dev with fw := { s.dev.fw with lastFlit := s.dev.beat.wbc } } }
    let at0 := f.seq % 8192
    let round := fld f.payload 0 1
    let ended := { s.dev.fw with lastFlit := s.dev.beat.wbc, lastEnd := s.dev.beat.wbc, chunks := some (fld f.payload 4 4)
                                 imageLen := fld f.payload 8 4 }
    (fwFlitHere s.work p f 1 = true →
      (s.dev.fw.session = 0 → session ≠ 0 → s.dev.fw.checking = false → at0 ∉ s.dev.fw.pieces → s.mem.wf = true →
        Completes (.fwPiece p f) s fun t => KeepsPins s t ∧ t.dev.fw.session = session ∧ t.dev.fw.retained = false ∧
          t.dev.fw.pieces = s.dev.fw.pieces ++ [at0] ∧ (∀ k, k < 2 ^ 45 → t.mem.get k = s.mem.get k) ∧
          ∀ i, i < 2 ^ 21 → t.mem.get (fwKey i) =
            if 256 * at0 ≤ i ∧ i < 256 * at0 + 256 then nth (padTo 256 f.payload) (i - 256 * at0) 0 else 0) ∧
      (s.dev.fw.session ≠ 0 → session = s.dev.fw.session → s.dev.fw.checking = false → at0 ∉ s.dev.fw.pieces → s.mem.wf = true →
        Completes (.fwPiece p f) s fun t => KeepsPins s t ∧ storesAt s t (fwKey (256 * at0)) (padTo 256 f.payload) ∧
          t.dev.fw.pieces = s.dev.fw.pieces ++ [at0] ∧ t.dev.fw.lastFlit = s.dev.beat.wbc) ∧
      (s.dev.fw.session ≠ 0 → session ≠ s.dev.fw.session ∨ at0 ∈ s.dev.fw.pieces ∨ s.dev.fw.checking = true →
        exec (.fwPiece p f) s = .next seen)) ∧
    (fwFlitHere s.work p f 2 = true → s.dev.fw.session ≠ 0 →
      (session ≠ s.dev.fw.session → exec (.endMarker p f) s = .next seen) ∧
      (session = s.dev.fw.session → round ∈ s.dev.fw.reported ∨ s.dev.fw.checking = true →
        exec (.endMarker p f) s = .next { s with dev := { s.dev with fw := ended } }) ∧
      (session = s.dev.fw.session → round ∉ s.dev.fw.reported → s.dev.fw.checking = false →
        (chunksLacking ended = [] → Completes (.endMarker p f) s fun t => StackOnly s t ∧ t.dev.fw.checking = true ∧ t.dev.fw.state = 2 ∧
          t.dev.fw.chunks = ended.chunks ∧ t.dev.fw.imageLen = ended.imageLen) ∧
        (chunksLacking ended ≠ [] → round ≠ 4 → Completes (.endMarker p f) s fun t => RoundReported s t round ∧
          t.dev.fw.chunks = ended.chunks) ∧
        (chunksLacking ended ≠ [] → round = 4 → Completes (.endMarker p f) s fun t => Refused s t 9))) ∧
    (stepBusy s.dev 6 = true → s.dev.fw.receiving = true → s.dev.fw.checking = false → 0 < chunksHeld s.dev.fw →
      s.dev.fw.lastEnd + 8192 ≤ s.dev.beat.wbc → chunksLacking s.dev.fw ≠ [] →
      (s.dev.fw.reported = [] → Completes .fwEndMarkerTimeout s fun t => RoundReported s t 0 ∧ t.dev.fw.lastEnd = s.dev.beat.wbc) ∧
      (∀ r ∈ s.dev.fw.reported, (∀ x ∈ s.dev.fw.reported, x ≤ r) →
        (r ≠ 3 → Completes .fwEndMarkerTimeout s fun t => RoundReported s t (r + 1) ∧ t.dev.fw.lastEnd = s.dev.beat.wbc) ∧
        (r = 3 → Completes .fwEndMarkerTimeout s fun t => Refused s t 9)))

/-- R391, R433, R436, R440 to R444: FW.SEND runs on the master only, reads its object from the host and opens a session when the object passes;
a report window closes with a further round while a device lacks chunks; FW.IDENTITY answers the certificate; FW.ATTEST uses each leaf
once, reserves 256 leaves when none is left, waits for its lower tree, and is refused after a flash fault. -/
def Obligations.IdentityCommands : Prop :=
  ∀ (s : State) (m : Mbx) (r : CmdRun),
    (Ready s m 8 1 0x1C r →
      (s.dev.beat.role ≠ .master → Completes (.fwSend m) s fun t => Replies s t m 0x45 3 ∧ t.dev.fw = s.dev.fw) ∧
      (s.dev.beat.role = .master → r.destPending ≠ 1 → destOk (r.field 0 8) = true → destOk (r.field 0x10 8) = true →
        r.field 8 4 = 7380 → Completes (.fwSend m) s fun t => StackOnly s t ∧ t.dev = { s.dev with host := t.dev.host } ∧
          (∃ r', openCmd t.dev m = some r' ∧ 0 < r'.pendingRefs ∧ r'.destPending = 1) ∧
          ∃ x ∈ t.dev.host.accs, x.write = false ∧ ∃ pos, x.use = .cmdRef m pos) ∧
      (s.dev.beat.role = .master → r.destPending = 1 → sessionGoesOn s.dev.fw = false → Completes (.fwSend m) s fun t =>
        match checkObject s.dev.fw (slice r.payload 32 manLen) (slice r.payload (32 + 8192) (min (r.field 0x18 4) maxImage))
          (r.field 0x18 4) with
        | .ok _ => Replies s t m 0 2 ∧ t.dev.fw.sendSession = s.dev.fw.sendSession % 127 + 1 ∧ t.dev.fw.sendRound = 0 ∧
            t.dev.fw.sendWindow.isSome = true
        | .error _ => Replies s t m 0x44 3 ∧ t.dev.fw = s.dev.fw)) ∧
    (∀ w, s.dev.fw.sendWindow = some w → w ≤ s.dev.beat.wbc → (∀ p ∈ s.dev.span.ports, ownQueued s.dev p = 0) →
      ((∀ p ∈ s.dev.fw.progress, p.fwState ≠ 1) → Completes .fwReportWindowClose s fun t => StackOnly s t ∧
        t.dev.fw.sendWindow = none ∧ t.dev.fw.sendObj = [] ∧ t.dev.host.evtSeq = s.dev.host.evtSeq + 1) ∧
      ((∃ id, id < 2048 ∧ (fwEntry s.dev id).fwState = 1) → s.dev.fw.sendRound < 4 →
        Completes .fwReportWindowClose s fun t => StackOnly s t ∧ t.dev.fw.sendRound = s.dev.fw.sendRound + 1 ∧
          t.dev.fw.sendWindow.isSome = true)) ∧
    (Ready s m 8 3 0xC r → destOk (r.field 0 8) = true → 4 ≤ r.field 8 4 → Completes (.fwIdentity m) s fun t =>
        if fld (padTo 5904 Config.certificate) 8 8 = Config.serial.toNat then
          StackOnly s t ∧ t.dev = { s.dev with host := t.dev.host } ∧ ∃ x ∈ t.dev.host.accs, x.write = true ∧ x.use = .cmdDest m
        else Replies s t m 0x44 3 ∧ t.dev.fw = s.dev.fw) ∧
    (∀ readBack, Ready s m 8 4 0x2C r → destOk (r.field 0x20 8) = true → 5748 ≤ r.field 0x28 4 →
      (s.dev.fw.flashFault = true → Completes (.fwAttest m readBack) s fun t => Replies s t m 0x44 3 ∧ t.dev.fw = s.dev.fw) ∧
      (s.dev.fw.flashFault = false → s.dev.fw.nextLeaf ≠ s.dev.fw.limit →
        (s.dev.fw.nextLeaf / 2 ^ 15 ∈ s.dev.fw.trees → Completes (.fwAttest m readBack) s fun t => StackOnly s t ∧
          t.dev.fw = { s.dev.fw with nextLeaf := s.dev.fw.nextLeaf + 1 } ∧ ∃ x ∈ t.dev.host.accs, x.write = true ∧ x.use = .cmdDest m) ∧
        (s.dev.fw.nextLeaf / 2 ^ 15 ∉ s.dev.fw.trees → Completes (.fwAttest m readBack) s fun t => Replies s t m 0 2 ∧
          t.dev.fw.treeBusy = true ∧ t.dev.fw.nextLeaf = s.dev.fw.nextLeaf ∧ t.dev.fw.waiting.isSome = true)) ∧
      (s.dev.fw.flashFault = false → s.dev.fw.nextLeaf = s.dev.fw.limit → s.dev.fw.limit ≠ 2 ^ 25 → nth readBack 0 true = true →
        s.dev.fw.nextLeaf / 2 ^ 15 ∈ s.dev.fw.trees → Completes (.fwAttest m readBack) s fun t => StackOnly s t ∧
          t.dev.fw.log = s.dev.fw.log ++ [.valid (s.dev.fw.limit + 256)] ∧ t.dev.fw.limit = s.dev.fw.limit + 256 ∧
          t.dev.fw.nextLeaf = s.dev.fw.nextLeaf + 1)) ∧
    (∀ w, s.dev.fw.treeBusy = true → s.dev.fw.waiting = some w →
      Completes .lowerTreeComputed s fun t => StackOnly s t ∧ t.dev.fw.treeBusy = false ∧ t.dev.fw.waiting = none ∧
        t.dev.fw.nextLeaf = s.dev.fw.nextLeaf + 1 ∧ s.dev.fw.nextLeaf / 2 ^ 15 ∈ t.dev.fw.trees)

/- The whole block. -/

/-- Log 1: a step takes the command at the front of the queue and is exec of it with the queue's rest; an empty queue idles, which is
the model's choice. -/
def Obligations.StepRunsFrontCommand : Prop :=
  ∀ (s : State) (c : Instr) (rest : List Instr), step { s with pending := c :: rest } = exec c { s with pending := rest } ∧
    step { s with pending := [] } = .next { s with pending := [] }

/-- R499: every command answers a next state in every state, but VIN54_LOCKOUT beyond the absolute maximum of VIN54, of which the manual
describes nothing, where the model stops. -/
def Obligations.EveryCommandCompletes : Prop :=
  (∀ (s : State) (i : Instr), (∀ mv, i = .vin54Lockout mv → mv ≤ 64000) → ∃ t, exec i s = .next t) ∧
  ∀ (s : State) (mv : Nat), 64000 < mv → exec (.vin54Lockout mv) s = .fault .beyondAbsoluteMaximum

/-- The memories keep their canonical form through every step, and a step takes exactly the front command off the queue. -/
def Obligations.StepKeepsMemoryForm : Prop :=
  ∀ s t : State, s.mem.wf = true → step s = .next t → t.mem.wf = true ∧ t.pending = s.pending.tail

/-- The tables of the stack have their sizes: 18 cores and sites, 12 layers and ports, 16 columns, 4 partitions, 2 halves, 330 sensors. -/
def Sys2Proof.Shape (d : Dev) : Prop :=
  d.cores.length = 18 ∧ d.boot.parts.length = 4 ∧ d.boot.disabling.length = 4 ∧ d.sched.runs.length = 4 ∧ d.sched.rings.length = 4 ∧
    d.span.ports.length = 12 ∧ d.host.halves.length = 2 ∧ d.map.cols.length = 16 ∧ d.power.sites.length = 18 ∧
    d.power.sensors.length = 330 ∧ d.noc.sites.length = 18 ∧ d.prot.sites.length = 18 ∧ d.prot.layers.length = 12

/-- Every step keeps the sizes of the tables, which the statements above take as premises. -/
def Obligations.StepKeepsShape : Prop := ∀ s t : State, Shape s.dev → step s = .next t → Shape t.dev

/-- R395, R396, R397: right after reset the stack is in BASE_ON with every partition idle, the memories have their canonical form and read
as zero everywhere, the queue is empty and the tables have their sizes. -/
def Obligations.ResetForm : Prop :=
  State.reset.mem.wf = true ∧ (∀ k, State.reset.mem.get k = 0) ∧ State.reset.pending = [] ∧ State.reset.dev.boot.power = .baseOn ∧
    (∀ q, partState State.reset.dev q = .idle) ∧ Shape State.reset.dev

/-- R39: the trip circuit latches THERM_TRIP_N without firmware, in every state in which the stack has power; once latched, every command
leaves it latched but PWR_EN low and the lockout below 42.5 V, which release it; so a trip with a RESET_N assertion is latched. -/
def Obligations.TripStaysLatched : Prop :=
  (∀ (s : State) (sensor : Nat), s.dev.boot.power ≠ .off → sensor < 72 →
    Completes (.thermalTrip sensor) s fun t => t.mod.tripLatched = true ∧
      ∀ ns, Completes (.resetNFall ns) t fun u => u.mod.tripLatched = true) ∧
  ∀ (s t : State) (i : Instr), exec i s = .next t → s.mod.tripLatched = true →
    (t.mod.tripLatched = false ↔ i = .pwrEnFall ∨ ∃ mv, i = .vin54Lockout mv ∧ mv < 42500)

/-- R231: an address of the interleaved window names the DRAM byte at offset o of column c; beyond N columns it is unmapped; with 16
columns each aligned 128 KiB of the window touches every column once. -/
def Obligations.WindowNamesColumns : Prop :=
  (∀ d : Dev, d.map.n ≤ 16 → ∀ A, 0x4800000000 ≤ A → A < 0x7800000000 →
    let a := A - 0x4800000000
    let u := a >>> 13
    let c := u % d.map.n
    let o := ((u / d.map.n) <<< 13) + (a &&& 0x1FFF)
    (a < d.map.n * 0x300000000 → place d.map.n A = .dram c o ∧ addrKey d A = addrKey d (c * 0x300000000 + o)) ∧
    (d.map.n * 0x300000000 ≤ a → place d.map.n A = .unmapped ∧ addrKey d A = none)) ∧
  ∀ b c, 131072 * b + 131072 ≤ 16 * 0x300000000 → c < 16 →
    ∃ v, v < 16 ∧ ∀ x w, x < 16 → w < 8192 →
      ((∃ o, place 16 (0x4800000000 + 131072 * b + 8192 * x + w) = .dram c o) ↔ x = v)
end

