-- ==== Sys2Proof/Laws/Store.lean ====
section
/-! SUPPORT. Laws of the store: what a read gives after a change, and that every change keeps the canonical form. -/

namespace Sys2Proof.Machine

theorem Store.get_nil (k : Nat) : Store.get [] k = 0 := rfl

theorem Store.get_cons (j : Nat) (c : Byte) (r : Store) (k : Nat) :
    Store.get ((j, c) :: r) k = if j = k then c else Store.get r k := by
  by_cases h : j = k <;> simp [Store.get, assoc, h]

theorem Store.rising_mono {m : Store} {lo lo' : Nat} (h : Store.rising lo m = true) (hl : lo' ≤ lo) :
    Store.rising lo' m = true := by
  cases m with
  | nil => rfl
  | cons p r =>
    simp only [Store.rising, Bool.and_eq_true, decide_eq_true_eq] at h ⊢
    exact ⟨by omega, h.2⟩

/-- A key below the first one is not listed. -/
theorem Store.get_below {m : Store} {lo k : Nat} (h : Store.rising lo m = true) (hk : k < lo) : Store.get m k = 0 := by
  induction m generalizing lo with
  | nil => rfl
  | cons p r ih =>
    simp only [Store.rising, Bool.and_eq_true, decide_eq_true_eq] at h
    rw [Store.get_cons, if_neg (by omega)]
    exact ih h.2 (by omega)

/-- A write is read back, and every other byte reads as before. -/
theorem Store.get_put {m : Store} {lo : Nat} (h : Store.rising lo m = true) (k : Nat) (b : Byte) (j : Nat) :
    Store.get (Store.put k b m) j = if k = j then b else Store.get m j := by
  induction m generalizing lo with
  | nil =>
    by_cases hb : b = 0
    · rw [Store.put, if_pos hb, Store.get_nil, hb, ite_self]
    · rw [Store.put, if_neg hb, Store.get_cons]
  | cons p r ih =>
    obtain ⟨i, c⟩ := p
    simp only [Store.rising, Bool.and_eq_true, decide_eq_true_eq] at h
    by_cases h1 : i < k
    · rw [Store.put, if_pos h1, Store.get_cons, ih h.2, Store.get_cons]
      by_cases h2 : i = j
      · rw [if_pos h2, if_pos h2, if_neg (by omega)]
      · rw [if_neg h2, if_neg h2]
    · by_cases h2 : i = k
      · rw [Store.put, if_neg h1, if_pos h2]
        by_cases hb : b = 0
        · rw [if_pos hb, Store.get_cons]
          by_cases hj : k = j
          · rw [if_pos hj, hb, ← hj]; exact Store.get_below h.2 (by omega)
          · rw [if_neg hj, if_neg (by omega)]
        · rw [if_neg hb, Store.get_cons, Store.get_cons]
          by_cases hj : k = j
          · rw [if_pos hj]; simp [hj]
          · rw [if_neg hj]; simp only [if_neg hj]; rw [if_neg (by omega)]
      · rw [Store.put, if_neg h1, if_neg h2]
        by_cases hb : b = 0
        · rw [if_pos hb]
          by_cases hj : k = j
          · rw [if_pos hj, hb, Store.get_cons, if_neg (by omega)]
            exact Store.get_below h.2 (by omega)
          · rw [if_neg hj]
        · rw [if_neg hb, Store.get_cons]

/-- A stretch that was made zero reads as zero, and every other byte reads as before. -/
theorem Store.get_zero (m : Store) (lo len j : Nat) :
    Store.get (Store.zero lo len m) j = if lo ≤ j ∧ j < lo + len then 0 else Store.get m j := by
  induction m with
  | nil => simp [Store.zero, Store.get_nil]
  | cons p r ih =>
    obtain ⟨i, c⟩ := p
    have ih' : Store.get (List.filter (fun p => decide (p.1 < lo) || decide (lo + len ≤ p.1)) r) j
        = if lo ≤ j ∧ j < lo + len then 0 else Store.get r j := ih
    unfold Store.zero
    rw [List.filter_cons]
    split
    next hc =>
      simp only [Bool.or_eq_true, decide_eq_true_eq] at hc
      rw [Store.get_cons, ih', Store.get_cons]
      by_cases hij : i = j
      · rw [if_pos hij, if_pos hij, if_neg (by omega)]
      · rw [if_neg hij, if_neg hij]
    next hc =>
      simp only [Bool.or_eq_true, decide_eq_true_eq] at hc
      rw [ih', Store.get_cons]
      by_cases hin : lo ≤ j ∧ j < lo + len
      · rw [if_pos hin, if_pos hin]
      · rw [if_neg hin, if_neg hin, if_neg (by omega)]

/-- A write keeps the keys rising. -/
theorem Store.put_rising {m : Store} {lo k : Nat} (b : Byte) (h : Store.rising lo m = true) (hk : lo ≤ k) :
    Store.rising lo (Store.put k b m) = true := by
  induction m generalizing lo with
  | nil =>
    by_cases hb : b = 0
    · rw [Store.put, if_pos hb]; rfl
    · rw [Store.put, if_neg hb]; simp [Store.rising, hk]
  | cons p r ih =>
    obtain ⟨i, c⟩ := p
    simp only [Store.rising, Bool.and_eq_true, decide_eq_true_eq] at h
    simp only [Store.put]
    split
    · simp only [Store.rising, Bool.and_eq_true, decide_eq_true_eq]; exact ⟨h.1, ih h.2 (by omega)⟩
    · split
      · split
        · exact Store.rising_mono h.2 (by omega)
        · simp only [Store.rising, Bool.and_eq_true, decide_eq_true_eq]
          exact ⟨hk, Store.rising_mono h.2 (by omega)⟩
      · split
        · simp only [Store.rising, Bool.and_eq_true, decide_eq_true_eq]; exact h
        · simp only [Store.rising, Bool.and_eq_true, decide_eq_true_eq]
          exact ⟨hk, by omega, h.2⟩

/-- A write lists no zero byte. -/
theorem Store.put_nonzero {m : Store} (k : Nat) (b : Byte) (h : (m.all fun p => p.2 != 0) = true) :
    ((Store.put k b m).all fun p => p.2 != 0) = true := by
  induction m with
  | nil =>
    by_cases hb : b = 0
    · rw [Store.put, if_pos hb]; rfl
    · rw [Store.put, if_neg hb]; simpa using hb
  | cons p r ih =>
    obtain ⟨i, c⟩ := p
    simp only [List.all_cons, Bool.and_eq_true] at h
    simp only [Store.put]
    split
    · simp only [List.all_cons, Bool.and_eq_true]; exact ⟨h.1, ih h.2⟩
    · split
      · split
        · exact h.2
        · rename_i hb; simp only [List.all_cons, Bool.and_eq_true]; exact ⟨by simpa using hb, h.2⟩
      · split
        · simp only [List.all_cons, Bool.and_eq_true]; exact h
        · rename_i hb; simp only [List.all_cons, Bool.and_eq_true]; exact ⟨by simpa using hb, h⟩

theorem Store.put_wf {m : Store} (k : Nat) (b : Byte) (h : Store.wf m = true) : Store.wf (Store.put k b m) = true := by
  simp only [Store.wf, Bool.and_eq_true] at h ⊢
  exact ⟨Store.put_rising b h.1 (Nat.zero_le k), Store.put_nonzero k b h.2⟩

/-- Leaving entries out keeps the keys rising. -/
theorem Store.filter_rising {m : Store} {lo : Nat} (f : Nat × Byte → Bool) (h : Store.rising lo m = true) :
    Store.rising lo (m.filter f) = true := by
  induction m generalizing lo with
  | nil => rfl
  | cons p r ih =>
    obtain ⟨i, c⟩ := p
    simp only [Store.rising, Bool.and_eq_true, decide_eq_true_eq] at h
    rw [List.filter_cons]
    split
    · simp only [Store.rising, Bool.and_eq_true, decide_eq_true_eq]; exact ⟨h.1, ih h.2⟩
    · exact ih (Store.rising_mono h.2 (by omega))

theorem Store.zero_wf {m : Store} (lo len : Nat) (h : Store.wf m = true) : Store.wf (Store.zero lo len m) = true := by
  simp only [Store.wf, Bool.and_eq_true] at h ⊢
  refine ⟨Store.filter_rising _ h.1, ?_⟩
  simp only [List.all_eq_true] at h ⊢
  exact fun x hx => h.2 x (List.mem_filter.mp hx).1

/-- Every change keeps the canonical form. -/
theorem Store.change_wf {m : Store} (o : MemOp) (h : Store.wf m = true) : Store.wf (m.change o) = true := by
  cases o with
  | put k b => exact Store.put_wf k b h
  | zero lo len => exact Store.zero_wf lo len h

/-- The changes of a command keep the canonical form. -/
theorem Store.applyLog_wf {m : Store} (l : List MemOp) (h : Store.wf m = true) : Store.wf (m.applyLog l) = true := by
  induction l with
  | nil => exact h
  | cons o r ih => exact Store.change_wf o ih

/-- A command reads the memories as its changes so far have left them. -/
theorem Store.get_applyLog {m : Store} (l : List MemOp) (h : Store.wf m = true) (k : Nat) :
    Store.get (m.applyLog l) k = (logGet k l).getD (Store.get m k) := by
  induction l with
  | nil => rfl
  | cons o r ih =>
    cases o with
    | put j b =>
      have hw := Store.applyLog_wf r h
      simp only [Store.wf, Bool.and_eq_true] at hw
      simp only [Store.applyLog, Store.change, logGet]
      rw [Store.get_put hw.1, ih]
      by_cases hj : j = k <;> simp [hj]
    | zero lo len =>
      simp only [Store.applyLog, Store.change, logGet]
      rw [Store.get_zero, ih]
      by_cases hj : lo ≤ k ∧ k < lo + len
      · simp [hj]
      · rw [if_neg hj]
        have : (decide (lo ≤ k) && decide (k < lo + len)) = false := by simpa using hj
        simp [this]

end Sys2Proof.Machine
end

