-- ==== Sys2Proof/Laws/Meaning.lean ====
section
/-! SUPPORT. What a command of each shape can do: one lemma per wrapper of a meaning. -/

namespace Sys2Proof

open Machine

variable {i : Instr} {s : State} {P : State → Prop}

/-- A command that runs a function of the stack and its memories completes with what that function leaves. -/
theorem completes_onSys {f : Sys → Sys} (h : exec i s = onSys f s)
    (hp : P { s with dev := (f s.work).dev, mem := s.mem.applyLog (f s.work).log }) : Completes i s P := ⟨_, h, hp⟩

/-- A command that runs a function of pins, stack and memories completes with what that function leaves. -/
theorem completes_onAll {f : Module → Sys → Module × Sys} (h : exec i s = onAll f s)
    (hp : P { s with mod := (f s.mod s.work).1, dev := (f s.mod s.work).2.dev,
                     mem := s.mem.applyLog (f s.mod s.work).2.log }) : Completes i s P := ⟨_, h, hp⟩

/-- A command that changes the pins only. -/
theorem completes_onMod {f : Module → Module} (h : exec i s = onMod f s) (hp : P { s with mod := f s.mod }) :
    Completes i s P := ⟨_, h, hp⟩

/-- A command that changes the stack's registers only. -/
theorem completes_onDev {f : Dev → Dev} (h : exec i s = onDev f s) (hp : P { s with dev := f s.dev }) :
    Completes i s P := ⟨_, h, hp⟩

theorem onSys_next {f : Sys → Sys} {t : State} (h : onSys f s = .next t) :
    t = { s with dev := (f s.work).dev, mem := s.mem.applyLog (f s.work).log } := by
  cases h; rfl

/-- A command on stack and memories keeps the canonical form of the memories, the pins and the queue. -/
theorem onSys_keeps {f : Sys → Sys} {t : State} (h : onSys f s = .next t) :
    t.mod = s.mod ∧ t.pending = s.pending ∧ (s.mem.wf = true → t.mem.wf = true) := by
  cases h; exact ⟨rfl, rfl, fun hw => Store.applyLog_wf _ hw⟩

/-- A command on everything keeps the canonical form of the memories and the queue. -/
theorem onAll_keeps {f : Module → Sys → Module × Sys} {t : State} (h : onAll f s = .next t) :
    t.pending = s.pending ∧ (s.mem.wf = true → t.mem.wf = true) := by
  cases h; exact ⟨rfl, fun hw => Store.applyLog_wf _ hw⟩

theorem onMod_keeps {f : Module → Module} {t : State} (h : onMod f s = .next t) :
    t.dev = s.dev ∧ t.mem = s.mem ∧ t.pending = s.pending := by
  cases h; exact ⟨rfl, rfl, rfl⟩

theorem onDev_keeps {f : Dev → Dev} {t : State} (h : onDev f s = .next t) :
    t.mod = s.mod ∧ t.mem = s.mem ∧ t.pending = s.pending := by
  cases h; exact ⟨rfl, rfl, rfl⟩

end Sys2Proof
end

