-- ==== Sys2Proof/Laws/Ops.lean ====
section
/-! SUPPORT. What the shared operations leave alone. A view `v` of the work record is anything one reads from it; each lemma says:
a view that the named parts do not enter reads the same after the operation as before it. -/

namespace Sys2Proof.Machine

variable {α β : Type} (v : Sys → α) (y : Sys)

/-- A loop keeps what each round keeps. -/
theorem Sys.each_keeps (l : List β) (f : Sys → β → Sys) (h : ∀ z a, a ∈ l → v (f z a) = v z) : v (y.each l f) = v y := by
  induction l generalizing y with
  | nil => rfl
  | cons a r ih =>
    simp only [Sys.each, List.foldl_cons]
    exact (ih (f y a) fun z b hb => h z b (List.mem_cons_of_mem a hb)).trans (h y a List.mem_cons_self)

theorem Sys.when_keeps (c : Bool) (f : Sys → Sys) (h : v (f y) = v y) : v (y.when c f) = v y := by
  cases c
  · rfl
  · exact h

variable (hHost : ∀ z f, v (Sys.onHost z f) = v z)

include hHost

theorem ringPush_keeps (b : List Byte) (k : Bool) : v (ringPush y b k) = v y := hHost y _

theorem event_keeps (code : Nat) (data : List Byte) : v (event y code data) = v y :=
  (ringPush_keeps v _ hHost _ _).trans (hHost y _)

theorem sendHost_keeps (m : HostMsg) : v (sendHost y m) = v y := by
  unfold sendHost Sys.onHalf; exact hHost y _

theorem hostAccess1_keeps (w : Bool) (a n : Nat) (d : List Byte) (m : List Bool) (u : HostUse) :
    v (hostAccess1 y w a n d m u) = v y := by
  unfold hostAccess1; exact hHost y _

theorem drdRange_keeps (a n : Nat) (u : Nat → HostUse) : v (drdRange y a n u) = v y :=
  Sys.each_keeps v y _ _ fun z _ _ => hostAccess1_keeps v z hHost _ _ _ _ _ _

theorem dwrRange_keeps (a : Nat) (d : List Byte) (u : HostUse) : v (dwrRange y a d u) = v y :=
  Sys.each_keeps v y _ _ fun z _ _ => hostAccess1_keeps v z hHost _ _ _ _ _ _

theorem faultRec_keeps (hFaults : ∀ z f, v (Sys.onFaults z f) = v z) (f : FaultInfo) : v (faultRec y f) = v y := by
  unfold faultRec; exact (hHost _ _).trans (hFaults y _)

theorem faultRecCc_keeps (hFaults : ∀ z f, v (Sys.onFaults z f) = v z) (f : FaultInfo) : v (faultRecCc y f) = v y :=
  (ringPush_keeps v _ hHost _ _).trans (hFaults y _)

theorem enterPower_keeps (hBoot : ∀ z f, v (Sys.onBoot z f) = v z) (p : PowerState) : v (enterPower y p) = v y := by
  unfold enterPower
  split
  · rfl
  · exact (event_keeps v _ hHost _ _).trans (hBoot y _)

theorem settlePower_keeps (hBoot : ∀ z f, v (Sys.onBoot z f) = v z) : v (settlePower y) = v y := by
  unfold settlePower
  split
  · exact enterPower_keeps v y hHost hBoot _
  · rfl

theorem setPart_keeps (hBoot : ∀ z f, v (Sys.onBoot z f) = v z) (q : Nat) (p : PartState) : v (setPart y q p) = v y :=
  (settlePower_keeps v _ hHost hBoot).trans (hBoot y _)

theorem settleLinks_keeps (hBoot : ∀ z f, v (Sys.onBoot z f) = v z) : v (settleLinks y) = v y := by
  simp only [settleLinks]
  split
  · exact enterPower_keeps v y hHost hBoot _
  · rfl

theorem setPort_keeps (hBoot : ∀ z f, v (Sys.onBoot z f) = v z) (hSpan : ∀ z f, v (Sys.onSpan z f) = v z)
    (p : Nat) (new : PortState) : v (setPort y p new) = v y := by
  simp only [setPort]
  split
  · rfl
  · exact ((settleLinks_keeps v _ hHost hBoot).trans (event_keeps v _ hHost _ _)).trans (hSpan y _)

theorem wakePort_keeps (hBoot : ∀ z f, v (Sys.onBoot z f) = v z) (hSpan : ∀ z f, v (Sys.onSpan z f) = v z) (p : Nat) :
    v (wakePort y p) = v y := by
  simp only [wakePort]
  split
  · exact (setPort_keeps v _ hHost hBoot hSpan _ _).trans (hSpan y _)
  · exact hSpan y _

omit hHost in
theorem floodRec_keeps (hSpan : ∀ z f, v (Sys.onSpan z f) = v z) (e : Option Nat) (r : CtrlRec) : v (floodRec y e r) = v y :=
  Sys.each_keeps v y _ _ fun z p _ => by
    split
    · unfold Sys.onPort; exact hSpan z _
    · rfl

omit hHost in
theorem requestHold_keeps (hSpan : ∀ z f, v (Sys.onSpan z f) = v z) (hBeat : ∀ z f, v (Sys.onBeat z f) = v z)
    (cause len : Nat) : v (requestHold y cause len) = v y := by
  simp only [requestHold]
  split
  · rfl
  · exact (floodRec_keeps v _ hSpan _ _).trans (hBeat y _)

theorem sendStatus_keeps (hNoc : ∀ z f, v (Sys.onNoc z f) = v z) (site : Nat) (s : StepRun) : v (sendStatus y site s) = v y := by
  unfold sendStatus
  refine (hHost _ _).trans (Sys.when_keeps v y _ _ ?_)
  unfold Sys.onSiteNoc; exact hNoc y _

theorem recordStep_keeps (hFaults : ∀ z f, v (Sys.onFaults z f) = v z) (hNoc : ∀ z f, v (Sys.onNoc z f) = v z) (site : Nat) (s : StepRun)
    (w : Nat) : v (recordStep y site s w) = v y := by
  unfold recordStep
  refine (Sys.when_keeps v _ _ _ ?_).trans (Sys.when_keeps v y _ _ ?_)
  · exact faultRec_keeps v _ hHost hFaults _
  · exact sendStatus_keeps v y hHost hNoc _ _

theorem endStep_keeps (hFaults : ∀ z f, v (Sys.onFaults z f) = v z) (hNoc : ∀ z f, v (Sys.onNoc z f) = v z)
    (hBoot : ∀ z f, v (Sys.onBoot z f) = v z)
    (hCore : ∀ z s f, v (Sys.onCore z s f) = v z) (site i o w cyc : Nat) : v (endStep y site i o w cyc) = v y := by
  simp only [endStep]
  split
  · rfl
  · exact ((recordStep_keeps v _ hHost hFaults hNoc _ _ _).trans (hBoot _ _)).trans (hCore y _ _)

theorem abandonReplay_keeps (hFaults : ∀ z f, v (Sys.onFaults z f) = v z) (hCore : ∀ z s f, v (Sys.onCore z s f) = v z)
    (site o : Nat) : v (abandonReplay y site o) = v y := by
  simp only [abandonReplay]
  split
  · rfl
  · exact (hCore _ _ _).trans (faultRec_keeps v y hHost hFaults _)

omit hHost in
theorem dropRowOps_keeps (hProt : ∀ z f, v (Sys.onProt z f) = v z) (site : Nat) : v (dropRowOps y site) = v y := hProt y _

theorem stopCore_keeps (hFaults : ∀ z f, v (Sys.onFaults z f) = v z) (hNoc : ∀ z f, v (Sys.onNoc z f) = v z)
    (hBoot : ∀ z f, v (Sys.onBoot z f) = v z)
    (hCore : ∀ z s f, v (Sys.onCore z s f) = v z) (hProt : ∀ z f, v (Sys.onProt z f) = v z) (site q : Nat) : v (stopCore y site q) = v y := by
  refine (hCore _ _ _).trans ((Sys.each_keeps v _ _ _ fun z _ _ => ?_).trans
    ((hProt _ _).trans (abandonReplay_keeps v y hHost hFaults hCore _ _)))
  exact endStep_keeps v z hHost hFaults hNoc hBoot hCore _ _ _ _ _

theorem stopPart_keeps (hFaults : ∀ z f, v (Sys.onFaults z f) = v z) (hNoc : ∀ z f, v (Sys.onNoc z f) = v z)
    (hBoot : ∀ z f, v (Sys.onBoot z f) = v z)
    (hCore : ∀ z s f, v (Sys.onCore z s f) = v z) (hProt : ∀ z f, v (Sys.onProt z f) = v z) (hSched : ∀ z f, v (Sys.onSched z f) = v z) (q k : Nat) :
    v (stopPart y q k) = v y := by
  unfold stopPart
  refine (hBoot _ _).trans ((hSched _ _).trans (Sys.each_keeps v y _ _ fun z _ _ => ?_))
  exact stopCore_keeps v z hHost hFaults hNoc hBoot hCore hProt _ _

theorem faultStop_keeps (hFaults : ∀ z f, v (Sys.onFaults z f) = v z) (hNoc : ∀ z f, v (Sys.onNoc z f) = v z)
    (hBoot : ∀ z f, v (Sys.onBoot z f) = v z)
    (hCore : ∀ z s f, v (Sys.onCore z s f) = v z) (hProt : ∀ z f, v (Sys.onProt z f) = v z) (hSched : ∀ z f, v (Sys.onSched z f) = v z) (q : Nat) :
    v (faultStop y q) = v y := by
  unfold faultStop
  split
  · rfl
  · exact (setPart_keeps v _ hHost hBoot _ _).trans (stopPart_keeps v y hHost hFaults hNoc hBoot hCore hProt hSched _ _)

theorem faultStopAll_keeps (hFaults : ∀ z f, v (Sys.onFaults z f) = v z) (hNoc : ∀ z f, v (Sys.onNoc z f) = v z)
    (hBoot : ∀ z f, v (Sys.onBoot z f) = v z)
    (hCore : ∀ z s f, v (Sys.onCore z s f) = v z) (hProt : ∀ z f, v (Sys.onProt z f) = v z) (hSched : ∀ z f, v (Sys.onSched z f) = v z) : v (faultStopAll y) = v y :=
  Sys.each_keeps v y _ _ fun z _ _ => faultStop_keeps v z hHost hFaults hNoc hBoot hCore hProt hSched _

theorem lossOfAlignment_keeps (hFaults : ∀ z f, v (Sys.onFaults z f) = v z) (hNoc : ∀ z f, v (Sys.onNoc z f) = v z)
    (hBoot : ∀ z f, v (Sys.onBoot z f) = v z)
    (hCore : ∀ z s f, v (Sys.onCore z s f) = v z) (hProt : ∀ z f, v (Sys.onProt z f) = v z) (hSched : ∀ z f, v (Sys.onSched z f) = v z)
    (hSpan : ∀ z f, v (Sys.onSpan z f) = v z) (hBeat : ∀ z f, v (Sys.onBeat z f) = v z) (cause : Nat) :
    v (lossOfAlignment y cause) = v y := by
  unfold lossOfAlignment
  refine (Sys.when_keeps v _ _ _ ?_).trans ?_
  · exact requestHold_keeps v _ hSpan hBeat _ _
  refine (event_keeps v _ hHost _ _).trans ((hBeat _ _).trans ?_)
  exact faultStopAll_keeps v y hHost hFaults hNoc hBoot hCore hProt hSched

theorem firmwareFault_keeps (hFaults : ∀ z f, v (Sys.onFaults z f) = v z) (hNoc : ∀ z f, v (Sys.onNoc z f) = v z)
    (hBoot : ∀ z f, v (Sys.onBoot z f) = v z)
    (hCore : ∀ z s f, v (Sys.onCore z s f) = v z) (hProt : ∀ z f, v (Sys.onProt z f) = v z) (hSched : ∀ z f, v (Sys.onSched z f) = v z)
    (hSpan : ∀ z f, v (Sys.onSpan z f) = v z) (hBeat : ∀ z f, v (Sys.onBeat z f) = v z) (detail addr : Nat) :
    v (firmwareFault y detail addr) = v y := by
  refine (requestHold_keeps v _ hSpan hBeat _ _).trans ?_
  exact (faultStopAll_keeps v _ hHost hFaults hNoc hBoot hCore hProt hSched).trans (faultRecCc_keeps v y hHost hFaults _)

end Sys2Proof.Machine
end

