-- ==== Sys2Proof/Laws/State.lean ====
section
/-! SUPPORT. State laws: what each update of a part of the stack leaves in each field, so that no proof unfolds a record update. -/

namespace Sys2Proof.Machine

variable (y : Sys) (s : Nat)

/- onBoot -/

@[simp] theorem Sys.onBoot_boot (f : Boot → Boot) : (y.onBoot f).dev.boot = f y.dev.boot := rfl
@[simp] theorem Sys.onBoot_map (f : Boot → Boot) : (y.onBoot f).dev.map = y.dev.map := rfl
@[simp] theorem Sys.onBoot_prot (f : Boot → Boot) : (y.onBoot f).dev.prot = y.dev.prot := rfl
@[simp] theorem Sys.onBoot_beat (f : Boot → Boot) : (y.onBoot f).dev.beat = y.dev.beat := rfl
@[simp] theorem Sys.onBoot_sched (f : Boot → Boot) : (y.onBoot f).dev.sched = y.dev.sched := rfl
@[simp] theorem Sys.onBoot_cores (f : Boot → Boot) : (y.onBoot f).dev.cores = y.dev.cores := rfl
@[simp] theorem Sys.onBoot_noc (f : Boot → Boot) : (y.onBoot f).dev.noc = y.dev.noc := rfl
@[simp] theorem Sys.onBoot_span (f : Boot → Boot) : (y.onBoot f).dev.span = y.dev.span := rfl
@[simp] theorem Sys.onBoot_host (f : Boot → Boot) : (y.onBoot f).dev.host = y.dev.host := rfl
@[simp] theorem Sys.onBoot_fw (f : Boot → Boot) : (y.onBoot f).dev.fw = y.dev.fw := rfl
@[simp] theorem Sys.onBoot_power (f : Boot → Boot) : (y.onBoot f).dev.power = y.dev.power := rfl
@[simp] theorem Sys.onBoot_walker (f : Boot → Boot) : (y.onBoot f).dev.walker = y.dev.walker := rfl
@[simp] theorem Sys.onBoot_faults (f : Boot → Boot) : (y.onBoot f).dev.faults = y.dev.faults := rfl
@[simp] theorem Sys.onBoot_free (f : Boot → Boot) : (y.onBoot f).dev.free = y.dev.free := rfl
@[simp] theorem Sys.onBoot_base (f : Boot → Boot) : (y.onBoot f).base = y.base := rfl
@[simp] theorem Sys.onBoot_log (f : Boot → Boot) : (y.onBoot f).log = y.log := rfl

/- onMap -/

@[simp] theorem Sys.onMap_boot (f : MemMap → MemMap) : (y.onMap f).dev.boot = y.dev.boot := rfl
@[simp] theorem Sys.onMap_map (f : MemMap → MemMap) : (y.onMap f).dev.map = f y.dev.map := rfl
@[simp] theorem Sys.onMap_prot (f : MemMap → MemMap) : (y.onMap f).dev.prot = y.dev.prot := rfl
@[simp] theorem Sys.onMap_beat (f : MemMap → MemMap) : (y.onMap f).dev.beat = y.dev.beat := rfl
@[simp] theorem Sys.onMap_sched (f : MemMap → MemMap) : (y.onMap f).dev.sched = y.dev.sched := rfl
@[simp] theorem Sys.onMap_cores (f : MemMap → MemMap) : (y.onMap f).dev.cores = y.dev.cores := rfl
@[simp] theorem Sys.onMap_noc (f : MemMap → MemMap) : (y.onMap f).dev.noc = y.dev.noc := rfl
@[simp] theorem Sys.onMap_span (f : MemMap → MemMap) : (y.onMap f).dev.span = y.dev.span := rfl
@[simp] theorem Sys.onMap_host (f : MemMap → MemMap) : (y.onMap f).dev.host = y.dev.host := rfl
@[simp] theorem Sys.onMap_fw (f : MemMap → MemMap) : (y.onMap f).dev.fw = y.dev.fw := rfl
@[simp] theorem Sys.onMap_power (f : MemMap → MemMap) : (y.onMap f).dev.power = y.dev.power := rfl
@[simp] theorem Sys.onMap_walker (f : MemMap → MemMap) : (y.onMap f).dev.walker = y.dev.walker := rfl
@[simp] theorem Sys.onMap_faults (f : MemMap → MemMap) : (y.onMap f).dev.faults = y.dev.faults := rfl
@[simp] theorem Sys.onMap_free (f : MemMap → MemMap) : (y.onMap f).dev.free = y.dev.free := rfl
@[simp] theorem Sys.onMap_base (f : MemMap → MemMap) : (y.onMap f).base = y.base := rfl
@[simp] theorem Sys.onMap_log (f : MemMap → MemMap) : (y.onMap f).log = y.log := rfl

/- onProt -/

@[simp] theorem Sys.onProt_boot (f : Prot → Prot) : (y.onProt f).dev.boot = y.dev.boot := rfl
@[simp] theorem Sys.onProt_map (f : Prot → Prot) : (y.onProt f).dev.map = y.dev.map := rfl
@[simp] theorem Sys.onProt_prot (f : Prot → Prot) : (y.onProt f).dev.prot = f y.dev.prot := rfl
@[simp] theorem Sys.onProt_beat (f : Prot → Prot) : (y.onProt f).dev.beat = y.dev.beat := rfl
@[simp] theorem Sys.onProt_sched (f : Prot → Prot) : (y.onProt f).dev.sched = y.dev.sched := rfl
@[simp] theorem Sys.onProt_cores (f : Prot → Prot) : (y.onProt f).dev.cores = y.dev.cores := rfl
@[simp] theorem Sys.onProt_noc (f : Prot → Prot) : (y.onProt f).dev.noc = y.dev.noc := rfl
@[simp] theorem Sys.onProt_span (f : Prot → Prot) : (y.onProt f).dev.span = y.dev.span := rfl
@[simp] theorem Sys.onProt_host (f : Prot → Prot) : (y.onProt f).dev.host = y.dev.host := rfl
@[simp] theorem Sys.onProt_fw (f : Prot → Prot) : (y.onProt f).dev.fw = y.dev.fw := rfl
@[simp] theorem Sys.onProt_power (f : Prot → Prot) : (y.onProt f).dev.power = y.dev.power := rfl
@[simp] theorem Sys.onProt_walker (f : Prot → Prot) : (y.onProt f).dev.walker = y.dev.walker := rfl
@[simp] theorem Sys.onProt_faults (f : Prot → Prot) : (y.onProt f).dev.faults = y.dev.faults := rfl
@[simp] theorem Sys.onProt_free (f : Prot → Prot) : (y.onProt f).dev.free = y.dev.free := rfl
@[simp] theorem Sys.onProt_base (f : Prot → Prot) : (y.onProt f).base = y.base := rfl
@[simp] theorem Sys.onProt_log (f : Prot → Prot) : (y.onProt f).log = y.log := rfl

/- onBeat -/

@[simp] theorem Sys.onBeat_boot (f : Beat → Beat) : (y.onBeat f).dev.boot = y.dev.boot := rfl
@[simp] theorem Sys.onBeat_map (f : Beat → Beat) : (y.onBeat f).dev.map = y.dev.map := rfl
@[simp] theorem Sys.onBeat_prot (f : Beat → Beat) : (y.onBeat f).dev.prot = y.dev.prot := rfl
@[simp] theorem Sys.onBeat_beat (f : Beat → Beat) : (y.onBeat f).dev.beat = f y.dev.beat := rfl
@[simp] theorem Sys.onBeat_sched (f : Beat → Beat) : (y.onBeat f).dev.sched = y.dev.sched := rfl
@[simp] theorem Sys.onBeat_cores (f : Beat → Beat) : (y.onBeat f).dev.cores = y.dev.cores := rfl
@[simp] theorem Sys.onBeat_noc (f : Beat → Beat) : (y.onBeat f).dev.noc = y.dev.noc := rfl
@[simp] theorem Sys.onBeat_span (f : Beat → Beat) : (y.onBeat f).dev.span = y.dev.span := rfl
@[simp] theorem Sys.onBeat_host (f : Beat → Beat) : (y.onBeat f).dev.host = y.dev.host := rfl
@[simp] theorem Sys.onBeat_fw (f : Beat → Beat) : (y.onBeat f).dev.fw = y.dev.fw := rfl
@[simp] theorem Sys.onBeat_power (f : Beat → Beat) : (y.onBeat f).dev.power = y.dev.power := rfl
@[simp] theorem Sys.onBeat_walker (f : Beat → Beat) : (y.onBeat f).dev.walker = y.dev.walker := rfl
@[simp] theorem Sys.onBeat_faults (f : Beat → Beat) : (y.onBeat f).dev.faults = y.dev.faults := rfl
@[simp] theorem Sys.onBeat_free (f : Beat → Beat) : (y.onBeat f).dev.free = y.dev.free := rfl
@[simp] theorem Sys.onBeat_base (f : Beat → Beat) : (y.onBeat f).base = y.base := rfl
@[simp] theorem Sys.onBeat_log (f : Beat → Beat) : (y.onBeat f).log = y.log := rfl

/- onSched -/

@[simp] theorem Sys.onSched_boot (f : Sched → Sched) : (y.onSched f).dev.boot = y.dev.boot := rfl
@[simp] theorem Sys.onSched_map (f : Sched → Sched) : (y.onSched f).dev.map = y.dev.map := rfl
@[simp] theorem Sys.onSched_prot (f : Sched → Sched) : (y.onSched f).dev.prot = y.dev.prot := rfl
@[simp] theorem Sys.onSched_beat (f : Sched → Sched) : (y.onSched f).dev.beat = y.dev.beat := rfl
@[simp] theorem Sys.onSched_sched (f : Sched → Sched) : (y.onSched f).dev.sched = f y.dev.sched := rfl
@[simp] theorem Sys.onSched_cores (f : Sched → Sched) : (y.onSched f).dev.cores = y.dev.cores := rfl
@[simp] theorem Sys.onSched_noc (f : Sched → Sched) : (y.onSched f).dev.noc = y.dev.noc := rfl
@[simp] theorem Sys.onSched_span (f : Sched → Sched) : (y.onSched f).dev.span = y.dev.span := rfl
@[simp] theorem Sys.onSched_host (f : Sched → Sched) : (y.onSched f).dev.host = y.dev.host := rfl
@[simp] theorem Sys.onSched_fw (f : Sched → Sched) : (y.onSched f).dev.fw = y.dev.fw := rfl
@[simp] theorem Sys.onSched_power (f : Sched → Sched) : (y.onSched f).dev.power = y.dev.power := rfl
@[simp] theorem Sys.onSched_walker (f : Sched → Sched) : (y.onSched f).dev.walker = y.dev.walker := rfl
@[simp] theorem Sys.onSched_faults (f : Sched → Sched) : (y.onSched f).dev.faults = y.dev.faults := rfl
@[simp] theorem Sys.onSched_free (f : Sched → Sched) : (y.onSched f).dev.free = y.dev.free := rfl
@[simp] theorem Sys.onSched_base (f : Sched → Sched) : (y.onSched f).base = y.base := rfl
@[simp] theorem Sys.onSched_log (f : Sched → Sched) : (y.onSched f).log = y.log := rfl

/- onNoc -/

@[simp] theorem Sys.onNoc_boot (f : Noc → Noc) : (y.onNoc f).dev.boot = y.dev.boot := rfl
@[simp] theorem Sys.onNoc_map (f : Noc → Noc) : (y.onNoc f).dev.map = y.dev.map := rfl
@[simp] theorem Sys.onNoc_prot (f : Noc → Noc) : (y.onNoc f).dev.prot = y.dev.prot := rfl
@[simp] theorem Sys.onNoc_beat (f : Noc → Noc) : (y.onNoc f).dev.beat = y.dev.beat := rfl
@[simp] theorem Sys.onNoc_sched (f : Noc → Noc) : (y.onNoc f).dev.sched = y.dev.sched := rfl
@[simp] theorem Sys.onNoc_cores (f : Noc → Noc) : (y.onNoc f).dev.cores = y.dev.cores := rfl
@[simp] theorem Sys.onNoc_noc (f : Noc → Noc) : (y.onNoc f).dev.noc = f y.dev.noc := rfl
@[simp] theorem Sys.onNoc_span (f : Noc → Noc) : (y.onNoc f).dev.span = y.dev.span := rfl
@[simp] theorem Sys.onNoc_host (f : Noc → Noc) : (y.onNoc f).dev.host = y.dev.host := rfl
@[simp] theorem Sys.onNoc_fw (f : Noc → Noc) : (y.onNoc f).dev.fw = y.dev.fw := rfl
@[simp] theorem Sys.onNoc_power (f : Noc → Noc) : (y.onNoc f).dev.power = y.dev.power := rfl
@[simp] theorem Sys.onNoc_walker (f : Noc → Noc) : (y.onNoc f).dev.walker = y.dev.walker := rfl
@[simp] theorem Sys.onNoc_faults (f : Noc → Noc) : (y.onNoc f).dev.faults = y.dev.faults := rfl
@[simp] theorem Sys.onNoc_free (f : Noc → Noc) : (y.onNoc f).dev.free = y.dev.free := rfl
@[simp] theorem Sys.onNoc_base (f : Noc → Noc) : (y.onNoc f).base = y.base := rfl
@[simp] theorem Sys.onNoc_log (f : Noc → Noc) : (y.onNoc f).log = y.log := rfl

/- onSpan -/

@[simp] theorem Sys.onSpan_boot (f : Span → Span) : (y.onSpan f).dev.boot = y.dev.boot := rfl
@[simp] theorem Sys.onSpan_map (f : Span → Span) : (y.onSpan f).dev.map = y.dev.map := rfl
@[simp] theorem Sys.onSpan_prot (f : Span → Span) : (y.onSpan f).dev.prot = y.dev.prot := rfl
@[simp] theorem Sys.onSpan_beat (f : Span → Span) : (y.onSpan f).dev.beat = y.dev.beat := rfl
@[simp] theorem Sys.onSpan_sched (f : Span → Span) : (y.onSpan f).dev.sched = y.dev.sched := rfl
@[simp] theorem Sys.onSpan_cores (f : Span → Span) : (y.onSpan f).dev.cores = y.dev.cores := rfl
@[simp] theorem Sys.onSpan_noc (f : Span → Span) : (y.onSpan f).dev.noc = y.dev.noc := rfl
@[simp] theorem Sys.onSpan_span (f : Span → Span) : (y.onSpan f).dev.span = f y.dev.span := rfl
@[simp] theorem Sys.onSpan_host (f : Span → Span) : (y.onSpan f).dev.host = y.dev.host := rfl
@[simp] theorem Sys.onSpan_fw (f : Span → Span) : (y.onSpan f).dev.fw = y.dev.fw := rfl
@[simp] theorem Sys.onSpan_power (f : Span → Span) : (y.onSpan f).dev.power = y.dev.power := rfl
@[simp] theorem Sys.onSpan_walker (f : Span → Span) : (y.onSpan f).dev.walker = y.dev.walker := rfl
@[simp] theorem Sys.onSpan_faults (f : Span → Span) : (y.onSpan f).dev.faults = y.dev.faults := rfl
@[simp] theorem Sys.onSpan_free (f : Span → Span) : (y.onSpan f).dev.free = y.dev.free := rfl
@[simp] theorem Sys.onSpan_base (f : Span → Span) : (y.onSpan f).base = y.base := rfl
@[simp] theorem Sys.onSpan_log (f : Span → Span) : (y.onSpan f).log = y.log := rfl

/- onHost -/

@[simp] theorem Sys.onHost_boot (f : HostLink → HostLink) : (y.onHost f).dev.boot = y.dev.boot := rfl
@[simp] theorem Sys.onHost_map (f : HostLink → HostLink) : (y.onHost f).dev.map = y.dev.map := rfl
@[simp] theorem Sys.onHost_prot (f : HostLink → HostLink) : (y.onHost f).dev.prot = y.dev.prot := rfl
@[simp] theorem Sys.onHost_beat (f : HostLink → HostLink) : (y.onHost f).dev.beat = y.dev.beat := rfl
@[simp] theorem Sys.onHost_sched (f : HostLink → HostLink) : (y.onHost f).dev.sched = y.dev.sched := rfl
@[simp] theorem Sys.onHost_cores (f : HostLink → HostLink) : (y.onHost f).dev.cores = y.dev.cores := rfl
@[simp] theorem Sys.onHost_noc (f : HostLink → HostLink) : (y.onHost f).dev.noc = y.dev.noc := rfl
@[simp] theorem Sys.onHost_span (f : HostLink → HostLink) : (y.onHost f).dev.span = y.dev.span := rfl
@[simp] theorem Sys.onHost_host (f : HostLink → HostLink) : (y.onHost f).dev.host = f y.dev.host := rfl
@[simp] theorem Sys.onHost_fw (f : HostLink → HostLink) : (y.onHost f).dev.fw = y.dev.fw := rfl
@[simp] theorem Sys.onHost_power (f : HostLink → HostLink) : (y.onHost f).dev.power = y.dev.power := rfl
@[simp] theorem Sys.onHost_walker (f : HostLink → HostLink) : (y.onHost f).dev.walker = y.dev.walker := rfl
@[simp] theorem Sys.onHost_faults (f : HostLink → HostLink) : (y.onHost f).dev.faults = y.dev.faults := rfl
@[simp] theorem Sys.onHost_free (f : HostLink → HostLink) : (y.onHost f).dev.free = y.dev.free := rfl
@[simp] theorem Sys.onHost_base (f : HostLink → HostLink) : (y.onHost f).base = y.base := rfl
@[simp] theorem Sys.onHost_log (f : HostLink → HostLink) : (y.onHost f).log = y.log := rfl

/- onFw -/

@[simp] theorem Sys.onFw_boot (f : Fw → Fw) : (y.onFw f).dev.boot = y.dev.boot := rfl
@[simp] theorem Sys.onFw_map (f : Fw → Fw) : (y.onFw f).dev.map = y.dev.map := rfl
@[simp] theorem Sys.onFw_prot (f : Fw → Fw) : (y.onFw f).dev.prot = y.dev.prot := rfl
@[simp] theorem Sys.onFw_beat (f : Fw → Fw) : (y.onFw f).dev.beat = y.dev.beat := rfl
@[simp] theorem Sys.onFw_sched (f : Fw → Fw) : (y.onFw f).dev.sched = y.dev.sched := rfl
@[simp] theorem Sys.onFw_cores (f : Fw → Fw) : (y.onFw f).dev.cores = y.dev.cores := rfl
@[simp] theorem Sys.onFw_noc (f : Fw → Fw) : (y.onFw f).dev.noc = y.dev.noc := rfl
@[simp] theorem Sys.onFw_span (f : Fw → Fw) : (y.onFw f).dev.span = y.dev.span := rfl
@[simp] theorem Sys.onFw_host (f : Fw → Fw) : (y.onFw f).dev.host = y.dev.host := rfl
@[simp] theorem Sys.onFw_fw (f : Fw → Fw) : (y.onFw f).dev.fw = f y.dev.fw := rfl
@[simp] theorem Sys.onFw_power (f : Fw → Fw) : (y.onFw f).dev.power = y.dev.power := rfl
@[simp] theorem Sys.onFw_walker (f : Fw → Fw) : (y.onFw f).dev.walker = y.dev.walker := rfl
@[simp] theorem Sys.onFw_faults (f : Fw → Fw) : (y.onFw f).dev.faults = y.dev.faults := rfl
@[simp] theorem Sys.onFw_free (f : Fw → Fw) : (y.onFw f).dev.free = y.dev.free := rfl
@[simp] theorem Sys.onFw_base (f : Fw → Fw) : (y.onFw f).base = y.base := rfl
@[simp] theorem Sys.onFw_log (f : Fw → Fw) : (y.onFw f).log = y.log := rfl

/- onPower -/

@[simp] theorem Sys.onPower_boot (f : Power → Power) : (y.onPower f).dev.boot = y.dev.boot := rfl
@[simp] theorem Sys.onPower_map (f : Power → Power) : (y.onPower f).dev.map = y.dev.map := rfl
@[simp] theorem Sys.onPower_prot (f : Power → Power) : (y.onPower f).dev.prot = y.dev.prot := rfl
@[simp] theorem Sys.onPower_beat (f : Power → Power) : (y.onPower f).dev.beat = y.dev.beat := rfl
@[simp] theorem Sys.onPower_sched (f : Power → Power) : (y.onPower f).dev.sched = y.dev.sched := rfl
@[simp] theorem Sys.onPower_cores (f : Power → Power) : (y.onPower f).dev.cores = y.dev.cores := rfl
@[simp] theorem Sys.onPower_noc (f : Power → Power) : (y.onPower f).dev.noc = y.dev.noc := rfl
@[simp] theorem Sys.onPower_span (f : Power → Power) : (y.onPower f).dev.span = y.dev.span := rfl
@[simp] theorem Sys.onPower_host (f : Power → Power) : (y.onPower f).dev.host = y.dev.host := rfl
@[simp] theorem Sys.onPower_fw (f : Power → Power) : (y.onPower f).dev.fw = y.dev.fw := rfl
@[simp] theorem Sys.onPower_power (f : Power → Power) : (y.onPower f).dev.power = f y.dev.power := rfl
@[simp] theorem Sys.onPower_walker (f : Power → Power) : (y.onPower f).dev.walker = y.dev.walker := rfl
@[simp] theorem Sys.onPower_faults (f : Power → Power) : (y.onPower f).dev.faults = y.dev.faults := rfl
@[simp] theorem Sys.onPower_free (f : Power → Power) : (y.onPower f).dev.free = y.dev.free := rfl
@[simp] theorem Sys.onPower_base (f : Power → Power) : (y.onPower f).base = y.base := rfl
@[simp] theorem Sys.onPower_log (f : Power → Power) : (y.onPower f).log = y.log := rfl

/- onWalker -/

@[simp] theorem Sys.onWalker_boot (f : Walker → Walker) : (y.onWalker f).dev.boot = y.dev.boot := rfl
@[simp] theorem Sys.onWalker_map (f : Walker → Walker) : (y.onWalker f).dev.map = y.dev.map := rfl
@[simp] theorem Sys.onWalker_prot (f : Walker → Walker) : (y.onWalker f).dev.prot = y.dev.prot := rfl
@[simp] theorem Sys.onWalker_beat (f : Walker → Walker) : (y.onWalker f).dev.beat = y.dev.beat := rfl
@[simp] theorem Sys.onWalker_sched (f : Walker → Walker) : (y.onWalker f).dev.sched = y.dev.sched := rfl
@[simp] theorem Sys.onWalker_cores (f : Walker → Walker) : (y.onWalker f).dev.cores = y.dev.cores := rfl
@[simp] theorem Sys.onWalker_noc (f : Walker → Walker) : (y.onWalker f).dev.noc = y.dev.noc := rfl
@[simp] theorem Sys.onWalker_span (f : Walker → Walker) : (y.onWalker f).dev.span = y.dev.span := rfl
@[simp] theorem Sys.onWalker_host (f : Walker → Walker) : (y.onWalker f).dev.host = y.dev.host := rfl
@[simp] theorem Sys.onWalker_fw (f : Walker → Walker) : (y.onWalker f).dev.fw = y.dev.fw := rfl
@[simp] theorem Sys.onWalker_power (f : Walker → Walker) : (y.onWalker f).dev.power = y.dev.power := rfl
@[simp] theorem Sys.onWalker_walker (f : Walker → Walker) : (y.onWalker f).dev.walker = f y.dev.walker := rfl
@[simp] theorem Sys.onWalker_faults (f : Walker → Walker) : (y.onWalker f).dev.faults = y.dev.faults := rfl
@[simp] theorem Sys.onWalker_free (f : Walker → Walker) : (y.onWalker f).dev.free = y.dev.free := rfl
@[simp] theorem Sys.onWalker_base (f : Walker → Walker) : (y.onWalker f).base = y.base := rfl
@[simp] theorem Sys.onWalker_log (f : Walker → Walker) : (y.onWalker f).log = y.log := rfl

/- onFaults -/

@[simp] theorem Sys.onFaults_boot (f : Faults → Faults) : (y.onFaults f).dev.boot = y.dev.boot := rfl
@[simp] theorem Sys.onFaults_map (f : Faults → Faults) : (y.onFaults f).dev.map = y.dev.map := rfl
@[simp] theorem Sys.onFaults_prot (f : Faults → Faults) : (y.onFaults f).dev.prot = y.dev.prot := rfl
@[simp] theorem Sys.onFaults_beat (f : Faults → Faults) : (y.onFaults f).dev.beat = y.dev.beat := rfl
@[simp] theorem Sys.onFaults_sched (f : Faults → Faults) : (y.onFaults f).dev.sched = y.dev.sched := rfl
@[simp] theorem Sys.onFaults_cores (f : Faults → Faults) : (y.onFaults f).dev.cores = y.dev.cores := rfl
@[simp] theorem Sys.onFaults_noc (f : Faults → Faults) : (y.onFaults f).dev.noc = y.dev.noc := rfl
@[simp] theorem Sys.onFaults_span (f : Faults → Faults) : (y.onFaults f).dev.span = y.dev.span := rfl
@[simp] theorem Sys.onFaults_host (f : Faults → Faults) : (y.onFaults f).dev.host = y.dev.host := rfl
@[simp] theorem Sys.onFaults_fw (f : Faults → Faults) : (y.onFaults f).dev.fw = y.dev.fw := rfl
@[simp] theorem Sys.onFaults_power (f : Faults → Faults) : (y.onFaults f).dev.power = y.dev.power := rfl
@[simp] theorem Sys.onFaults_walker (f : Faults → Faults) : (y.onFaults f).dev.walker = y.dev.walker := rfl
@[simp] theorem Sys.onFaults_faults (f : Faults → Faults) : (y.onFaults f).dev.faults = f y.dev.faults := rfl
@[simp] theorem Sys.onFaults_free (f : Faults → Faults) : (y.onFaults f).dev.free = y.dev.free := rfl
@[simp] theorem Sys.onFaults_base (f : Faults → Faults) : (y.onFaults f).base = y.base := rfl
@[simp] theorem Sys.onFaults_log (f : Faults → Faults) : (y.onFaults f).log = y.log := rfl

/- onCore -/

@[simp] theorem Sys.onCore_boot (f : Core → Core) : (y.onCore s f).dev.boot = y.dev.boot := rfl
@[simp] theorem Sys.onCore_map (f : Core → Core) : (y.onCore s f).dev.map = y.dev.map := rfl
@[simp] theorem Sys.onCore_prot (f : Core → Core) : (y.onCore s f).dev.prot = y.dev.prot := rfl
@[simp] theorem Sys.onCore_beat (f : Core → Core) : (y.onCore s f).dev.beat = y.dev.beat := rfl
@[simp] theorem Sys.onCore_sched (f : Core → Core) : (y.onCore s f).dev.sched = y.dev.sched := rfl
@[simp] theorem Sys.onCore_cores (f : Core → Core) : (y.onCore s f).dev.cores = upd y.dev.cores s f := rfl
@[simp] theorem Sys.onCore_noc (f : Core → Core) : (y.onCore s f).dev.noc = y.dev.noc := rfl
@[simp] theorem Sys.onCore_span (f : Core → Core) : (y.onCore s f).dev.span = y.dev.span := rfl
@[simp] theorem Sys.onCore_host (f : Core → Core) : (y.onCore s f).dev.host = y.dev.host := rfl
@[simp] theorem Sys.onCore_fw (f : Core → Core) : (y.onCore s f).dev.fw = y.dev.fw := rfl
@[simp] theorem Sys.onCore_power (f : Core → Core) : (y.onCore s f).dev.power = y.dev.power := rfl
@[simp] theorem Sys.onCore_walker (f : Core → Core) : (y.onCore s f).dev.walker = y.dev.walker := rfl
@[simp] theorem Sys.onCore_faults (f : Core → Core) : (y.onCore s f).dev.faults = y.dev.faults := rfl
@[simp] theorem Sys.onCore_free (f : Core → Core) : (y.onCore s f).dev.free = y.dev.free := rfl
@[simp] theorem Sys.onCore_base (f : Core → Core) : (y.onCore s f).base = y.base := rfl
@[simp] theorem Sys.onCore_log (f : Core → Core) : (y.onCore s f).log = y.log := rfl

/- Updates of one element of a part: the part they act on. -/

@[simp] theorem Sys.onPort_ports (f : PortS → PortS) : (y.onPort s f).dev.span.ports = upd y.dev.span.ports s f := rfl
@[simp] theorem Sys.onPort_boot (f : PortS → PortS) : (y.onPort s f).dev.boot = y.dev.boot := rfl
@[simp] theorem Sys.onPort_map (f : PortS → PortS) : (y.onPort s f).dev.map = y.dev.map := rfl
@[simp] theorem Sys.onPort_prot (f : PortS → PortS) : (y.onPort s f).dev.prot = y.dev.prot := rfl
@[simp] theorem Sys.onPort_beat (f : PortS → PortS) : (y.onPort s f).dev.beat = y.dev.beat := rfl
@[simp] theorem Sys.onPort_sched (f : PortS → PortS) : (y.onPort s f).dev.sched = y.dev.sched := rfl
@[simp] theorem Sys.onPort_cores (f : PortS → PortS) : (y.onPort s f).dev.cores = y.dev.cores := rfl
@[simp] theorem Sys.onPort_noc (f : PortS → PortS) : (y.onPort s f).dev.noc = y.dev.noc := rfl
@[simp] theorem Sys.onPort_host (f : PortS → PortS) : (y.onPort s f).dev.host = y.dev.host := rfl
@[simp] theorem Sys.onPort_fw (f : PortS → PortS) : (y.onPort s f).dev.fw = y.dev.fw := rfl
@[simp] theorem Sys.onPort_power (f : PortS → PortS) : (y.onPort s f).dev.power = y.dev.power := rfl
@[simp] theorem Sys.onPort_walker (f : PortS → PortS) : (y.onPort s f).dev.walker = y.dev.walker := rfl
@[simp] theorem Sys.onPort_faults (f : PortS → PortS) : (y.onPort s f).dev.faults = y.dev.faults := rfl
@[simp] theorem Sys.onPort_free (f : PortS → PortS) : (y.onPort s f).dev.free = y.dev.free := rfl
@[simp] theorem Sys.onPort_base (f : PortS → PortS) : (y.onPort s f).base = y.base := rfl
@[simp] theorem Sys.onPort_log (f : PortS → PortS) : (y.onPort s f).log = y.log := rfl
@[simp] theorem Sys.onHalf_halves (f : HalfS → HalfS) : (y.onHalf s f).dev.host.halves = upd y.dev.host.halves s f := rfl
@[simp] theorem Sys.onHalf_boot (f : HalfS → HalfS) : (y.onHalf s f).dev.boot = y.dev.boot := rfl
@[simp] theorem Sys.onHalf_map (f : HalfS → HalfS) : (y.onHalf s f).dev.map = y.dev.map := rfl
@[simp] theorem Sys.onHalf_prot (f : HalfS → HalfS) : (y.onHalf s f).dev.prot = y.dev.prot := rfl
@[simp] theorem Sys.onHalf_beat (f : HalfS → HalfS) : (y.onHalf s f).dev.beat = y.dev.beat := rfl
@[simp] theorem Sys.onHalf_sched (f : HalfS → HalfS) : (y.onHalf s f).dev.sched = y.dev.sched := rfl
@[simp] theorem Sys.onHalf_cores (f : HalfS → HalfS) : (y.onHalf s f).dev.cores = y.dev.cores := rfl
@[simp] theorem Sys.onHalf_noc (f : HalfS → HalfS) : (y.onHalf s f).dev.noc = y.dev.noc := rfl
@[simp] theorem Sys.onHalf_span (f : HalfS → HalfS) : (y.onHalf s f).dev.span = y.dev.span := rfl
@[simp] theorem Sys.onHalf_fw (f : HalfS → HalfS) : (y.onHalf s f).dev.fw = y.dev.fw := rfl
@[simp] theorem Sys.onHalf_power (f : HalfS → HalfS) : (y.onHalf s f).dev.power = y.dev.power := rfl
@[simp] theorem Sys.onHalf_walker (f : HalfS → HalfS) : (y.onHalf s f).dev.walker = y.dev.walker := rfl
@[simp] theorem Sys.onHalf_faults (f : HalfS → HalfS) : (y.onHalf s f).dev.faults = y.dev.faults := rfl
@[simp] theorem Sys.onHalf_free (f : HalfS → HalfS) : (y.onHalf s f).dev.free = y.dev.free := rfl
@[simp] theorem Sys.onHalf_base (f : HalfS → HalfS) : (y.onHalf s f).base = y.base := rfl
@[simp] theorem Sys.onHalf_log (f : HalfS → HalfS) : (y.onHalf s f).log = y.log := rfl
@[simp] theorem Sys.onSiteProt_sites (f : SiteProt → SiteProt) : (y.onSiteProt s f).dev.prot.sites = upd y.dev.prot.sites s f := rfl
@[simp] theorem Sys.onSiteProt_boot (f : SiteProt → SiteProt) : (y.onSiteProt s f).dev.boot = y.dev.boot := rfl
@[simp] theorem Sys.onSiteProt_map (f : SiteProt → SiteProt) : (y.onSiteProt s f).dev.map = y.dev.map := rfl
@[simp] theorem Sys.onSiteProt_beat (f : SiteProt → SiteProt) : (y.onSiteProt s f).dev.beat = y.dev.beat := rfl
@[simp] theorem Sys.onSiteProt_sched (f : SiteProt → SiteProt) : (y.onSiteProt s f).dev.sched = y.dev.sched := rfl
@[simp] theorem Sys.onSiteProt_cores (f : SiteProt → SiteProt) : (y.onSiteProt s f).dev.cores = y.dev.cores := rfl
@[simp] theorem Sys.onSiteProt_noc (f : SiteProt → SiteProt) : (y.onSiteProt s f).dev.noc = y.dev.noc := rfl
@[simp] theorem Sys.onSiteProt_span (f : SiteProt → SiteProt) : (y.onSiteProt s f).dev.span = y.dev.span := rfl
@[simp] theorem Sys.onSiteProt_host (f : SiteProt → SiteProt) : (y.onSiteProt s f).dev.host = y.dev.host := rfl
@[simp] theorem Sys.onSiteProt_fw (f : SiteProt → SiteProt) : (y.onSiteProt s f).dev.fw = y.dev.fw := rfl
@[simp] theorem Sys.onSiteProt_power (f : SiteProt → SiteProt) : (y.onSiteProt s f).dev.power = y.dev.power := rfl
@[simp] theorem Sys.onSiteProt_walker (f : SiteProt → SiteProt) : (y.onSiteProt s f).dev.walker = y.dev.walker := rfl
@[simp] theorem Sys.onSiteProt_faults (f : SiteProt → SiteProt) : (y.onSiteProt s f).dev.faults = y.dev.faults := rfl
@[simp] theorem Sys.onSiteProt_free (f : SiteProt → SiteProt) : (y.onSiteProt s f).dev.free = y.dev.free := rfl
@[simp] theorem Sys.onSiteProt_base (f : SiteProt → SiteProt) : (y.onSiteProt s f).base = y.base := rfl
@[simp] theorem Sys.onSiteProt_log (f : SiteProt → SiteProt) : (y.onSiteProt s f).log = y.log := rfl
@[simp] theorem Sys.onLayer_layers (f : LayerState → LayerState) : (y.onLayer s f).dev.prot.layers = upd y.dev.prot.layers s f := rfl
@[simp] theorem Sys.onLayer_boot (f : LayerState → LayerState) : (y.onLayer s f).dev.boot = y.dev.boot := rfl
@[simp] theorem Sys.onLayer_map (f : LayerState → LayerState) : (y.onLayer s f).dev.map = y.dev.map := rfl
@[simp] theorem Sys.onLayer_beat (f : LayerState → LayerState) : (y.onLayer s f).dev.beat = y.dev.beat := rfl
@[simp] theorem Sys.onLayer_sched (f : LayerState → LayerState) : (y.onLayer s f).dev.sched = y.dev.sched := rfl
@[simp] theorem Sys.onLayer_cores (f : LayerState → LayerState) : (y.onLayer s f).dev.cores = y.dev.cores := rfl
@[simp] theorem Sys.onLayer_noc (f : LayerState → LayerState) : (y.onLayer s f).dev.noc = y.dev.noc := rfl
@[simp] theorem Sys.onLayer_span (f : LayerState → LayerState) : (y.onLayer s f).dev.span = y.dev.span := rfl
@[simp] theorem Sys.onLayer_host (f : LayerState → LayerState) : (y.onLayer s f).dev.host = y.dev.host := rfl
@[simp] theorem Sys.onLayer_fw (f : LayerState → LayerState) : (y.onLayer s f).dev.fw = y.dev.fw := rfl
@[simp] theorem Sys.onLayer_power (f : LayerState → LayerState) : (y.onLayer s f).dev.power = y.dev.power := rfl
@[simp] theorem Sys.onLayer_walker (f : LayerState → LayerState) : (y.onLayer s f).dev.walker = y.dev.walker := rfl
@[simp] theorem Sys.onLayer_faults (f : LayerState → LayerState) : (y.onLayer s f).dev.faults = y.dev.faults := rfl
@[simp] theorem Sys.onLayer_free (f : LayerState → LayerState) : (y.onLayer s f).dev.free = y.dev.free := rfl
@[simp] theorem Sys.onLayer_base (f : LayerState → LayerState) : (y.onLayer s f).base = y.base := rfl
@[simp] theorem Sys.onLayer_log (f : LayerState → LayerState) : (y.onLayer s f).log = y.log := rfl
@[simp] theorem Sys.onSiteNoc_sites (f : SiteNoc → SiteNoc) : (y.onSiteNoc s f).dev.noc.sites = upd y.dev.noc.sites s f := rfl
@[simp] theorem Sys.onSiteNoc_boot (f : SiteNoc → SiteNoc) : (y.onSiteNoc s f).dev.boot = y.dev.boot := rfl
@[simp] theorem Sys.onSiteNoc_map (f : SiteNoc → SiteNoc) : (y.onSiteNoc s f).dev.map = y.dev.map := rfl
@[simp] theorem Sys.onSiteNoc_prot (f : SiteNoc → SiteNoc) : (y.onSiteNoc s f).dev.prot = y.dev.prot := rfl
@[simp] theorem Sys.onSiteNoc_beat (f : SiteNoc → SiteNoc) : (y.onSiteNoc s f).dev.beat = y.dev.beat := rfl
@[simp] theorem Sys.onSiteNoc_sched (f : SiteNoc → SiteNoc) : (y.onSiteNoc s f).dev.sched = y.dev.sched := rfl
@[simp] theorem Sys.onSiteNoc_cores (f : SiteNoc → SiteNoc) : (y.onSiteNoc s f).dev.cores = y.dev.cores := rfl
@[simp] theorem Sys.onSiteNoc_span (f : SiteNoc → SiteNoc) : (y.onSiteNoc s f).dev.span = y.dev.span := rfl
@[simp] theorem Sys.onSiteNoc_host (f : SiteNoc → SiteNoc) : (y.onSiteNoc s f).dev.host = y.dev.host := rfl
@[simp] theorem Sys.onSiteNoc_fw (f : SiteNoc → SiteNoc) : (y.onSiteNoc s f).dev.fw = y.dev.fw := rfl
@[simp] theorem Sys.onSiteNoc_power (f : SiteNoc → SiteNoc) : (y.onSiteNoc s f).dev.power = y.dev.power := rfl
@[simp] theorem Sys.onSiteNoc_walker (f : SiteNoc → SiteNoc) : (y.onSiteNoc s f).dev.walker = y.dev.walker := rfl
@[simp] theorem Sys.onSiteNoc_faults (f : SiteNoc → SiteNoc) : (y.onSiteNoc s f).dev.faults = y.dev.faults := rfl
@[simp] theorem Sys.onSiteNoc_free (f : SiteNoc → SiteNoc) : (y.onSiteNoc s f).dev.free = y.dev.free := rfl
@[simp] theorem Sys.onSiteNoc_base (f : SiteNoc → SiteNoc) : (y.onSiteNoc s f).base = y.base := rfl
@[simp] theorem Sys.onSiteNoc_log (f : SiteNoc → SiteNoc) : (y.onSiteNoc s f).log = y.log := rfl
@[simp] theorem Sys.onSitePow_sites (f : SitePower → SitePower) : (y.onSitePow s f).dev.power.sites = upd y.dev.power.sites s f := rfl
@[simp] theorem Sys.onSitePow_boot (f : SitePower → SitePower) : (y.onSitePow s f).dev.boot = y.dev.boot := rfl
@[simp] theorem Sys.onSitePow_map (f : SitePower → SitePower) : (y.onSitePow s f).dev.map = y.dev.map := rfl
@[simp] theorem Sys.onSitePow_prot (f : SitePower → SitePower) : (y.onSitePow s f).dev.prot = y.dev.prot := rfl
@[simp] theorem Sys.onSitePow_beat (f : SitePower → SitePower) : (y.onSitePow s f).dev.beat = y.dev.beat := rfl
@[simp] theorem Sys.onSitePow_sched (f : SitePower → SitePower) : (y.onSitePow s f).dev.sched = y.dev.sched := rfl
@[simp] theorem Sys.onSitePow_cores (f : SitePower → SitePower) : (y.onSitePow s f).dev.cores = y.dev.cores := rfl
@[simp] theorem Sys.onSitePow_noc (f : SitePower → SitePower) : (y.onSitePow s f).dev.noc = y.dev.noc := rfl
@[simp] theorem Sys.onSitePow_span (f : SitePower → SitePower) : (y.onSitePow s f).dev.span = y.dev.span := rfl
@[simp] theorem Sys.onSitePow_host (f : SitePower → SitePower) : (y.onSitePow s f).dev.host = y.dev.host := rfl
@[simp] theorem Sys.onSitePow_fw (f : SitePower → SitePower) : (y.onSitePow s f).dev.fw = y.dev.fw := rfl
@[simp] theorem Sys.onSitePow_walker (f : SitePower → SitePower) : (y.onSitePow s f).dev.walker = y.dev.walker := rfl
@[simp] theorem Sys.onSitePow_faults (f : SitePower → SitePower) : (y.onSitePow s f).dev.faults = y.dev.faults := rfl
@[simp] theorem Sys.onSitePow_free (f : SitePower → SitePower) : (y.onSitePow s f).dev.free = y.dev.free := rfl
@[simp] theorem Sys.onSitePow_base (f : SitePower → SitePower) : (y.onSitePow s f).base = y.base := rfl
@[simp] theorem Sys.onSitePow_log (f : SitePower → SitePower) : (y.onSitePow s f).log = y.log := rfl
@[simp] theorem Sys.onSiteFault_sites (f : SiteFault → SiteFault) : (y.onSiteFault s f).dev.faults.sites = upd y.dev.faults.sites s f := rfl
@[simp] theorem Sys.onSiteFault_boot (f : SiteFault → SiteFault) : (y.onSiteFault s f).dev.boot = y.dev.boot := rfl
@[simp] theorem Sys.onSiteFault_map (f : SiteFault → SiteFault) : (y.onSiteFault s f).dev.map = y.dev.map := rfl
@[simp] theorem Sys.onSiteFault_prot (f : SiteFault → SiteFault) : (y.onSiteFault s f).dev.prot = y.dev.prot := rfl
@[simp] theorem Sys.onSiteFault_beat (f : SiteFault → SiteFault) : (y.onSiteFault s f).dev.beat = y.dev.beat := rfl
@[simp] theorem Sys.onSiteFault_sched (f : SiteFault → SiteFault) : (y.onSiteFault s f).dev.sched = y.dev.sched := rfl
@[simp] theorem Sys.onSiteFault_cores (f : SiteFault → SiteFault) : (y.onSiteFault s f).dev.cores = y.dev.cores := rfl
@[simp] theorem Sys.onSiteFault_noc (f : SiteFault → SiteFault) : (y.onSiteFault s f).dev.noc = y.dev.noc := rfl
@[simp] theorem Sys.onSiteFault_span (f : SiteFault → SiteFault) : (y.onSiteFault s f).dev.span = y.dev.span := rfl
@[simp] theorem Sys.onSiteFault_host (f : SiteFault → SiteFault) : (y.onSiteFault s f).dev.host = y.dev.host := rfl
@[simp] theorem Sys.onSiteFault_fw (f : SiteFault → SiteFault) : (y.onSiteFault s f).dev.fw = y.dev.fw := rfl
@[simp] theorem Sys.onSiteFault_power (f : SiteFault → SiteFault) : (y.onSiteFault s f).dev.power = y.dev.power := rfl
@[simp] theorem Sys.onSiteFault_walker (f : SiteFault → SiteFault) : (y.onSiteFault s f).dev.walker = y.dev.walker := rfl
@[simp] theorem Sys.onSiteFault_free (f : SiteFault → SiteFault) : (y.onSiteFault s f).dev.free = y.dev.free := rfl
@[simp] theorem Sys.onSiteFault_base (f : SiteFault → SiteFault) : (y.onSiteFault s f).base = y.base := rfl
@[simp] theorem Sys.onSiteFault_log (f : SiteFault → SiteFault) : (y.onSiteFault s f).log = y.log := rfl

/- The state. -/

@[simp] theorem work_dev (t : State) : t.work.dev = t.dev := rfl
@[simp] theorem work_base (t : State) : t.work.base = t.mem := rfl
@[simp] theorem work_log (t : State) : t.work.log = [] := rfl

@[simp] theorem upd_length {α : Type} (l : List α) (i : Nat) (f : α → α) : (upd l i f).length = l.length := by
  simp [upd]

end Sys2Proof.Machine
end

