-- ==== Sys2Proof/WellFormed.lean ====
section
/-! DEFINITION. Which commands have operands that the spec's fields can hold. A command whose operands do not fit comes from no
sender of the spec; its meaning is still defined. -/

namespace Sys2Proof

/-- A field of w bits can hold a number. -/
def fits (w n : Nat) : Bool := decide (n < 2 ^ w)

/-- A core cycle of a beat (R43). -/
def cycleOk (c : Nat) : Bool := decide (c < 64)

/-- A line-aligned device address of 40 bits (R357). -/
def lineAddr (a : Nat) : Bool := a % 128 == 0 && fits 40 a

/-- A tag of a host message (R357). -/
def tagOk (t : Nat) : Bool := fits 11 t

/-- A beat marker fits its record (R49) and the header fields that R343 checks. -/
def Marker.wellFormed (m : Marker) : Bool :=
  fits 11 m.srcId && fits 8 m.srcInc && fits 8 m.term && fits 8 m.hop && fits 11 m.masterId && fits 16 m.setGen && fits 56 m.wbc
    && fits 56 m.holdAcc

/-- A hold record fits its fields (R59). -/
def HoldRec.wellFormed (r : HoldRec) : Bool :=
  fits 8 r.cause && fits 16 r.reqSeq && fits 11 r.reqId && fits 8 r.reqInc && fits 8 r.term && fits 56 r.holdWbc && fits 16 r.holdLen
    && fits 32 r.ledgerIndex && fits 56 r.issueWbc

/-- An ADMIT record fits its fields (R344). -/
def AdmitRec.wellFormed (r : AdmitRec) : Bool :=
  fits 8 r.kind && fits 11 r.target && fits 8 r.newInc && fits 8 r.term && fits 16 r.admSeq && fits 56 r.effectWbc && fits 56 r.issueWbc

/-- A LINK_HELLO fits its fields (R330). -/
def Hello.wellFormed (h : Hello) : Bool :=
  fits 4 h.port && fits 11 h.id && fits 8 h.inc && fits 16 h.oneWay && fits 32 h.txTime && fits 32 h.echoTime && fits 32 h.turnaround

/-- A firmware report fits its fields (R434). -/
def FwReport.wellFormed (r : FwReport) : Bool :=
  fits 8 r.kind && fits 11 r.id && fits 8 r.inc && fits 8 r.round && fits 7 r.session && fits 8 r.page && fits 16 r.missingTotal

/-- A span flit fits its header and carries 256 bytes (R327). -/
def Flit.wellFormed (f : Flit) : Bool :=
  fits 11 f.srcId && fits 8 f.srcInc && fits 8 f.cls && fits 11 f.dst && fits 8 f.flow && fits 32 f.seq && f.payload.length == 256

/-- A mesh packet fits its header and carries whole units of 64 bytes (R303). -/
def Packet.wellFormed (p : Packet) : Bool :=
  fits 8 p.kind && fits 2 p.cls && fits 5 p.dest && fits 2 p.destEp && fits 5 p.src && fits 2 p.srcEp && fits 8 p.srcInc && fits 8 p.status
    && fits 16 p.tag && fits 40 p.addr && decide (p.len ≤ 4096) && fits 32 p.aux && decide (p.payload.length ≤ 4096) && p.payload.length % 64 == 0

/-- A host flit carries five credits and 14 units of 16 bytes (R353). -/
def HostFlit.wellFormed (f : HostFlit) : Bool :=
  fits 12 f.seq && fits 4 f.kind && fits 12 f.ackSeq && f.credit.length == 5 && f.credit.all (fits 8) && f.units.length == 224 && decide (f.reserved.length ≤ 20)

/-- Every sensor and every site has its measured value (R447, R462, R463). -/
def WindowMeasure.wellFormed (m : WindowMeasure) : Bool :=
  m.readings.length == 330 && m.vcoreUw.length == 18 && m.monitorFail.length == 18 && m.monitorEasy.length == 18 && m.spoiled.all (fits 32)

/-- A request at a DRAM bank lies in one site's DRAM and has a mask bit for each of its bytes (R233, R244). -/
def BankReq.wellFormed (r : BankReq) : Bool :=
  decide (r.site < 18) && decide (r.addr < 0x300000000) && r.data.length == r.mask.length

/-- The operands fit the fields of their messages. -/
def Instr.wellFormed : Instr → Bool
  | .windowBoundary m => m.wellFormed
  | .beatMarker _ m => m.wellFormed
  | .holdRequest _ r => r.wellFormed
  | .holdConfirmation _ r => r.wellFormed
  | .holdRelease _ r => r.wellFormed
  | .matmul _ c | .attend _ c | .lane _ c | .dmaMove _ c | .dmaGather _ c | .dmaScatter _ c | .spanSend _ c | .spanRecv _ c
  | .reduce _ c | .rowop _ c | .sketch _ c | .wait _ c | .hint _ c | .append _ c => cycleOk c
  | .stepEnd _ i c | .stepComplete _ i c => fits 24 i && cycleOk c
  | .bufferLineWrite _ _ a d m => a.val % 256 == 0 && cycleOk a.cyc && d.length == 256 && m.length == 256
  | .bankRequestArrive r _ c => r.wellFormed && cycleOk c
  | .meshRead _ p | .meshWrite _ p | .meshReadData _ p | .meshWriteAck _ p | .meshSpanIn _ p | .meshSpanOut _ p
  | .meshError _ p => p.wellFormed
  | .dataFlit _ f | .mgmtFlit _ f | .holdIdleFlit _ f | .fwPiece _ f | .endMarker _ f => f.wellFormed
  | .linkHello _ h => h.wellFormed
  | .admitRecord _ r => r.wellFormed
  | .firmwareReport _ r => r.wellFormed
  | .hostFlit _ f => f.wellFormed
  | .rdShared _ t a | .rdOwn _ t a | .evictClean _ t a => tagOk t && lineAddr a
  | .rdUc _ t a n => tagOk t && fits 40 a && n % 4 == 0 && decide (4 ≤ n) && decide (n ≤ 128)
  | .wrUc _ t a d m => tagOk t && lineAddr a && d.length == 128 && m.length == 128
  | .wbDirty _ t a d => tagOk t && lineAddr a && d.length == 128
  | .snpRsp _ t a st d => tagOk t && lineAddr a && decide (st < 4) && d.all fun b => b.length == 128
  | .hdata t d => tagOk t && decide (d.length ≤ 128)
  | .hack t => tagOk t
  | .herr t st => tagOk t && fits 8 st
  | .registerWrite a _ => a % 4 == 0 && decide (0x7F00000000 ≤ a) && fits 40 a
  | .holdPointClose w | .holdPointStart w | .confirmMissing w => fits 56 w
  | .flowLastBeatExpiry _ index cyc => fits 24 index && cycleOk cyc
  | .feederLineRequest _ _ queue => decide (queue.val < 64) && cycleOk queue.cyc
  | .bufferBankReadGrant _ bank _ => decide (bank.val < 64) && cycleOk bank.cyc
  | .replayReissue _ spoiled => spoiled.val.all (fits 32) && cycleOk spoiled.cyc
  | .checkerComplete answers => answers.all fun a => decide (a.outcome < 3)
  | .tileDrain _ _ cyc | .patrolRowPresent _ _ _ _ cyc | .attendPageWindow _ _ cyc
  | .drainRowEnterStream _ cyc | .arrayCheckCompare _ cyc | .replayEnd _ cyc | .laneHalt _ _ cyc
  | .laneLoop _ _ cyc | .laneSeta _ _ cyc | .laneAdda _ _ cyc | .laneLd _ _ cyc | .laneSt _ _ cyc | .laneIn _ _ cyc
  | .laneSplat _ _ cyc | .laneAdd _ _ cyc | .laneSub _ _ cyc | .laneMul _ _ cyc | .laneFma _ _ cyc | .laneMax _ _ cyc
  | .laneMin _ _ cyc | .laneAbs _ _ cyc | .laneNeg _ _ cyc | .laneScale _ _ cyc | .laneCmpgt _ _ cyc | .laneSel _ _ cyc
  | .laneExp2 _ _ cyc | .laneLog2 _ _ cyc | .laneRcp _ _ cyc | .laneRsq _ _ cyc | .laneRsum _ _ cyc | .laneRmax _ _ cyc
  | .rowAnd _ _ _ cyc | .rowOr _ _ _ cyc | .rowXor _ _ _ cyc | .rowXnor _ _ _ cyc | .rowNot _ _ _ cyc | .rowMaj3 _ _ _ cyc
  | .rowCopy _ _ _ cyc | .rowZero _ _ _ cyc | .rowOnes _ _ _ cyc | .rowNand _ _ _ cyc | .rowNor _ _ _ cyc | .rowAndn _ _ _ cyc
  | .rowOrn _ _ _ cyc | .rowAnd3 _ _ _ cyc | .rowOr3 _ _ _ cyc | .rowXor3 _ _ _ cyc | .rowMux _ _ _ cyc | .rowFullAdd _ _ _ cyc
  | .rowOpThrottleRelease _ cyc | .bankBusTransferDone _ _ cyc | .bankRequestAfterRowOp _ _ _ cyc | .bankRefresh _ _ cyc
  | .bubbleLoopPeriod _ cyc | .droopTrip _ cyc => cycleOk cyc
  | .granuleEncodeDone _ granule => decide (granule < 192)
  | .meshRequestTimeout tag => fits 16 tag
  | .vcLineRetransfer _ line tile _ _ => fits 24 line && decide (tile < 12)
  | .heavyPhaseStart _ index | .heavyPhaseEnd _ index => fits 24 index
  | .shuttleCtrlTimeout node => fits 5 node
  | .spanFlitRead _ flow => fits 8 flow
  | .laneState _ mask switchWbc => fits 4 mask && fits 56 switchWbc
  | .trainingLock _ lanes => fits 4 lanes
  | .qualificationEnd _ passed => fits 4 passed
  | .columnSegmentPiece _ _ session data _ => fits 8 session && decide (data.length ≤ 24)
  | .thermalTrip sensor => decide (sensor < 72)
  | .pwrEnRise _ | .resetNFall _ | .vin54Lockout _ | .stageStatusCondition _ _ | .pmbusTelemetryUpdate _ _ _ _ _ _ _
  | .pmbusInvalidCommand _ | .beatLoadCtrlWrite _ | .beatCountLoRead _ | .mirror _ | .partitionStart _ | .imageRunRepeat _
  | .imageFinish _ | .stepDescriptorFetch _ | .stepStatusRecord _ | .faultRecord _
  | .bufferWriteBack _ | .patrolRowDue _ _ _ | .idleScrubRead _ _ _ | .bufferLapAlarm _ | .preparationBegin _
  | .preparationDone _ | .pageDescriptor _ _ | .migrationBlockCopy _ | .fenceOrder _ _ | .spanPortRetrain _ _
  | .spanPortUseClear _ _ | .trainingTimeout _ | .laneFailure _ _ | .laneSwitch _ | .codewordLockLoss _ | .holdIdleTimeout _
  | .spanSelfWrite _ | .halfTrained _ | .hostFlitResend _ | .halfNoProgress _ | .halfState _ | .homeTransactionResume _
  | .snoopTimeout _ | .commandDone _ | .commandUnknown _ | .hlEvtConsumerWrite _ | .hlStsConsumerWrite _ _ | .bootInfo _
  | .bootResourceMap _ | .bootDefects _ | .bootCores _ | .bootResetColumn _ | .bootResetCluster _ | .bootResetPartition _
  | .bootResetFabric _ | .bootResetDevice _ | .cfgWrite _ | .cfgRead _ | .cfgSwap _ | .cfgSwapImmediate _ | .cfgSwapCancel _
  | .schedLoad _ | .schedUnload _ | .schedStart _ | .schedStop _ | .schedDrain _ | .memCopy _ | .memFill _ | .memMigrate _
  | .kvWrite _ | .kvBind _ | .kvRelease _ | .kvFree _ | .kvStatus _ | .pwrGrant _ | .pwrEnv _ | .pwrHint _ | .pwrCoolantStay _
  | .pwrCoolantResume _ | .pwrCoolantStop _ | .faultRing _ | .faultFence _ | .faultAdmit _ | .fwSend _ | .fwStatus _
  | .fwIdentity _ | .fwAttest _ _ | .spanPlace _ | .spanRole _ | .spanBeatLoad _ | .spanAdmit _ | .spanDismiss _ | .spanHold _
  | .spanRelease _ | .spanLedger _ | .spanRoutes _ | .selftestComplete _ _ | .dramInitComplete _ | .memoryFillComplete _ _
  | .coreWaveTestDone _ _ | .columnSegmentDeliveryEnd _ | .columnResetEnd _ | .clusterResetEnd _
  | .disableComplete _ | .memMapCtrlWrite _ | .dpInjCtrlWrite _ | .seqCountsWrite _ _ | .arrayCountCtrlClear _ _
  | .rlCountCtrlClear _ | .nocCountCtrlClear _ | .spanCountCtrlClear _ | .pwrCountCtrlClear _ | .seCountCtrlClear _
  | .halfLaneFailure _ _ | .railsInRegulation | .pwrEnFall | .resetNRise | .baseOnReached | .vin54Start | .spanRefclkLoss
  | .clearFaults | .capability | .voutMode | .statusByte | .statusWord | .statusVout | .statusIout | .statusInput
  | .statusTemperature | .statusCml | .readVin | .readIin | .readVout | .readIout | .readTemperature1 | .readPout | .readPin
  | .pmbusRevision | .mfrId | .mfrModel | .mfrSerial | .beatBoundary | .epochBoundary | .memberAligned | .markersMissing
  | .holdoverExpiry | .phaseErrorExcess | .beatLoadEffect | .standbyMarkersMissing | .standbyTakeover | .configurationSwap
  | .kvDeferredCommand | .migrationSwitch | .migrationOldSiteIdle | .backInvalidationDone | .admitIncarnationWrite | .fenceLift
  | .admitEffect | .mailboxTake | .eventRingFlush | .selftest | .dramInit | .fill | .checker | .fwLoad | .fwLoadComplete
  | .fwReceive | .fwReportWindowClose | .fwEndMarkerTimeout | .fwReceiveTimeout | .fwObjectCheckDone | .lowerTreeComputed
  | .coreWaveRamp | .partitionResetEnd | .fabricResetEnd | .bootRomRestart | .grantTimeout | .envStaleTimeout
  | .baseDieResetRelease | .pwrEnDeferredStart | .vin54OvervoltageRestart => true

end Sys2Proof
end

