-- ==== Sys2Proof/Tests/Slice0.lean ====
section
/-! SUPPORT. Tests: for each statement that has hypotheses a state that meets them (witness_…), for each check of
well-formedness a command it refuses (test_wf_…), and the worked examples of the spec (test_…), each citing its rule. -/

namespace Sys2Proof.Tests

open Sys2Proof.Machine

/- Small states. -/

/-- A state with a stack and memory of our choice, its rails up. -/
def st (d : Dev) (m : Store := []) : State := { mod := {}, dev := d, mem := m, pending := [] }

/-- An image of partition 0 at 0x1000 with one column and a list of n steps in its section 1. -/
def img (n : Nat) : Image :=
  { addr := 0x1000, part := 0, shadow := false, size := 4096, rep := false, device := 0, columns := [0], ports := [], ports3 := []
    startSbc := 0, length := 1000, holdProp := 0, fillB := [], drainB := [], digest := []
    sections := [⟨1, 0, 0x400, 64 * n⟩], latencyBad := false }

/-- A stack whose partition 0 runs that image on column 0 at site 0, aligned, in beat 100. -/
def running : Dev :=
  { map := { n := 1, cols := [{ site := 0, incarnation := 1, valid := true }] }
    sched := { haveActive := true, images := [img 4], runs := [{ image := some 0x1000, start := 100 }, {}, {}, {}] }
    boot := { power := .running, parts := [.running, .idle, .idle, .idle], powered := [0] }
    prot := { sites := List.replicate 18 {}, layers := List.replicate 12 {} }
    noc := { sites := List.replicate 18 {} }
    beat := { wbc := 100, aligned := true } }

/-- A step descriptor: its first bytes, START_OFFSET zero, then bytes from offset 0x10 on. -/
def desc (op : Nat) (rest : List Byte) : List Byte :=
  padTo 64 (BitVec.ofNat 8 op :: List.replicate 15 0 ++ rest)

/-- The running stack with a core of our choice on site 0. -/
def withCore (c : Core) : State := st { running with cores := c :: List.replicate 17 {} }

/-- The running stack with a fetched descriptor as its next step. -/
def nextStep (d : List Byte) : State := withCore { fetched := [(0, d)] }

/- Witnesses: for each statement, states and operands that meet the hypotheses of each of its clauses. -/

theorem witness_rails : State.reset.mod.vinOk = true ∧ (42499 : Nat) < 42500 ∧ (59500 < 59501 ∧ 59501 ≤ 64000) ∧
    (59500 < 64000 ∧ 64000 ≤ 64000) := by decide

/-- Power on, but for the switches that a clause needs off. -/
def pins (m : Module) : State := { mod := m, dev := {}, mem := [], pending := [] }

theorem witness_pins :
    (pins { pwrEn := false }).mod.pwrEn = false ∧ (50 ≤ 50 ∧ 49 < 50) ∧
    ((pins { pwrEnDeferred := true }).mod.pwrEnDeferred = true ∧ (pins { pwrEnDeferred := true }).mod.pwrEn = true) ∧
    State.reset.mod.stageOn = true ∧ (State.reset.mod.pwrEn && State.reset.mod.pwrgood && State.reset.mod.resetN && State.reset.mod.refclk) = true ∧
    ((pins { resetN := false }).mod.pwrgood = true ∧ (pins { resetN := false }).mod.resetN = false) ∧
    ((pins { vinOk := false }).mod.vinOk = false ∧ (pins { vinOk := false }).mod.ovStop = false) ∧ (pins { ovStop := true }).mod.ovStop = true ∧
    (st { boot := { power := .off } }).dev.boot.power = .off ∧ (st {}).dev.boot.power ≠ .off ∧
    (State.reset.mod.fusesRead = true ∧ (10000 : Nat) ≤ 10000) := by decide

theorem witness_stage : State.reset.mod.vinOk = true ∧ State.reset.mod.liveConds = [] ∧ StageCond.iinOcWarn ≠ .otFault ∧
    StageCond.vinUvWarn ≠ .voutUvFault ∧ State.reset.mod.pwrEn = true := by decide

theorem witness_beat_load :
    ((1 : W32).getLsbD 0 = true ∧ (3 : W32).getLsbD 0 = true) ∧ (st {}).dev.beat.role = .lone ∧ anyLive (st {}).dev = false ∧
    (st { beat := { role := .master } }).dev.beat.role = .master ∧ anyLive (st running).dev = true ∧
    (let s := st { beat := { loadPending := some 7, loadAt := 5, wbc := 6 } }
     s.dev.beat.loadPending = some 7 ∧ s.dev.beat.loadAt < s.dev.beat.wbc ∧ anyLive s.dev = false) ∧
    (let s := st { beat := { loadPending := some 7, loadAt := 6, wbc := 6 } }
     s.dev.beat.loadPending = some 7 ∧ s.dev.beat.wbc ≤ s.dev.beat.loadAt) ∧
    (let s := st { running with beat := { loadPending := some 7, loadAt := 99, wbc := 100 } }
     s.dev.beat.loadPending = some 7 ∧ s.dev.beat.loadAt < s.dev.beat.wbc ∧ anyLive s.dev = true) := by decide

theorem witness_boundary :
    (st { beat := { clockStopped := true } }).dev.beat.clockStopped = true ∧
    (let s := st running
     s.dev.beat.clockStopped = false ∧ s.dev.beat.holdAcc ≤ s.dev.beat.wbc ∧ s.dev.beat.wbc + 1 < 2 ^ 56 ∧
       (∀ k < 18, (s.work.core k).draining = []) ∧ isHoldBeat (coresToBeatEnd s.work).dev.beat (s.dev.beat.wbc + 1) = false) ∧
    ErrorFree running ∧
    (let s := st { beat := { wbc := 127, points := [{ w := 128, closed := true, len := 1 }] } }
     isHoldBeat (coresToBeatEnd s.work).dev.beat (s.dev.beat.wbc + 1) = true) := by
  refine ⟨?_, ?_, ⟨rfl, rfl, rfl⟩, ?_⟩ <;> decide +kernel

/-- A member whose port 2 carries traffic. -/
def member (b : Beat) : State :=
  st { beat := b, span := { incs := [(9, 1)], ports := [{}, {}, { state := .ready, delay := 3 }] ++ List.replicate 9 {} } }

def mark1 : Marker :=
  { srcId := 9, srcInc := 1, term := 1, hop := 0, holdActive := false, holdover := false, masterId := 9, setGen := 0, wbc := 97, holdAcc := 0, phase := 0 }

/-- No port of a stack fresh from reset carries traffic. -/
theorem no_port_carries (b : Beat) : ∀ p, portCarries ((st { beat := b }).work.port p) = false := fun p => by
  have h : (st { beat := b }).work.port p = ({} : PortS) := by
    show nth (List.replicate 12 ({} : PortS)) p {} = {}
    simp only [nth, List.getElem?_replicate]
    split <;> rfl
  rw [h]; rfl

theorem witness_member :
    (let s := member { role := .member, term := 1, upstream := 2, wbc := 100, matched := 63 }
     s.dev.beat.holdover = false ∧ s.dev.beat.upstream = 2 ∧ portCarries (s.work.port 2) = true ∧
      mark1.term = s.dev.beat.term ∧ incOf s.dev mark1.srcId = mark1.srcInc ∧ mark1.srcInc ≠ 0 ∧
      s.dev.beat.wbc = mark1.wbc + (s.work.port 2).delay) ∧
    (let s := member { role := .member, matched := 64 }
     follows s.dev.beat = true ∧ s.dev.beat.aligned = false ∧ s.dev.beat.lossNow = false ∧ 64 ≤ s.dev.beat.matched) ∧
    (let b : Beat := { role := .member, upstream := 2, lastMarker := some 96, wbc := 100 }
     follows b = true ∧ b.upstream ≠ 15 ∧ b.holdover = false ∧ (b.lastMarker.getD 0) + 4 ≤ b.wbc ∧
      ∀ p, portCarries ((st { beat := b }).work.port p) = false) :=
  ⟨by decide, by decide, by decide, by decide, by decide, by decide, no_port_carries _⟩

def mirror0 : MirrorData :=
  { wbc := 0, holdAcc := 0, term := 1, masterId := 9, ledger := [], routes := [], fwSession := 0, fwRound := 0, fwProgress := [] }

def entry (len : Nat) : LedgerEntry :=
  { index := 0, holdWbc := 64, holdLen := len, sbcAtHold := 64, leadId := 0, leadInc := 1, leadCause := 0xA, reqCount := 1, releaseWbc := 0, term := 1 }

theorem witness_following :
    (let s := st { beat := { holdover := true, holdEpochs := 2 } }; s.dev.beat.holdover = true ∧ 2 ≤ s.dev.beat.holdEpochs ∧ s.dev.boot.parts.length = 4) ∧
    (let s := st { beat := { role := .member, phaseBad := 4 } }; follows s.dev.beat = true ∧ 4 ≤ s.dev.beat.phaseBad) ∧
    (let s := st { beat := { role := .master, wbc := 2 ^ 20 }, sched := { haveActive := true } }
     s.dev.beat.wbc % 2 ^ 20 = 0 ∧ s.dev.beat.role = .master ∧ beatPort s.work 3 < 12) ∧
    (let s := st { beat := { role := .standby, ledger := [entry 1] } }
     s.dev.beat.role = .standby ∧ ledgerDiff s.dev.beat.ledger mirror0.ledger = none ∧ ledgerDiff s.dev.beat.ledger [entry 2] = some 64) ∧
    (let s := st { beat := { role := .standby, wbc := 4, takeover := true } }; (s.dev.beat.lastStandbyMarker.getD 0) + 4 ≤ s.dev.beat.wbc) ∧
    (let s := st { beat := { role := .standby, wbc := 2 ^ 20, takeover := true } }; s.dev.beat.takeover = true ∧ s.dev.beat.wbc % 2 ^ 20 = 0) := by
  decide +kernel

def hold (w len : Nat) : HoldRec :=
  { cause := 0xA, reqSeq := 1, reqId := 9, reqInc := 1, term := 1, holdWbc := w, holdLen := len, ledgerIndex := 0, issueWbc := 0 }

def onSpan (b : Beat) : State := st { beat := b, span := { incs := [(9, 1)] } }

theorem witness_holds :
    (let s := onSpan { wbc := 64 }
     isStale s.dev 9 1 = false ∧ isDuplicate s.dev.beat 2 9 1 1 = false ∧ (s.work.port 0).state ≠ .paused ∧
      s.dev.beat.wbc + 64 ≤ (hold 128 1).holdWbc ∧ (hold 127 1).holdWbc < s.dev.beat.wbc + 64) ∧
    (let s := onSpan { wbc := 64, points := [{ w := 128, reqs := [⟨9, 1, 1, 5, 0xA⟩] }] }
     s.dev.beat.points.find? (fun x => x.w == 128 && !x.closed) = some { w := 128, reqs := [⟨9, 1, 1, 5, 0xA⟩] } ∧
      128 ≤ s.dev.beat.wbc + 64 ∧ isDuplicate s.dev.beat 3 9 1 1 = false ∧ ownLen s.dev.beat 128 = some (hold 128 5).holdLen ∧
      ownLen s.dev.beat 128 ≠ some (hold 128 6).holdLen) ∧
    (let s := onSpan { wbc := 64, points := [{ w := 0, closed := true }] }
     isDuplicate s.dev.beat 4 9 1 1 = false ∧ s.dev.beat.wbc + 64 ≤ (hold 128 0).holdWbc ∧
      releasedPoint s.dev.beat 0 = some { w := 0, closed := true } ∧ 0 + propBeats s.work ≤ s.dev.beat.wbc) := by decide +kernel

/-- A step in flight. -/
def flying (op : Nat) (d : List Byte) : StepRun :=
  { index := 0, run := 0, desc := d, op := op, issueSbc := 100, issueAt := 6400, firstIssue := 6400, nominalEnd := 6401, release := [(0, 7000), (1, 7000)] }

/-- The next step of site 0's column is due, of its kind, on the site, and still finds its engines free once its core has come to the cycle. -/
def due (op : Nat) (s : State) : Bool :=
  match issueNow s.work 0 4 with
  | some x =>
    let y := coreAtIssue s.work x
    opOf x.d == op && decide (x.site < y.dev.cores.length) && (issueNow y 0 4).isSome && (y.core x.site).replay.isNone &&
      (liveStep (y.core x.site) x.index).isNone && ((enginesOf x.d).all fun g => !engineBusy (y.core x.site) (cycNow y.dev 4) g) &&
      y.dev.prot.dramErr == [] && y.dev.prot.bufErr == [] && !y.dev.prot.injArm
  | none => false

/-- A ROWOP that copies row 1 of bank 0 to row 0. -/
def copyDesc : List Byte := desc 10 (List.replicate 8 0 ++ [7, 0, 1, 0] ++ List.replicate 4 0 ++ leBytes 5 0 ++ leBytes 5 0x40000)

/-- Its column with granule 0 Open or Protected. -/
def rowStep (attr : Byte) : State :=
  st { running with cores := { fetched := [(0, copyDesc)] } :: List.replicate 17 {} } [(setKey 0 0x10, attr)]

theorem witness_steps_issue : (∀ op ∈ [3, 7, 8, 9, 12, 13, 1, 4, 5, 6, 10], due op (nextStep (desc op [])) = true) ∧
    (∀ e ∈ [((1 : Byte), true), (0, false)], due 10 (rowStep e.1) = true ∧
      (issueNow (rowStep e.1).work 0 4).map (fun x => (roCount x.d, (List.range (roCount x.d)).all fun k => (roRows x.d k).all fun a =>
        isOpen (coreAtIssue (rowStep e.1).work x) x.col (granuleOf (a % colBytes)))) = some (1, e.2)) ∧
    (let s := withCore { steps := [flying 1 (desc 1 [])] }; (s.work.core 0).draining = []) ∧ ErrorFree running ∧
    IssuesAs (nextStep (desc 3 [])) 3 0 4 ⟨0, 0, 0, img 4, 0, desc 3 [], 4, false⟩ :=
  ⟨by decide +kernel, by decide +kernel, rfl, ⟨rfl, rfl, rfl⟩, rfl, by decide +kernel, by decide +kernel, by decide +kernel,
    by decide +kernel, by decide +kernel, by decide +kernel⟩

def prep0 (op : Nat) (done : Bool) : Prep :=
  { index := 0, run := 0, op := op, seq := 0, finished := done, walkErr := 0, busErr := false, vCode := 0, descs := [], plan := [] }

/-- A step of a prepared kind with two pages, and its preparation. -/
def prepared (op : Nat) : State :=
  withCore { fetched := [(0, desc op (List.replicate 32 0 ++ [2, 0]))], prep := some (prep0 op true) }

theorem witness_prepared_steps : ∀ op ∈ [2, 11, 14], due op (prepared op) = true ∧
    ((issueNow (prepared op).work 0 4).map fun x =>
      ((coreAtIssue (prepared op).work x).core x.site).prep == some (prep0 op true) && (prep0 op true).index == x.index % 2 ^ 32 &&
        decide (atMaxPages x.d ≠ 0)) = some true ∧
    (prep0 op true).finished = true ∧ (prep0 op true).failed = false := by decide +kernel

def replay0 (failed : Bool) (attempt : Nat) (reissued : List Nat) : Replay :=
  { faultAt := 6400, p := 0, members := [(0, 0)], attempt := attempt, reissued := reissued, failed := failed, cls := 1, location := 0, detail := 0,
    count := 0, residual := 0 }

theorem witness_starts_lost :
    (let s := withCore { fetched := [(1, desc 1 [])], nextIndex := 1, steps := [flying 1 (desc 1 [])] }
     (issueNow s.work 0 5).map (fun x =>
       let y := coreAtIssue s.work x
       (opOf x.d, (issueNow y 0 5).isSome, colAt y.dev x.site, partOfSite y x.site == some x.part, decide (x.site < y.dev.cores.length),
         (enginesOf x.d).any fun g => engineBusy (y.core x.site) (cycNow y.dev 5) g)) = some (1, true, some 0, true, true, true) ∧
      s.dev.boot.parts.length = 4) ∧
    (let s := withCore { fetched := [(0, desc 3 [])], replay := some (replay0 false 1 []) }
     (issueNow s.work 0 4).map (fun x => ((coreAtIssue s.work x).core x.site).replay.isSome) = some true) ∧
    (let f : FlowArm := { flow := 3, send := false, index := 0, addr := 0, flits := 1, placed := [], lastBeat := 99, reduce := false, sent := 0 }
     let s := withCore { steps := [flying 8 (desc 8 [])], flows := [f] }
     (liveStep (s.work.core 0) (stepKey (s.work.core 0) 0)).isSome = true ∧
      (s.work.core 0).flows.find? (fun f => f.index == stepKey (s.work.core 0) 0 && !f.send) = some f ∧
      f.lastBeat < sbc s.dev ∧ f.placed.length < f.flits ∧ partOfSite s.work 0 = some 0) ∧
    (let s := withCore {}; sbc s.dev = 100 ∧ (28 ≤ 28 ∧ ¬ 28 ≤ 27)) := by decide +kernel

theorem witness_steps_finish :
    (∀ op ∈ [13, 9],
      let s := withCore { steps := [flying op (desc op [])] }
      let k := stepKey (s.work.core 0) 0
      let y := formFlags (Reached s 0 5) 0 (s.dev.beat.wbc * 64 + 5 + 1)
      (liveStep (y.core 0) k).map (fun st => (st.op, st.endAt, y.dev.beat.wbc == s.dev.beat.wbc,
        (liveCtx y 0 k 5).map fun x => readyToEnd y x st (s.dev.beat.wbc * 64 + 5))) = some (op, none, true, some true) ∧
      (y.core 0).replay = none ∧ y.dev.prot.dramErr = [] ∧ y.dev.prot.bufErr = [] ∧ y.dev.prot.injArm = false) ∧
    (let st := { flying 13 (desc 13 []) with endAt := some 6400 }
     let s := withCore { steps := [st] }
     stepKey (s.work.core 0) 0 = 0 ∧ liveStep (s.work.core 0) 0 = some st ∧ checksPassed s.work 0 st (s.dev.beat.wbc * 64 + 5) = true ∧
      awaitsProducer s.work 0 st = false ∧ s.dev.host.filter = [] ∧ s.dev.host.txns = [] ∧ st.held = []) := by decide +kernel

theorem witness_records :
    (let s := withCore {}
     (columnRun s.work 0).isSome = true ∧ (img 4).secAt 1 0 = some (0x1400, 256) ∧ partLive s.dev 0 = true ∧ 64 * 0 < 256 ∧
      addrKey s.dev 0x1400 = some 0x1400 ∧ 0x1400 % 64 = 0 ∧ siteOf s.dev 0 < s.dev.cores.length ∧ (s.work.bank 0).waiting = []) ∧
    (∀ r ∈ [(⟨18, 0, [1], 0⟩ : SentRecord), ⟨0, 1, [1], 0⟩],
      (∀ d ∈ [running, { running with noc := {} }], r.src < 18 → siteInc d r.src = some r.inc) ∧
      (let s := st { running with host := { stsOut := [r] }, sched := { running.sched with rings := [{ records := 64 }, {}, {}, {}] } }
       s.dev.sched.rings[r.part]? = some { records := 64 } ∧ ringFull 64 0 0 = false ∧ r.data ≠ [] ∧ (r.src < 18 → siteInc s.dev r.src = some r.inc)) ∧
      (let s := st { running with host := { faultOut := [r] } }; s.dev.host.faultOut = [r] ∧ s.dev.host.queue.length < 1024) ∧
      (let s := st { running with host := { faultOut := [r], queue := List.replicate 1024 ⟨[], true⟩ } }
       1024 ≤ s.dev.host.queue.length ∧ ∀ r ∈ s.dev.host.queue, r.isFault = true)) ∧
    (messageWay (st running).work 0 24).contains 0 = true ∧ 0 < running.noc.sites.length ∧
    (let m : ShuttleMsg := ⟨1, 0, 24, 1, List.replicate 32 7⟩
     m.cls < 8 ∧ m.dest < 32 ∧ m.src < 32 ∧ m.inc < 256 ∧ (messageFlits m).length = 4) := by decide +kernel

def tile0 (range : Bool) (k : List F32) : Tile :=
  { index := 0, u := 0, v := 0, t := 0, c := [], k := k, l := [], g := 0, range := range }

/-- A MATMUL of 64 reduction elements, 64 rows by 64 columns, with a format of both operands, perhaps to the vector unit. -/
def mm (fmt : Byte) (toVector : Bool) : List Byte :=
  desc 1 ([fmt] ++ List.replicate 37 0 ++ [4, 0, 1, 1, if toVector then 0x10 else 0])

/-- It in flight, with lines that its queues have asked for. -/
def feeding (fmt : Byte) (ls : List FeedLine) : Core :=
  { steps := [{ flying 1 (mm fmt false) with lines := ls }]
    reads := ls.filterMap fun l => if l.granted.isNone then some (.feeder l.side l.queue, 0) else none }

theorem witness_array :
    (let s := withCore (feeding 0 [])
     s.mem.wf = true ∧ siteOf (Reached s 0 5).dev 0 = siteOf s.dev 0 ∧ (0 : Nat) < (Reached s 0 5).dev.map.n ∧ (Reached s 0 5).dev.map.n ≤ 16 ∧
       (0 : Nat) < bufBytes ∧ (List.replicate 256 (7 : Byte)).length = (List.replicate 256 true).length) ∧ ErrorFree running ∧
    (let s := st { running with prot := { writeBacks := [⟨0, 7⟩] } }
     s.dev.prot.writeBacks.find? (fun w => w.site == siteOf s.dev 0) = some ⟨0, 7⟩) := ⟨by decide +kernel, ⟨rfl, rfl, rfl⟩, by decide +kernel⟩

theorem witness_feeders :
    (∀ side ∈ [FeederSide.warp, .weft, .warpScale, .weftScale],
      let s := withCore (feeding 0x44 [])
      let c := (Reached s 0 5).core 0
      (feedStep c side 3).isSome = true ∧ (3 < 64 ∧ (queueFill c (cycNow (Reached s 0 5).dev 5) side 3).2 ≤ 12)) ∧
    (let s := withCore (feeding 0 ((List.range 4).map fun n => ⟨.warp, 3, n, none⟩))
     12 < (queueFill ((Reached s 0 5).core 0) (cycNow (Reached s 0 5).dev 5) .warp 3).2) ∧
    (∀ served ∈ [true, false],
      let s := withCore { feeding 0 [⟨.warp, 3, 0, none⟩] with bankReads := (6405, if served then [0] else []) }
      let y := Reached s 0 5
      grantedRead (y.core 0) (cycNow y.dev 5) 0 = some (.feeder .warp 3, 0) ∧ bankServed (y.core 0) (cycNow y.dev 5) 0 = served ∧
        (waitingLine (y.core 0) .warp 3).isSome = true ∧ siteOf y.dev 0 = siteOf s.dev 0 ∧ y.dev.prot.dramErr = [] ∧ y.dev.prot.bufErr = [] ∧
        y.dev.prot.injArm = false) := by decide +kernel

/-- A MATMUL in flight with one tile before its drain path. -/
def draining (toVector : Bool) (last : Option Nat) : State :=
  withCore { steps := [flying 1 (mm 0 toVector)], tiles := [tile0 false []], lastDrain := last, vec := { step := some 0 } }

/-- Its tile is due in cycle 6421. -/
theorem witness_drains : ∀ e ∈ [((none : Option Nat), 5, true, false), (some 6400, 30, false, false), (some 6300, 40, false, true), (none, 40, false, true)],
    ∀ v ∈ [true, false],
      let s := draining v e.1
      let y := Reached s 0 e.2.1
      let c := y.core 0
      siteOf y.dev 0 = siteOf s.dev 0 ∧ c.tiles = [tile0 false []] ∧ (liveCtx y 0 0 0).map (fun x => mmToVector x.d) = some v ∧
        (liveStep c 0).map (fun st =>
          let due := tileDue st c.spareStage 0
          let start := match c.lastDrain with
            | some l => max due (l + 64)
            | none => due
          (decide (cycNow y.dev e.2.1 < due), decide (start ≤ cycNow y.dev e.2.1), waitsForLine c.skew st (cycNow y.dev e.2.1))) =
          some (e.2.2.1, e.2.2.2, false) ∧
        c.draining = [] ∧ c.vec.step = some 0 ∧ c.vec.halted = false ∧ (y.dev.prot.dramErr.isEmpty && y.dev.prot.bufErr.isEmpty && !y.dev.prot.injArm) = true := by
  decide +kernel

theorem witness_drained_rows :
    (∀ e ∈ [(6400, 0, true), (6410, 0, false), (6400, 16, false)],
      let s := withCore { rows := [(e.1, [])], vec := { step := some 0, stream := List.replicate e.2.1 [] } }
      let y := Reached s 0 5
      let c := y.core 0
      c.rows = [(e.1, [])] ∧ c.vec.step = some 0 ∧ c.vec.halted = false ∧
        (decide (e.1 ≤ cycNow y.dev 5) && decide (c.vec.stream.length < 16)) = e.2.2 ∧
        (decide (cycNow y.dev 5 < e.1) || decide (16 ≤ c.vec.stream.length)) = !e.2.2) ∧
    (let s := withCore { rows := [(6400, [])], vec := { step := some 0, halted := true } }
     ((Reached s 0 5).core 0).rows = [(6400, [])] ∧ ((Reached s 0 5).core 0).vec.halted = true) := by decide +kernel

theorem compare_zeros : (compareOne 12 (satSum ((List.range 64).map fun _ => 0)) 0 (satSum ((List.range 64).map fun _ => 0))).1 = false := by
  decide +kernel

/-- A tile of zeros passes its comparison. -/
theorem compare_tile_zero : (compareTile 0 (tile0 false [])).fails = 0 := by
  have h : (compareOne 12 (satSum []) 0 (satSum [])).1 = false := by decide +kernel
  have e := compare_zeros
  simp [compareTile, tile0, nth, absF, List.filter_map, Function.comp_def] at *
  first
    | exact ⟨fun _ _ => e, h⟩
    | exact ⟨e, h⟩

theorem filter_last {α : Type} (l : List α) (x : α) (p : α → Bool) (h : p x = true) : ((l ++ [x]).filter p).length ≠ 0 := by
  simp [h]

/-- One with a wrong corner fails it. -/
theorem compare_tile_corner : (compareTile 0 { tile0 false [] with g := 0x3F800000 }).fails ≠ 0 := by
  have h : (compareOne 12 (satSum []) 0x3F800000 (satSum [])).1 = true := by decide +kernel
  simp only [compareTile]
  apply filter_last
  simpa [tile0] using h

/- compare_tile_zero and compare_tile_corner give the two outcomes. -/
theorem witness_check : ∀ tl ∈ [tile0 true [], tile0 false [], { tile0 false [] with g := 0x3F800000 }],
    let s := withCore { steps := [flying 1 (mm 0 false)], drained := [tl] }
    let y := Reached s 0 5
    siteOf y.dev 0 = siteOf s.dev 0 ∧ (liveStep (y.core 0) tl.index).map (fun st => checkTol st.desc) = some 0 ∧ (y.core 0).drained = [tl] := by
  decide +kernel

theorem witness_replay :
    (let s := withCore { steps := [{ flying 3 (desc 3 []) with release := [] }], replay := some (replay0 false 1 []) }
     let y := Reached s 0 2
     let r := replay0 false 1 []
     siteOf y.dev 0 = siteOf s.dev 0 ∧ (y.core 0).replay = some r ∧ r.members.find? (fun m => !r.reissued.contains m.1) = some (0, 0) ∧
      (liveCtx y 0 0 2).isSome = true ∧ r.p = 0 ∧ r.faultAt + 2 ≤ cycNow y.dev 2 ∧
      (∀ g ∈ enginesOf (desc 3 []), engineBusy (y.core 0) (cycNow y.dev 2) g = false) ∧ y.dev.prot.dramErr = [] ∧ y.dev.prot.bufErr = [] ∧
      y.dev.prot.injArm = false) ∧
    (let st := { flying 3 (desc 3 []) with endAt := some 6400 }
     let s := withCore { steps := [st], replay := some (replay0 false 1 [0]) }
     (s.work.core 0).replay = some (replay0 false 1 [0]) ∧
      (replay0 false 1 [0]).members.all (fun m => (replay0 false 1 [0]).reissued.contains m.1) = true ∧
      liveStep (s.work.core 0) 0 = some st ∧ checksPassed s.work 0 st (s.dev.beat.wbc * 64 + 2) = true ∧ s.dev.host.filter = [] ∧
      s.dev.host.txns = []) ∧
    (let s := withCore { replay := some (replay0 true 2 []) }
     (s.work.core 0).replay = some (replay0 true 2 []) ∧ 2 ≤ (replay0 true 2 []).attempt ∧ partOfSite s.work 0 = some 0) := by decide +kernel

/-- A vector unit whose next instruction has an OP. -/
def unit (op : Nat) : Core :=
  { steps := [flying 3 (desc 3 [])], vec := { step := some 0, prog := [BitVec.ofNat 64 (op * 2 ^ 58)] } }

theorem witness_lanes : ∀ op ∈ laneOps, (laneCtx (withCore (unit op)).work 0 5 op).isSome = true := by decide +kernel

theorem witness_lane_memory :
    (∀ op ∈ [8, 9],
      let s := withCore (unit op)
      let y := Reached s 0 5
      (laneCtx y 0 5 op).map (fun k => (k.x.col, fmtBytes k.ins.fmt 256, k.ins.areg)) = some (0, 1024, 0) ∧ siteOf y.dev 0 = siteOf s.dev 0 ∧
        ((addrKey y.dev (bufAddr 0 (nth (y.core 0).vec.a 0 0))).map fun k => decide (2 ^ 40 ≤ k)) = some true ∧
        0 < y.dev.map.n ∧ y.dev.map.n ≤ 16 ∧ (vreg (y.core 0).vec 0).length = 256 ∧ y.dev.prot.dramErr = [] ∧ y.dev.prot.bufErr = [] ∧
        y.dev.prot.injArm = false) ∧
    inRows (unit 10).vec ≤ (unit 10).vec.stream.length ∧ (0 + fmtBytes 0 256 ≤ bufBytes ∧ 0 + 8 ≤ bufBytes) := by decide +kernel

def rowOp (op compound cost : Nat) : RowOp :=
  { op := op, compound := compound, dst := 0x4000, a := 0, b := 0x2000, c := 0x6000, cost := cost, dur := 16 * cost, who := .control, cross := false,
    phase := 0, latched := [], arrivedAt := 0, waiting := false, copyCheck := false }

/-- The running stack with bank 0 of site 0, tile 0 of our choice. -/
def withBank (b : Bank) : State := st { running with prot := { running.prot with banks := [(0, b)] } }

theorem witness_rows :
    (∀ e ∈ (rowTable 0 0 0 4).map (fun e => (e.1, e.2.1, e.2.2.1)),
      let o := rowOp e.1 e.2.1 e.2.2
      let s := withBank { rowOps := [o] }
      (s.work.bank (bankId 0 0 0)).rowOps = [o] ∧ o.phase = 0 ∧ o.dur = 16 * o.cost ∧ inOrder s.work o (s.dev.beat.wbc * 64 + 4) = true ∧
        bankFree s.work 0 (s.dev.beat.wbc * 64 + 4) = true ∧ hasTokens s.work 0 o.cost = true ∧ waitingOps s.work 0 = [] ∧ s.mem.wf = true) ∧
    (let o := { rowOp 7 0 2 with cross := true }
     let s := withBank { rowOps := [o] }
     o.phase = 0 ∧ inOrder s.work o (s.dev.beat.wbc * 64 + 4) = true ∧ bankFree s.work 0 (s.dev.beat.wbc * 64 + 4) = true ∧
      hasTokens s.work 0 o.cost = true ∧ waitingOps s.work 0 = [] ∧ ∀ b ∈ s.dev.prot.busCopies, b.1 ≠ 0) ∧
    (let o := { rowOp 1 0 5 with waiting := true }
     let s := withBank { rowOps := [o] }
     waitingOps s.work 0 = [(0, o)] ∧ hasTokens s.work 0 o.cost = true ∧ bankFree s.work 0 (s.dev.beat.wbc * 64 + 4) = true) ∧
    (let o := { rowOp 7 0 2 with cross := true, phase := 1, latched := List.replicate 8192 1 }
     let s := st { running with prot := { running.prot with busCopies := [(0, o)] } }
     s.dev.prot.busCopies.find? (fun b => b.1 == 0 && tileOf b.2.dst == 0) = some (0, o) ∧ o.arrivedAt ≤ s.dev.beat.wbc * 64 + 4 ∧
      bankFree s.work (bankId 0 0 (bankOf o.dst)) (s.dev.beat.wbc * 64 + 4) = true ∧ hasTokens s.work 0 o.cost = true ∧ waitingOps s.work 0 = []) ∧
    (List.replicate 8192 (1 : Byte)).length = 8192 :=
  ⟨by decide +kernel, by decide +kernel, by decide +kernel, ⟨rfl, by decide, by decide +kernel, by decide +kernel, by decide +kernel⟩, List.length_replicate⟩

def bankReq (write : Bool) (who : Requester) : BankReq :=
  { site := 0, addr := 0, write := write, len := 64, data := [1], mask := [true], who := who }

theorem witness_banks :
    (let s := withBank {}
     let now := s.dev.beat.wbc * 64 + 4
     s.dev.noc.fabricReset = false ∧ (bankReq false .host).addr + max 64 1 ≤ colBytes ∧ (s.work.bank 0).freeAt now = now ∧
      (s.work.bank 0).waiting = [] ∧ ErrorFree s.dev ∧ s.dev.map.n ≤ 16 ∧ s.dev.map.mig.mirroring = false) ∧
    (let s := st { running with noc := { running.noc with fenced := [0] } }
     0 ∈ s.dev.noc.fenced ∧ siteOf s.dev 0 = 0 ∧ 0 < s.dev.noc.sites.length ∧ (bankReq false (.step 0 0)).who = .step 0 0) ∧
    (let s := withBank { busyUntil := 6405 }; s.dev.beat.wbc * 64 + 4 < (s.work.bank 0).freeAt (s.dev.beat.wbc * 64 + 4)) ∧
    (∀ w ∈ [({ req := bankReq false .host } : BankWait), { req := bankReq false .host, outcome := some (some [7]) }],
     let s := withBank { waiting := [w] }
     (s.work.bank (bankId 0 0 0)).waiting = [w] ∧ (s.work.bank (bankId 0 0 0)).freeAt (s.dev.beat.wbc * 64 + 4) = s.dev.beat.wbc * 64 + 4) := by
  refine ⟨⟨?_, ?_, ?_, ?_, ⟨rfl, rfl, rfl⟩, ?_, ?_⟩, ?_⟩ <;> decide +kernel

theorem witness_refresh_and_scrub :
    (let s := st { running with beat := { wbc := 7 } }
     s.dev.beat.wbc % (if (nth s.dev.prot.layers 0 {}).dbl then 500 else 1000) = (31 * 0 + 7 * (0 + 1)) % 1000 ∧
       (∀ k < 18, (s.work.bank (bankId k 0 0)).waiting = []) ∧ (s.work.bank (bankId 0 0 0)).refreshUntil ≤ s.dev.beat.wbc * 64 + 32) ∧
    (∀ e ∈ [(16384, true), (16383, false)],
     let w : SwapPending := ⟨some (2 ^ 20), [], 0, 0⟩
     let s := st { running with sched := { running.sched with swap := some w }, prot := { running.prot with encoding := [(0, 5)] }, beat := { wbc := e.1 } }
     s.dev.sched.swap = some w ∧ s.dev.prot.encoding.find? (fun g => g.1 == (0 : Col).val) = some (0, 5) ∧
       decide (w.accepted + 16384 * ((s.dev.prot.encoded.filter fun g => g.1 == 0).length + 1) ≤ s.dev.beat.wbc) = e.2) ∧
    (let s := st { running with beat := { wbc := 2 ^ 30 } }
     (s.work.bank 0).patrolDue = none ∧ (s.work.bank 0).patrolLast + patrolInterval s.work 0 0 ≤ s.dev.beat.wbc) ∧
    (let s := withBank { patrolDue := some 100 }
     (s.work.bank (bankId 0 0 0)).patrolDue = some 100 ∧ (s.work.bank (bankId 0 0 0)).waiting = [] ∧
       (s.work.bank (bankId 0 0 0)).rowOps.any RowOp.waiting = false ∧ patrolSkips s.work 0 (rowOff 0 0 0) = false) ∧
    (let s := st { running with sched := {} }
     scrubOn s.work 0 = true ∧ s.dev.prot.sites.length = 18 ∧ (∀ r ∈ (s.work.core 0).reads, lineBank r.2 ≠ 0) ∧
      nth (nth s.dev.prot.sites 0 {}).scrubBeat 0 0 ≠ s.dev.beat.wbc + 1) ∧
    (let s := st { running with beat := { wbc := 31251 } } [(setKey 0 0x1E, 1), (setKey 0 0x20, 1)]
     scrubCfg s.work 0x20 2 0 ≠ 0 ∧ (nth s.dev.prot.sites 0 {}).lapAlarmed = false ∧ scrubOn s.work 0 = true ∧
      scrubCfg s.work 0x20 2 0 * 31250 < s.dev.beat.wbc - (nth s.dev.prot.sites 0 {}).lapStart) := by
  refine ⟨?_, ?_, ?_, ?_, ?_, ?_⟩ <;> decide +kernel

theorem witness_channel :
    let s := withCore { steps := [flying 1 (desc 1 [])] }
    (liveStep (s.work.core (siteOf s.dev 0)) 0).isSome = true ∧ 17 < s.dev.noc.sites.length := by decide +kernel

/-- An image with page-walk parameters in its section 4 and an ATTEND as its first step. -/
def pwImg : Image := { img 4 with sections := [⟨1, 0, 0x400, 256⟩, ⟨4, 0xFFFF, 0x800, 256⟩] }

def pwRunning (c : Core) (m : Store) : State :=
  st { running with sched := { running.sched with images := [pwImg] }, cores := c :: List.replicate 17 {} } m

theorem witness_preparations :
    (let s := pwRunning { prepTrigger := some 100 } [(0x1400, 2)]
     (s.work.core 0).prepTrigger = some 100 ∧ (s.work.core 0).prep = none ∧ (columnRun s.work 0).isSome = true ∧ partLive s.dev 0 = true ∧
      (prepTarget s.work 0).isSome = true ∧ 100 ≤ s.dev.beat.wbc ∧ pwImg.pw.isSome = true) ∧
    (let s := withCore { prep := some (prep0 2 false) }
     (s.work.core 0).prep = some (prep0 2 false) ∧ (prep0 2 false).finished = false ∧ liveStep (s.work.core 0) (stepKey (s.work.core 0) 0) = none ∧
       copiesWait s.work 0 = false ∧ (prep0 2 false).walkErr = 0) ∧
    ({ prep0 2 false with walkErr := 1 } : Prep).walkErr ≠ 0 ∧
    (let s := withCore { descOut := [idleDesc] }
     (s.work.core 0).descOut = [idleDesc] ∧ s.dev.boot.parts.length = 4 ∧ (messageWay s.work 24 (siteOf s.dev 0)).contains 0 = true ∧
       0 < s.dev.noc.sites.length) := by decide +kernel

/-- An ATTEND of two pages at its first window. -/
def attending (kind : Nat) : Core :=
  let d := desc 2 (List.replicate 32 0 ++ [2, 0])
  { steps := [{ flying 2 d with pages := List.replicate 2 { idleDesc with kind := kind } }], descs := [idleDesc]
    attend := some { step := 0, next := 0, m := [], l := [], o := [] } }

/-- The first window begins 140 cycles after the issue. -/
theorem witness_attend : ∀ e ∈ [((0x22 : Nat), 5, true), (0x22, 140, false), (0x11, 140, false)],
    let s := st { running with cores := attending e.1 :: List.replicate 17 {}, beat := { wbc := 100 + e.2.1 / 64, aligned := true } }
    let y := Reached s 0 (e.2.1 % 64)
    let c := y.core 0
    let now := cycNow y.dev (e.2.1 % 64)
    siteOf y.dev 0 = siteOf s.dev 0 ∧ c.attend = some { step := 0, next := 0, m := [], l := [], o := [] } ∧
      (liveCtx y 0 0 (e.2.1 % 64)).map (fun x => decide (0 + 1 < atMaxPages x.d)) = some true ∧ 0 < c.descs.length ∧
      (liveStep c 0).map (fun st => (decide (0 < st.pages.length), (nth st.pages 0 idleDesc).kind, decide (now < windowStart st 0),
        waitsForLine c.skew st now)) = some (true, e.1, e.2.2, false) ∧
      (y.dev.prot.dramErr.isEmpty && y.dev.prot.bufErr.isEmpty && !y.dev.prot.injArm) = true := by decide +kernel

/-- A whole packet: from a router to another, of a kind, with its CRCs. -/
def packet (kind dest ep src : Nat) (addr aux status : Nat) (payload : List Byte) : Packet :=
  sealPacket { kind := kind, cls := 1, layer := false, dest := dest, destEp := ep, src := src, srcEp := 0, srcInc := 0, status := status, tag := 5
               addr := addr, len := payload.length, aux := aux, payload := payload, payCrc := 0, hdrCrc := 0 }

theorem witness_mesh_serves :
    (∀ k ∈ [1, 2, 3, 4, 5, 6, 7], arrives (st running) k 0 (packet k 1 0 2 0 0 0 [7])) ∧
    neighbour 0 (packetEntry (st running).work 0 (packet 1 1 0 2 0 0 0 []) % 8) = some 1 ∧
    (let p := sealPacket { packet 1 0 0 2 0 0 0 [] with srcEp := 2 }
     stalePacket running p = true ∧ p.hdrCrc = crc32c (packetHeader p) ∧ p.spoiled = false) ∧
    meshKey (st running).work 0 (packet 1 0 0 2 64 0 0 [7]) = some 64 ∧ meshKey (st running).work 0 (packet 1 0 0 2 (64 * 2 ^ 34) 0 0 [7]) = none ∧
    badPayload (packet 2 0 0 2 64 0 0 [7]) = false ∧ lineBusy (st running).work 64 1 = false ∧ running.map.mig.mirroring = false ∧
    NoneWait running ∧
    (let f : FlowArm := { flow := 3, send := false, index := 0, addr := 0, flits := 1, placed := [], lastBeat := 99, reduce := false, sent := 0 }
     let s := withCore { flows := [f] }
     let p := packet 5 0 1 2 0 3 0 [7]
     (s.work.core 0).flows.find? (fun f => f.flow == bits p.aux 0 8 && !f.send) = some f ∧ bits p.aux 8 24 < f.flits ∧
       f.placed.contains (bits p.aux 8 24) = false) ∧
    (portSite 0 = 0 ∧ portSite 11 = 17 ∧ ∀ j, j < 11 → portSite j ≠ 17) := by
  simp only [arrives, NoneWait]; decide +kernel

def meshReq (kind : Nat) (resent : Bool) (who : Requester) : MeshReq :=
  { tag := 5, pkt := packet kind 1 0 0 0 0 0 [], resent := resent, who := who, pos := 0 }

/-- The running stack with one mesh request and a move of 64 bytes from another column's DRAM to its own buffer in flight. -/
def moving (q : MeshReq) : State :=
  let d := desc 4 (List.replicate 8 0 ++ leBytes 8 (dramAddr 1 0) ++ leBytes 8 (bufAddr 0 256) ++ leBytes 4 64 ++ leBytes 4 1)
  st { running with noc := { running.noc with reqs := [q] }, cores := { steps := [flying 4 d] } :: List.replicate 17 {} }

theorem witness_mesh_answers :
    (let s := moving (meshReq 2 false .control)
     arrives s 4 0 (packet 4 0 2 1 0 0 0 []) ∧ reqOf s.work (packet 4 0 2 1 0 0 0 []) = some (meshReq 2 false .control)) ∧
    (let s := moving (meshReq 1 false (.step 0 0))
     let p := packet 3 0 2 1 0 0 0 (List.replicate 64 7)
     arrives s 3 0 p ∧ reqOf s.work p = some (meshReq 1 false (.step 0 0)) ∧ badPayload p = false ∧ p.status = 0 ∧
       (liveCtx s.work (siteOf s.dev 0) 0 0).map (fun x => (opOf x.d, mvTranspose x.d, (moveAddr x.d 0x20).1)) = some (4, false, false) ∧
       (((liveCtx s.work 0 0 0).bind fun x => (movePieces x.d)[0]?).map fun m => (m.dst, decide (whose s.dev.map.n 0 m.dst = .buf))) =
         some (bufAddr 0 256, true) ∧
       bufAddr 0 256 % 256 + p.payload.length ≤ 256 ∧ (addrKey s.dev (bufAddr 0 256)).isSome = true) ∧
    (let s := moving (meshReq 1 false .control)
     s.dev.noc.reqs.find? (fun x => x.tag == 5) = some (meshReq 1 false .control) ∧ arrives s 7 0 (packet 7 0 2 1 0 0 4 [])) ∧
    (let s := moving (meshReq 1 true (.step 0 0))
     (meshReq 1 true (.step 0 0)).pkt.kind = 1 ∧ (liveStep (s.work.core (siteOf s.dev 0)) 0).isSome = true ∧
       arrives s 7 0 (packet 7 0 2 1 0 0 3 []) ∧ (packet 7 0 2 1 0 0 3 []).status = 3 ∧
       (liveStep (s.work.core 0) 0).map (fun st => isHostMove st.desc) = some false) := by
  simp only [arrives]; decide +kernel

theorem witness_fences :
    (let f : FenceMsg := ⟨0, 4, 2⟩
     let s := st { running with noc := { running.noc with fences := [f] } }
     s.dev.noc.fences.find? (fun f => f.site == (0 : Nat)) = some f ∧ partOfSite s.work 0 = some 0 ∧ partLive s.dev 0 = true ∧ s.dev.boot.parts.length = 4 ∧
       f.why ≠ 0 ∧ (messageWay s.work 24 0).contains 0 = true ∧ 0 < s.dev.noc.sites.length) ∧
    (let a : Admission := ⟨[0], false, false, true⟩
     let s := st { running with noc := { running.noc with admits := [a, { a with written := true }] } }
     s.dev.noc.admits.find? (fun a => !a.written) = some a ∧ a.cols.Nodup ∧ s.dev.noc.admits.find? (fun a => a.written) = some { a with written := true }) ∧
    (let s := st { boot := { power := .linksQualified }, noc := { admits := [⟨[0], true, false, true⟩] } }
     s.dev.boot.power = .linksQualified ∧ s.dev.noc.admits.find? (fun a => a.written) = some ⟨[0], true, false, true⟩) ∧
    (let s := st { running with noc := { running.noc with ctrl := [⟨18, 2⟩, ⟨3, 3⟩] } }
     s.dev.noc.ctrl.find? (fun c => c.node == 18) = some ⟨18, 2⟩ ∧ (2 : Nat) < 3 ∧ s.dev.noc.ctrl.find? (fun c => c.node == 3) = some ⟨3, 3⟩) := by
  decide +kernel

def migrates (m : Migration) : State := st { running with map := { running.map with mig := m } }

theorem witness_migration :
    (migrates { state := 1 }).dev.map.mig.state = 1 ∧ (migrates {}).mem.wf = true ∧ ErrorFree (migrates { state := 1 }).dev ∧
    NoneWait (migrates { state := 1 }).dev ∧ (migrates {}).dev.noc.fabricReset = false ∧
    (let s := migrates { state := 2, toSite := 16 }
     s.dev.map.mig.state = 2 ∧ siteOf s.dev s.dev.map.mig.col = s.dev.map.mig.fromSite ∧ s.dev.map.mig.col < s.dev.map.cols.length) ∧
    (let s := migrates { state := 2, fromSite := 16 }
     siteOf s.dev s.dev.map.mig.col = s.dev.map.mig.toSite ∧ (∀ r ∈ s.dev.noc.reqs, r.pkt.dest = s.dev.map.mig.fromSite → 2 ≤ r.pkt.destEp) ∧
       ∀ b ∈ s.dev.prot.banks, b.1 / 384 = s.dev.map.mig.fromSite → b.2.waiting = []) ∧
    (let s := st { running with sched := { swap := some ⟨none, [0], 0, 0⟩ } }; s.dev.sched.swap = some ⟨none, [0], 0, 0⟩) :=
  ⟨rfl, rfl, ⟨rfl, rfl, rfl⟩, by simp only [NoneWait]; decide, rfl, by decide +kernel, by decide +kernel, rfl⟩

/-- A whole flit of a class for a device or group. -/
def flit (cls dst : Nat) (mcast : Bool) (flow seq : Nat) : Flit :=
  let f : Flit := ⟨9, 1, cls, dst, mcast, flow, seq, false, [7], 0, false, 0⟩
  { f with crc := flitCrc f }

/-- The running stack with trained neighbours: ports 0 and 1 are READY, device 9 has incarnation 1. -/
def linked (d : Dev) : Dev :=
  { d with span := { d.span with incs := [(9, 1)], ports := { state := .ready } :: { state := .ready } :: List.replicate 10 {} } }

theorem forwards_none : ∀ q, portForwards (st (linked running)).work q 3 = false := fun q => by
  cases h : sendsFlow (st (linked running)).work 3 <;> simp only [portForwards, h] <;> rfl

theorem forwards_one :
    let i : Image := { img 4 with sections := [⟨2, 1, 0x800, 32⟩] }
    let s := st (linked { running with sched := { running.sched with images := [i] } }) [(0x1808, 3)]
    ∀ k, portForwards s.work k 3 = true ↔ k = 1 := by
  intro i s k
  constructor
  · intro h
    refine Classical.byContradiction fun hk => ?_
    have : i.secAt 2 k = none := by
      have : (1 == k) = false := by simpa using fun e => hk e.symm
      simp [Image.secAt, Image.section?, i, this]
    have e : slotTable s.work i k = [] := by simp only [slotTable, this]
    have : s.dev.sched.images = [i] := rfl
    simp [portForwards, this, e] at h
  · rintro rfl; decide +kernel

/- forwards_none and forwards_one give the two premises about every port. -/
theorem witness_data_flits :
    ({ flit 1 0 false 3 0 with uncorr := true } : Flit).uncorr = true ∧ ({ flit 1 0 false 3 0 with crc := 0 } : Flit).crc ≠ flitCrc (flit 1 0 false 3 0) ∧
    soundFlit (flit 1 0 false 3 0) ∧
    (let s := st (linked running)
     portCarries (s.work.port 0) = true ∧ s.dev.span.ports.length = 12 ∧ isStale s.dev 9 2 = true ∧ isStale s.dev 9 1 = false ∧
       armedSites s.work 3 0 = []) ∧
    (let a : FlowArm := { flow := 3, send := false, index := 0, addr := 0, flits := 1, placed := [], lastBeat := 99, reduce := false, sent := 0 }
     let s := st (linked { running with cores := { flows := [a] } :: List.replicate 17 {} })
     armedSites s.work 3 0 = [0] ∧ 0 ∉ s.dev.noc.fenced ∧ (s.work.core 0).flows.find? (fun g => g.flow == 3 && !g.send) = some a) ∧
    (let i : Image := { img 4 with sections := [⟨2, 1, 0x800, 32⟩] }
     let s := st (linked { running with sched := { running.sched with images := [i] } }) [(0x1808, 3)]
     (s.work.port 1).transit.length < 128) := by
  simp only [soundFlit]; decide +kernel

/-- The running stack with port 0 of our choice. -/
def withPort (x : PortS) (b : Beat := running.beat) : State :=
  st { running with beat := b, span := { ports := x :: List.replicate 11 {}, incs := [(9, 1)] } }

def report (session kind : Nat) : FwReport :=
  { kind := kind, id := 9, inc := 1, round := 1, session := session, page := 0, missingTotal := 0, missingBits := 0 }

theorem witness_flits_travel :
    (let a : FlowArm := { flow := 3, send := true, index := 0, addr := 0x1000, flits := 2, placed := [], lastBeat := 99, reduce := false, sent := 0 }
     let i : Image := { img 4 with sections := [⟨1, 0, 0x400, 256⟩, ⟨2, 1, 0x800, 64⟩], ports := [1] }
     let s := st { running with sched := { running.sched with images := [i] }
                                cores := { steps := [flying 7 (desc 7 [])], flows := [a], spanFlits := [(3, 0, [])] } :: List.replicate 17 {} }
       [(0x1800, 1), (0x1805, 1), (0x1808, 3), (0x1820, 2), (0x1825, 1), (0x1828, 3)]
     let c := s.work.core (siteOf s.dev 0)
     c.flows.find? (fun a => a.flow == 3 && a.send) = some a ∧
       ((liveCtx s.work (siteOf s.dev 0) 0 0).map fun x => decide (1 < flitsDue s.work x 3)) = some true ∧
       a.sent + (c.spanFlits.filter fun f => f.1 == 3).length = 1 ∧ 1 < a.flits ∧ siteOf s.dev 0 ∉ s.dev.noc.fenced ∧ c.spanFlits.length < 1280 ∧
       (addrKey s.dev (0x1000 + 256 * 1)).isSome = true) ∧
    soundFlit (flit 4 5 false 1 0) ∧
    (let s := st (linked running)
     portCarries (s.work.port 1) = true ∧ mgmtStale s.dev (flit 4 5 false 1 0) = false ∧ s.dev.sched.haveActive = true ∧
       (flit 4 5 false 1 0).dst ≠ s.dev.span.deviceId ∧ uroute s.work 5 = 0 ∧ portCarries (s.work.port 0) = true ∧
       groupOf s.work (flit 4 0 true 1 0).dst = some (0, false, 0) ∧ bits (flit 4 0 true 0xFF 0x100000).seq 20 4 = 1) ∧
    soundFlit (flit 5 0 false 0 0) ∧
    (let s := st (linked running)
     groupOf s.work 0 = some (0, false, 0) ∧ portTrained (s.work.port 0) = true) ∧
    (let s := st { span := { bootIn := 15, bootValid := true, bootLocal := false }, beat := { role := .master } }
     groupOf s.work 0 = some (15, false, 0) ∧ s.dev.span.ports.length = 12 ∧ s.dev.beat.role = .master ∧
       (report 0 1).session = s.dev.fw.sendSession ∧ 1 ≤ (report 0 4).kind ∧ (report 0 4).kind ≤ 4) := by
  simp only [soundFlit]; decide +kernel

def hello (id port echo way : Nat) : Hello :=
  { port := port, id := id, inc := 1, oneWayValid := true, oneWay := way, txTime := 0, echoTime := echo, turnaround := 0, arrival := 200 }

def admission (kind target inc w : Nat) : AdmitRec :=
  { kind := kind, target := target, newInc := inc, term := 0, admSeq := 1, effectWbc := w, issueWbc := 0 }

theorem witness_port_records :
    (let s := withPort { state := .ready, expId := 9, expPort := 2 }
     s.dev.span.ports.length = 12 ∧ portTrained (s.work.port 0) = true ∧ (hello 8 2 1 0).id ≠ (s.work.port 0).expId ∧
       (hello 9 3 1 0).port ≠ (s.work.port 0).expPort) ∧
    (let s := withPort { state := .measuring, expId := 9, expPort := 2 }
     (s.work.port 0).state = .measuring ∧ (hello 9 2 1 3616).id = (s.work.port 0).expId ∧ (hello 9 2 1 3616).echoTime ≠ 0 ∧
       max (helloDelay (hello 9 2 1 3616)) (hello 9 2 1 3616).oneWay + 416 ≤ 64 * 63) ∧
    (let s := withPort { state := .ready, switch := some ⟨7, 200⟩ }
     portCarries (s.work.port 0) = true ∧ (s.work.port 0).switch = some ⟨7, 200⟩ ∧ (s.work.port 1).switch = none) ∧
    (let s := withPort {} { wbc := 100 }
     termAhead s.dev.beat.term (admission 1 9 2 164).term = false ∧ s.dev.span.admKeys = [] ∧ s.dev.beat.wbc + 64 ≤ (admission 1 9 2 164).effectWbc ∧
       (admission 1 9 2 163).effectWbc < s.dev.beat.wbc + 64) ∧
    (∀ r ∈ [admission 1 9 2 100, admission 2 9 0 100, admission 1 0 5 100, admission 2 0 0 100],
     let s := st { span := { admits := [r] }, beat := { wbc := 100 } }
     s.dev.span.admits = [r] ∧ r.effectWbc ≤ s.dev.beat.wbc ∧ s.dev.span.dismissed = false ∧ s.dev.boot.parts.length = 4) := by
  refine ⟨?_, ?_, ?_, ?_, ?_⟩ <;> decide +kernel

theorem witness_port_states :
    (let v : W32 := 0x50000
     v.getLsbD 16 = true ∧ v.getLsbD 18 = true ∧ (0 : W32).getLsbD 16 = false) ∧
    (∀ x ∈ [PortState.down, .lost, .misplaced], ((withPort { state := x }).work.port 0).state = x) ∧
    routerUsable (withPort {}).dev.noc.failed (portSite 0) = true ∧
    (∀ e ∈ [(true, 31250), (false, 3125000)],
     let s := withPort { state := .training, fastNow := e.1 } { wbc := e.2 }
     (s.work.port 0).state = .training ∧ 3 ≤ laneCount 7 ∧ 3 ≤ laneCount 15 ∧
       stateLasted s.work 0 (if (s.work.port 0).fastNow then 31250 else 3125000) = true) ∧
    (∀ e ∈ [(true, 73529412), (false, 735294118)],
     let s := withPort { state := .qualifying, fastNow := e.1 } { wbc := e.2 }
     (s.work.port 0).state = .qualifying ∧ stateLasted s.work 0 (qualBeats (s.work.port 0)) = true) ∧
    (let s := withPort { state := .ready, lanes := 15 }
     liveState (s.work.port 0) ∧ bitAt (s.work.port 0).lanes (3 : Fin 4) = true ∧ (s.work.port 0).switch = none) ∧
    (let s := withPort { state := .degraded, lanes := 15, switch := some ⟨7, 100⟩ }
     (s.work.port 0).switch = some ⟨7, 100⟩ ∧ 100 ≤ s.dev.beat.wbc ∧ liveState (s.work.port 0) ∧ 3 ≤ laneCount 7 ∧ laneCount 6 < 3) ∧
    (let s := withPort { state := .paused } { wbc := 125000 }
     (s.work.port 0).state = .paused ∧ (s.work.port 0).pauseSince + 125000 ≤ s.dev.beat.wbc) ∧
    (∀ x ∈ (withPort {}).dev.span.ports, x.state = .down) ∧ (∃ x ∈ (withPort { state := .ready }).dev.span.ports, x.state ≠ .down) := by
  simp only [liveState]; decide +kernel

/-- Both halves of the link are up. -/
def linkUp : HostLink := { halves := [{ state := 2 }, { state := 2 }] }

/-- The running stack with a host link of our choice. -/
def hosted (h : HostLink) : State := st { running with host := h }

def hostFlit (kind seq : Nat) : HostFlit :=
  let f : HostFlit := { seq := seq, kind := kind, ackSeq := 0, ackValid := true, retryReq := false, credit := [0, 0, 0, 0, 0], units := [], crc := 0, uncorr := false }
  { f with crc := crc32c (hostFlitBytes f) }

theorem witness_halves :
    (let s := hosted {}
     s.dev.host.halves.length = 2 ∧ (s.work.half 0).state ≠ 2 ∧ s.dev.boot.power ≠ .off ∧ halfUsable s.dev 0 = true ∧ halfUsable s.dev 1 = true) ∧
    ((hosted linkUp).work.half 1).state = 2 ∧
    ({ hostFlit 0 0 with uncorr := true } : HostFlit).uncorr = true ∧ (hostFlit 2 0).kind = 2 ∧
    (let s := hosted { linkUp with halves := [{ state := 2, rxGot := true, rxSeq := 4095 }, {}] }
     (hostFlit 1 0).seq = (if (s.work.half 0).rxGot then ((s.work.half 0).rxSeq + 1) % 4096 else 0)) ∧
    (let s := hosted { linkUp with halves := [{ state := 2, resend := some 3 }, {}] }; (s.work.half 0).resend = some 3) ∧
    ((2 : BitVec 2).getLsbD (0 : Fin 2) = false ∧ (2 : BitVec 2).getLsbD (1 : Fin 2) = true ∧ (1 : Fin 2) ≠ 0) := by decide +kernel

theorem witness_half_flit (k n : Nat) : crc32c (hostFlitBytes (hostFlit k n)) = (hostFlit k n).crc := by
  simp only [hostFlit, hostFlitBytes]

/-- The stack with the first granule of column 0 open to cached host access, and a host link of our choice. -/
def cached (h : HostLink) : State :=
  st { running with host := h, prot := { running.prot with fillDone := true }, boot := { power := .ready }, sched := { haveActive := true } } [(setKey 0 0x10, 4)]

/-- The host reads and writes line 3 of column 0's DRAM; beyond its columns an address is unmapped. -/
theorem witness_host_requests :
    (let s := cached linkUp
     s.dev.host.halves.length = 2 ∧ halfShut s.work 0 = false ∧ (384 : Nat) % 128 = 0 ∧ accessCause s.work 384 128 false true = none ∧
       mailboxLocked s.work 384 = false ∧ behindReset s.work 384 = false ∧ (∀ x ∈ s.dev.host.txns, x.line ≠ lineOf s.dev 384) ∧
       s.dev.host.filter.length < 2 ^ 20 ∧ addrKey s.dev 384 = some 384 ∧ accessCause s.work 0x3700000000 128 false true = some 1 ∧
       s.dev.map.errValid = false ∧ csrOffset s.work 384 = none ∧ accessCause s.work 384 4 false false = none ∧
       accessCause s.work 384 128 true false = none ∧ s.dev.map.mig.mirroring = false ∧ ownsLine s.dev.host (lineOf s.dev 384) = false ∧
       leavingGranule s.work 384 = none ∧ fencedAt s.work 384 = none) ∧
    (∀ o, place 1 384 ≠ .mailbox o) ∧
    (let s := cached { linkUp with filter := [(3, true), (lineOf running 0x3700000000, true)] }
     ownsLine s.dev.host (lineOf s.dev 384) = true ∧ accessCause s.work 384 128 true true = none ∧ behindReset s.work 384 = false ∧
       ownsLine s.dev.host (lineOf s.dev 0x3700000000) = true ∧ 0x3700000000 % 128 = 0 ∧ accessCause s.work 0x3700000000 128 true true = some 1) ∧
    ErrorFree (cached linkUp).dev ∧ NoneWait (cached linkUp).dev := by
  refine ⟨by decide +kernel, fun o => ?_, by decide +kernel, ⟨rfl, rfl, rfl⟩, by simp only [NoneWait]; decide⟩
  have : place 1 384 = .dram 0 384 := by decide
  simp [this]

theorem witness_snoops :
    (let x : Txn := ⟨3, .devWrite 384 (.step 0 0) [7] [true], true, 0⟩
     let s := hosted { linkUp with txns := [x] }
     s.dev.host.txns.find? (fun t => t.line == lineOf s.dev 384 && t.snooping) = some x ∧ addrKey s.dev 384 = some 384) ∧
    (let x : Txn := ⟨3, .backInv 0, true, 0⟩
     let s := cached { linkUp with txns := [x], filter := [(3, true)] }
     s.dev.host.txns.find? (fun t => t.line == lineOf s.dev 384 && t.snooping) = some x ∧ ownsLine s.dev.host (lineOf s.dev 384) = true ∧
       accessCause s.work 384 128 true true = none) ∧
    (let x : Txn := ⟨3, .backInv 0, true, 0⟩
     let s := st { running with host := { linkUp with txns := [x], filter := [(3, true)] }, beat := { wbc := 31250 } }
     s.dev.host.txns.find? (fun t => t.line == lineOf s.dev 384 && t.snooping) = some x ∧ x.since + 31250 ≤ s.dev.beat.wbc) ∧
    (let x : Txn := ⟨3, .shared 0 5 384, false, 0⟩
     let s := hosted { linkUp with txns := [x] }
     (∀ w ∈ s.dev.host.txns, w.line = 3 → w.snooping = false) ∧ s.dev.host.txns.find? (fun w => w.line == 3) = some x ∧
       lineOf s.dev 384 = 3 ∧ s.dev.host.filter.length < 2 ^ 20 ∧ leavingGranule s.work 384 = none) := by decide +kernel

def acc (write : Bool) (use : HostUse) : HostAcc :=
  { tag := 5, write := write, addr := 0, len := 64, data := [], mask := [], use := use, sent := true }

def cmd (group verb : Nat) (payload : List Byte) : CmdRun :=
  { mb := 0, group := group, verb := verb, seq := 0, payload := payload, refLen := 0, refOk := false, refErr := false, pendingRefs := 2
    inProgress := false, destPending := 0, deferred := false, final := none }

theorem witness_host_answers :
    (let d := desc 4 (List.replicate 8 0 ++ leBytes 8 (2 ^ 63) ++ leBytes 8 (bufAddr 0 256) ++ leBytes 4 64 ++ leBytes 4 1)
     let s := st { running with host := { linkUp with accs := [acc false (.stepRead 0 0 0)] }, cores := { steps := [flying 4 d] } :: List.replicate 17 {} }
     s.dev.host.accs.find? (fun a => a.sent && a.tag == 5) = some (acc false (.stepRead 0 0 0)) ∧ (List.replicate 64 (7 : Byte)).length = (acc false .evtProducer).len ∧
       (liveCtx s.work (siteOf s.dev 0) 0 0).map (fun x => (mvTranspose x.d, (moveAddr x.d 0x20).1)) = some (false, false) ∧
       (((liveCtx s.work 0 0 0).bind fun x => (movePieces x.d)[0]?).map fun m => (m.dst, decide (whose s.dev.map.n 0 m.dst = .buf))) =
         some (bufAddr 0 256, true) ∧ (addrKey s.dev (bufAddr 0 256)).isSome = true ∧
       (liveStep (s.work.core (siteOf s.dev 0)) 0).isSome = true) ∧
    (let s := hosted { linkUp with accs := [acc false (.cmdRef 0 0)], cmds := [cmd 4 1 []] }
     s.dev.host.accs.find? (fun a => a.sent && a.tag == 5) = some (acc false (.cmdRef 0 0)) ∧ openCmd s.dev 0 = some (cmd 4 1 []) ∧ 1 < (cmd 4 1 []).pendingRefs) ∧
    (∀ u ∈ [HostUse.stsProducer 0, .evtProducer, .stepWrite 0 0],
      (hosted { linkUp with accs := [acc true u] }).dev.host.accs.find? (fun a => a.sent && a.tag == 5) = some (acc true u)) := by decide +kernel

theorem witness_rings :
    (let s := hosted { linkUp with queue := [⟨[1], false⟩], ringSet := true, ringSize := 64 }
     s.dev.host.queue = [⟨[1], false⟩] ∧ s.dev.host.ringSet = true ∧ linkLost s.dev = false ∧
       ringFull s.dev.host.ringSize s.dev.host.produced s.dev.host.evtConsumer = false) ∧
    (hosted linkUp).dev.host.queue = [] ∧ ringFull 64 64 0 = true ∧ (hosted linkUp).dev.boot.power ≠ .off := by decide +kernel

theorem witness_mailboxes :
    (let s := hosted { linkUp with handovers := [0], taking := true }
     s.dev.host.handovers = [(0 : Mbx).val] ∧ s.dev.host.taking = true ∧ bitAt (fld (s.work.getN (mbxKey (256 * 0)) 256) 1 1) 0 = false ∧
       fld (s.work.getN (mbxKey (256 * 0)) 256) 6 2 ≤ 224) ∧
    HostQuiet (hosted linkUp) ∧
    (let s := hosted { linkUp with cmds := [cmd 1 6 []] }
     openCmd s.dev 0 = some (cmd 1 6 []) ∧ verbsOf 1 < 6) ∧
    (let r := { cmd 1 1 [] with inProgress := true, final := some (0, []) }
     (hosted { linkUp with cmds := [r] }).dev.host.cmds.find? (fun r => r.mb == 0 && r.inProgress && r.final.isSome && r.destPending == 0) = some r) := by
  refine ⟨by decide +kernel, ⟨rfl, rfl, rfl⟩, by decide +kernel, by decide +kernel⟩

theorem witness_registers :
    (st { boot := { power := .off } }).dev.boot.power = .off ∧ (st {}).dev.boot.power ≠ .off ∧
    ((4 : W32).getLsbD 2 = true ∧ anyLive (st running).dev = true ∧ anyLive (st {}).dev = false) ∧
    (let s := st { map := running.map, prot := { injAddr := 0x4000000000 } }
     injectable s.work s.dev.prot.injAddr ((6 : W32).toNat % 4) = true) ∧
    ((1 : W32).getLsbD 0 = true ∧ (0 : W32).getLsbD 0 = false) := by decide +kernel

theorem witness_boot_begins :
    (∀ e ∈ plainBootSteps ++ [(5, .fwLoad)], ∃ p ∈ [(PowerState.baseOn, e.1 - 1), (.memReady, 4)],
       let s := st { boot := { power := p.1, lastDone := p.2 } }
       s.dev.boot.power ≠ .off ∧ s.dev.boot.busyStep = 0 ∧ stepPermitted s.dev e.1 = true) ∧
    (st { boot := { ctrlWarm := true, warmOk := true } }).dev.boot.warmOk = true ∧ (st { boot := { busyStep := 1 } }).dev.boot.busyStep ≠ 0 ∧
    (∀ e ∈ plainBootSteps ++ [(5, .fwLoad)], stepPermitted (st { boot := { fatal := true } }).dev e.1 = false) ∧
    (let s := st { boot := { power := .memReady, manLen := 7380, imgLen := 64 } }
     stepPermitted s.dev 5 = true ∧ reverifies s.dev = false ∧ s.dev.boot.manLen = 7380) := by decide +kernel

/-- A boot step is busy. -/
def bootBusy (code : Nat) (b : Boot := {}) : State := st { boot := { b with stepCode := code, stepResult := 1, busyStep := code } }

theorem witness_boot_ends :
    (stepBusy (bootBusy 1).dev 1 = true ∧ defectsLeft (bootBusy 1).dev = false ∧ meshUsable (badRouters (addFindings (bootBusy 1).work []).dev) = true) ∧
    (let found : List BadUnit := [⟨6, 8, 0, true, false, false, false⟩, ⟨6, 9, 0, true, false, false, false⟩]
     meshUsable (badRouters (addFindings (bootBusy 1).work found).dev) = false) ∧
    (stepBusy (bootBusy 2).dev 2 = true ∧ (0 < 18 ∧ memUsable (addFindings (bootBusy 2).work []).dev 0 = true) ∧
      (let found : List BadUnit := (List.range 18).map fun k => ⟨7, k, 0, true, false, false, false⟩
       ∀ k, k < 18 → memUsable (addFindings (bootBusy 2).work found).dev k = false)) ∧
    (stepBusy (bootBusy 3).dev 3 = true ∧ (bootBusy 3).mem.wf = true ∧ memUsable (bootBusy 3).dev 0 = true ∧
      ∀ warm ∈ [true, false], fillBound (bootBusy 3 { warmStart := warm }).dev.boot.warmStart = if warm then 1024 else 312500) := by decide +kernel

/-- All zeros is the first codeword of the DRAM codec's vectors; every checker answers it, or a site answers that it is uncorrectable. -/
def answers (outcome : Nat) : List CheckerAnswer :=
  [⟨0, true, 0, 0, outcome, [], List.replicate 64 0, List.replicate 8 0⟩]

theorem witness_checker :
    (stepBusy (bootBusy 4).dev 4 = true ∧ (bootBusy 4).dev.boot.power = .baseOn ∧ (bootBusy 4).dev.boot.warmStart = false) ∧
    (∀ e ∈ [((0 : Nat), ([] : List Nat)), (2, [0])],
      let failed := failedSites (answers e.1)
      let d := (addFindings (bootBusy 4).work (failed.map fun x => ⟨7, x, 0, false, false, false, false⟩)).dev
      failed = e.2 ∧ memUsable d 1 = true ∧ coreUsable d 1 = true) ∧
    (let s := bootBusy 4 { badUnits := (List.range 18).map fun k => ⟨7, k, 0, true, false, false, false⟩ }
     ∀ k, k < 18 → memUsable s.dev k = false ∨ coreUsable s.dev k = false) := by decide +kernel

theorem witness_waves :
    (let s := st { boot := { wavesBusy := true, wave := 4, wavesAt := 0, provSpares := [16] }, beat := { wbc := 93750 } }
     s.dev.boot.wave ≤ 4 ∧ s.dev.boot.wavesAt * 64 + 1500000 * s.dev.boot.wave < (s.dev.beat.wbc + 1) * 64 ∧ s.dev.power.clocksStopped = false ∧
       16 ∈ waveSites s.dev 4) ∧
    (let s := st { map := running.map, boot := { wavesBusy := true, ramped := true, powered := [0] } }
     s.dev.boot.wave < 4 ∧ 0 ∈ waveSites s.dev s.dev.boot.wave ∧ 0 ∈ s.dev.boot.powered ∧ coreUsable (addFindings s.work []).dev 0 = true ∧
       coreUsable (addFindings s.work [⟨7, 0, 0, true, false, false, false⟩]).dev 0 = false ∧ 0 ∉ ([] : List Site).map (·.val) ∧
       0 ∈ ([0] : List Site).map (·.val)) ∧
    (let s := st { running with fw := { segPieces := [(0, [(1, [7])])] } }
     assoc s.dev.fw.segPieces 0 = some [(1, [7])] ∧ (∀ p ∈ [(1, [(7 : Byte)])], p.1 ≠ 0) ∧ (∃ p ∈ [(1, [(7 : Byte)])], p.1 = 1) ∧
       (messageWay s.work 24 0).contains 0 = true ∧ 0 < s.dev.noc.sites.length) := by
  refine ⟨?_, ?_, ?_⟩ <;> decide +kernel

/-- A command whose references have come, in mailbox 0. -/
def ask (group verb : Nat) (payload : List Byte) : CmdRun := { cmd group verb payload with pendingRefs := 0 }

/-- A stack with a command of the host in mailbox 0. -/
def asked (r : CmdRun) (d : Dev := {}) (m : Store := []) : State := st { d with host := { linkUp with cmds := [r] } } m

/-- The premises that hold of a command that waits in a quiet stack. -/
theorem asked_ready (g v need : Nat) (p : List Byte) (d : Dev) (m : Store) (hm : m.wf = true) (hl : lengthOk (ask g v p) need = true) :
    Ready (asked (ask g v p) d m) 0 g v need (ask g v p) :=
  ⟨rfl, rfl, rfl, rfl, rfl, by simp [groupBusy, asked, st, linkUp, ask, cmd], rfl, hl, rfl, rfl, hm⟩

theorem witness_turned_away : ∀ e ∈ mailboxRows 0,
    let busy := { ask e.2.1 1 [] with inProgress := true, mb := 1 }
    let bad := { ask e.2.1 e.2.2.1 [] with refErr := true }
    let long := ask e.2.1 e.2.2.1 (List.replicate 225 0)
    let s := st { host := { linkUp with cmds := [busy, ask e.2.1 e.2.2.1 []] } }
    openCmd s.dev 0 = some (ask e.2.1 e.2.2.1 []) ∧ (e.2.1 ≠ 6 ∨ 2 < e.2.2.1 → groupBusy s.dev e.2.1 e.2.2.1 = true) ∧
      openCmd (asked bad).dev 0 = some bad ∧ bad.refErr = true ∧ openCmd (asked long).dev 0 = some long ∧ lengthOk long e.2.2.2 = false := by
  decide +kernel

/-- Every mailbox row can run: some payload has a right length. -/
theorem witness_right_length : ∀ e ∈ mailboxRows 0, lengthOk (ask e.2.1 e.2.2.1 (List.replicate e.2.2.2 0)) e.2.2.2 = true := by decide +kernel

theorem witness_boot_fault_span :
    (st { boot := { power := .linksQualified } }).dev.boot.power = .linksQualified ∧ (st {}).dev.boot.power ≠ .linksQualified ∧
    (let r := ask 1 2 (leBytes 8 0x1000 ++ leBytes 4 4); destOk (r.field 0 8) = true ∧ 4 ≤ r.field 8 4 ∧ lengthOk r 0xC = true) ∧
    (let r := ask 7 1 (leBytes 8 0x1000 ++ leBytes 4 64)
     r.field 0 8 < 2 ^ 52 ∧ r.field 0 8 % 4096 = 0 ∧ ringSizeOk (r.field 8 4) = true ∧ lengthOk r 0xC = true ∧ (asked r).dev.host.queue = []) ∧
    (let r := ask 7 2 [0]; r.field 0 1 < running.map.n ∧ lengthOk r 1 = true) ∧
    (let s := asked (ask 7 3 [0]) { map := running.map, boot := { cleanSites := [0] } }
     s.dev.boot.cleanSites.contains (siteOf s.dev ((ask 7 3 [0]).field 0 1)) = true) ∧
    (let r := ask 9 1 (List.replicate 0x48 0)
     placeReserved r = false ∧ r.field 0x40 8 = 0 ∧ anyLive (asked r).dev = false ∧ (∀ x ∈ (asked r).dev.span.ports, x.state = .down) ∧ lengthOk r 0x48 = true) ∧
    (let r := ask 9 2 [3]; nth [some Role.lone, some .member, some .master, some .standby] (r.field 0 1) none = some .standby ∧ lengthOk r 1 = true) ∧
    (let r := ask 9 3 (leBytes 8 64); r.field 0 8 < 2 ^ 56 ∧ loadAllowed (asked r).dev = true ∧ lengthOk r 8 = true) ∧
    (let r := ask 9 4 [9, 0, 1]; r.field 0 2 < 2048 ∧ r.field 2 1 ≠ 0 ∧ lengthOk r 3 = true) ∧
    (let r := ask 9 5 [9, 0]; r.field 0 2 < 2048 ∧ lengthOk r 2 = true) ∧
    (let r := ask 9 6 [1, 0]; lengthOk r 2 = true ∧ ∀ p ∈ (asked r).dev.beat.points, p.w ≠ holdPointFor (asked r).work) ∧
    (let r := ask 9 7 [0, 0, 0, 0]
     let p : HoldPoint := { w := 0, closed := true, index := some 0 }
     let s := asked r { beat := { role := .master, points := [p] } }
     lengthOk r 4 = true ∧ s.dev.beat.role = .master ∧ p ∈ s.dev.beat.points ∧ p.closed = true ∧ p.len = 0 ∧ p.release = none ∧ p.index = some (r.field 0 4) ∧
       ∀ q ∈ s.dev.beat.points, q.index = p.index → q = p) ∧
    (let r := ask 9 8 (leBytes 4 0 ++ leBytes 4 1 ++ leBytes 8 0x1000)
     lengthOk r 0x10 = true ∧ destOk (r.field 8 8) = true ∧ r.field 0 4 ≤ (entry 1).index ∧ (entry 1).index < r.field 0 4 + r.field 4 4) ∧
    (let r := ask 9 9 (leBytes 4 0x8000001F); lengthOk r 4 = true ∧ bits (r.field 0 4) 5 11 = 0 ∧ bits (r.field 0 4) 28 3 = 0) := by
  refine ⟨?_, ?_, ?_, ?_, ?_, ?_, ?_, ?_, ?_, ?_, ?_, ?_, ?_, ?_, ?_⟩ <;> decide +kernel

theorem leNat_leBytes (n v : Nat) (h : v < 256 ^ n) : leNat (leBytes n v) = v := by
  induction n generalizing v with
  | zero => simp at h; simp [leBytes, leNat, h]
  | succ n ih =>
    have : v / 256 < 256 ^ n := by rw [Nat.pow_succ] at h; omega
    simp only [leBytes, leNat, ih _ this, BitVec.toNat_ofNat]; omega

/-- An empty field defect list for this device. -/
theorem witness_defect_list : parseDefects (leBytes 4 0x46444C31 ++ leBytes 4 0 ++ leBytes 8 Config.serial.toNat) 4096 = some [] := by
  have h := leNat_leBytes 8 Config.serial.toNat (Config.serial.isLt)
  have e : fld (leBytes 4 0x46444C31 ++ leBytes 4 0 ++ leBytes 8 Config.serial.toNat) 8 8 = Config.serial.toNat := by
    simpa [fld, slice, leBytes] using h
  have c : fld (leBytes 4 0x46444C31 ++ leBytes 4 0 ++ leBytes 8 Config.serial.toNat) 4 4 = 0 := rfl
  unfold parseDefects
  rw [if_pos ⟨rfl, c ▸ Nat.zero_le _, c ▸ Nat.zero_le _, e, Nat.le_refl 16⟩]
  rfl

theorem witness_resets_begin :
    (let r := ask 1 5 [1, 0]
     let s := asked r { map := running.map }
     lengthOk r 2 = true ∧ r.field 0 1 = 1 ∧ r.field 1 1 < s.dev.map.n ∧ s.dev.power.clocksStopped = false ∧ sitesLive s.work [siteOf s.dev 0] = false ∧
       (∀ x ∈ [siteOf s.dev 0], x < 18)) ∧
    (let r := ask 1 5 [2, 5]
     r.field 0 1 = 2 ∧ r.field 1 1 < 6 ∧ sitesLive (asked r).work [15, 16, 17] = false) ∧
    (let r := ask 1 5 [3, 0]
     let s := asked r running
     r.field 0 1 = 3 ∧ r.field 1 1 < 4 ∧ s.dev.power.clocksStopped = false ∧ 6 ≤ s.dev.boot.power.code ∧ nth s.dev.boot.disabling (r.field 1 1) .no = .no ∧ colsOf s.work 0 = [0] ∧
       (∀ c ∈ colsOf s.work (r.field 1 1), siteOf s.dev c < 18)) ∧
    (let r := ask 1 5 [4, 0]; r.field 0 1 = 4 ∧ migrating (asked r running).dev.map.mig = false ∧ 2 ≤ (asked r running).dev.boot.power.code) ∧
    (let r := ask 1 5 [5, 0]; r.field 0 1 = 5 ∧ (asked r).dev.host.halves.length = 2) := by decide +kernel

def inReset (level : Nat) : Boot := { power := .running, rstBusy := true, rstLevel := level, rstTest := true, rstSites := [0], powered := [0] }

theorem witness_resets_end :
    (∀ level ∈ [1, 2, 3, 4, 5],
      let s := st { boot := inReset level }
      resetting s.dev level = true ∧ ordersArrived s.dev = true) ∧
    ordersArrived (st { boot := inReset 1, noc := { fences := [⟨0, 0, 0⟩] } }).dev = false ∧
    (let s := st { running with boot := { inReset 3 with parts := [.faultStop, .idle, .idle, .idle] } }
     nth s.dev.boot.disabling s.dev.boot.rstTarget .no = .no ∧ s.dev.boot.parts.length = 4 ∧ partState s.dev s.dev.boot.rstTarget = .faultStop ∧
       colAt s.dev 0 = some 0 ∧ 0 ∈ s.dev.boot.powered ∧ assoc s.dev.noc.fenceWhy 0 = none ∧ ordersArrived s.dev = true) ∧
    (st { boot := inReset 4 }).dev.host.heldWb = [] ∧
    (let s := st { running with boot := { running.boot with disabling := [.cut, .cutForReset, .drain 99, .no] } }
     s.dev.boot.disabling.length = 4 ∧ partState s.dev 0 ≠ .faultStop ∧ nth s.dev.boot.disabling (0 : Part) .no = .cut ∧
       nth s.dev.boot.disabling (1 : Part) .no = .cutForReset ∧ nth s.dev.boot.disabling (2 : Part) .no = .drain 99 ∧ 99 < s.dev.beat.wbc ∧
       partDrained s.work (2 : Part) = true) := by decide +kernel

theorem witness_schedule_runs :
    (let s := st { running with sched := { running.sched with runs := [{ image := some 0x1000, start := 100, startPending := true }, {}, {}, {}] }
                                boot := { power := .ready } }
     (nth s.dev.sched.runs (0 : Part) {}).startPending = true ∧ firstBeatOf s.dev (nth s.dev.sched.runs (0 : Part) {}).start = true ∧
       partState s.dev 0 = .idle ∧ s.dev.boot.parts.length = 4 ∧ s.dev.sched.runs.length = 4) ∧
    (∀ rep ∈ [true, false],
      let i := { img 4 with rep := rep }
      let s := st { running with sched := { running.sched with images := [i] }, beat := { running.beat with wbc := 1100 } }
      runImage s.dev (0 : Part) = some i ∧ partState s.dev (0 : Part) = .running ∧ firstBeatOf s.dev (runEnd (nth s.dev.sched.runs (0 : Part) {}) i) = true) ∧
    (∀ p ∈ [(⟨none, [], 0, 0⟩ : SwapPending), ⟨some 100, [], 0, 0⟩],
      let s := st { running with sched := { running.sched with swap := some p }, boot := { power := .coresUp } }
      s.dev.sched.swap = some p ∧ swapDue s.work p = true ∧ s.dev.boot.power = .coresUp) := by decide +kernel

theorem witness_set_commands :
    (let r := ask 2 1 (leBytes 4 0 ++ leBytes 4 1 ++ [7])
     lengthOk r 8 = true ∧ 8 + r.field 4 4 ≤ r.payload.length ∧ r.field 0 4 + r.field 4 4 ≤ 2 ^ 32 ∧ (asked r).dev.sched.swap = none) ∧
    (let r := ask 2 2 (leBytes 4 1 ++ leBytes 4 0 ++ leBytes 4 64 ++ leBytes 4 0 ++ leBytes 8 0x1000)
     lengthOk r 0x18 = true ∧ r.field 0 4 < 2 ∧ r.field 0xC 4 = 0 ∧ destOk (r.field 0x10 8) = true ∧ r.field 4 4 + r.field 8 4 ≤ 2 ^ 32 ∧ r.field 8 4 ≠ 0) ∧
    (∀ mode ∈ [0, 1, 2, 3],
      let r := ask 2 3 (leBytes 8 164 ++ [mode])
      lengthOk r 9 = true ∧ r.field 0 8 < 2 ^ 56 ∧ r.field 8 1 = mode.toNat ∧ (asked r running).dev.beat.aligned = true) ∧
    (let s := st { running with sched := { running.sched with swap := some ⟨some 164, [], 0, 0⟩ } }
     sbc s.dev + 64 ≤ 164 ∧ s.dev.sched.swap = some ⟨some 164, [], 0, 0⟩ ∧ 163 < sbc s.dev + 64) ∧
    swapCheck (st running).work (some 164) ≠ 0 ∧ swapCheck (st running).work none ≠ 0 := by
  refine ⟨?_, ?_, ?_, ?_, ?_, ?_⟩ <;> decide +kernel

theorem witness_power_runs :
    (let s := st { running with beat := { wbc := 31250 } }; s.dev.beat.wbc % 31250 = 0 ∧ s.dev.boot.power ≠ .off ∧ s.dev.power.sites.length = 18 ∧
      s.dev.boot.parts.length = 4 ∧ allParts s.work = [0]) ∧
    (let s := st { power := { grantSeq := some 1, grantAt := 0 }, beat := { wbc := 3125000 } }
     s.dev.power.grantSeq = some 1 ∧ s.dev.power.grantStale = false ∧ s.dev.power.grantAt + pwrCfg s.work 0xE 2 100 * 31250 ≤ s.dev.beat.wbc) ∧
    (let s := st { power := { envStale := false }, beat := { wbc := 3125000 } }; s.dev.power.envStale = false ∧ s.dev.power.envAt + 3125000 ≤ s.dev.beat.wbc) ∧
    (0 ∈ (st running).dev.boot.powered ∧ (1 ∉ (st running).dev.boot.powered) ∧ (∀ g ∈ ((st running).work.pow 0).gates, g.2 < cycNow running 5) ∧
      ((st running).work.pow 0).burstsWin < 64) ∧
    (let d := padTo 64 [4, 0, 0, 0, 1, 0, 0, 0, 0, 0, 0, 0, 0, 0, 0, 0, 5]
     let s := st { running with cores := { fetched := [(0, d)] } :: List.replicate 17 {} }
     (columnRun s.work 0).map (fun x => x.2.2.run) = some 0 ∧ (columnRun s.work 0).map (fun x => x.2.2.start) = some 100 ∧
       stepDesc s.work (siteOf s.dev 0) (img 4) 0 0 = some d ∧ opOf d ≠ 13 ∧ 0 < fld d 4 1) ∧
    (let b : Boost := ⟨0, 0, 100, 50, true⟩
     let s := st { running with power := { sites := { boosts := [b] } :: List.replicate 17 {} } }
     b ∈ (s.work.pow (siteOf s.dev 0)).boosts ∧ boostOver s.work (siteOf s.dev 0) b = true) := by
  refine ⟨?_, ?_, ?_, ?_, ?_, ?_⟩ <;> decide +kernel

theorem witness_power_commands :
    ((st running).dev.boot.power ≠ .off ∧ (st running).mod.tripLatched = false ∧ (71 : Nat) < 72 ∧ allParts (st running).work = [0]) ∧
    (∀ w ∈ [300, 2000], let r := ask 6 1 (leBytes 4 w ++ leBytes 4 2 ++ leBytes 8 0)
      lengthOk r 0x10 = true ∧ 300 ≤ r.field 0 2 ∧ r.field 0 2 ≤ 2000 ∧ r.field 8 8 < 2 ^ 56 ∧ seqAhead (some 1) (r.field 4 4) = true ∧
        seqAhead (some 2) (r.field 4 4) = false) ∧
    (let r := ask 6 2 (leBytes 4 2 ++ leBytes 8 0 ++ [15, 0, 0, 0])
     lengthOk r 0x10 = true ∧ r.field 0xC 1 < 16 ∧ r.field 0xE 2 = 0 ∧ bitAt (r.field 0xC 1) 3 = true ∧ r.field 0xA 2 < 300 ∧ bitAt (r.field 0xC 1) 0 = true) ∧
    lengthOk (ask 6 3 [0, 0, 0, 0]) 4 = true ∧ (∀ k ∈ [0, 1, 2], (ask 6 4 [k]).field 0 1 = k.toNat ∧ lengthOk (ask 6 4 [k]) 1 = true) := by decide +kernel

theorem witness_reset_form : State.reset.mem.wf = true ∧ State.reset.dev.cores.length = 18 ∧ State.reset.dev.power.sensors.length = 330 :=
  ⟨rfl, rfl, List.length_replicate⟩

/-- The window's boundary addresses with 16 columns. -/
theorem witness_window :
    place 16 0x4800000000 = .dram 0 0 ∧ place 16 (0x4800000000 + 8191) = .dram 0 8191 ∧ place 16 (0x4800000000 + 8192) = .dram 1 0 ∧
    place 16 (0x4800000000 + 131072) = .dram 0 8192 ∧ place 16 0x77FFFFFFFF = .dram 15 0x2FFFFFFFF ∧
    place 1 (0x4800000000 + 0x300000000) = .unmapped ∧ place 0 0x4800000000 = .unmapped := by decide +kernel

theorem witness_trip : (st {}).dev.boot.power ≠ .off ∧ (pins { tripLatched := true }).mod.tripLatched = true ∧ (42499 : Nat) < 42500 := by decide

/-- A configuration set that every check of R85 passes while the map has no column: the bytes that are not zero, by their offsets. -/
def tinySet : List (Nat × Byte) :=
   [(0, 1), (12, 80), (16, 64), (17, 18), (20, 64), (24, 80), (28, 16), (29, 12), (32, 128), (33, 18), (36, 32), (40, 160), (41, 18),
   (44, 64), (48, 224), (49, 18), (52, 64), (56, 96), (57, 12), (60, 80), (61, 1), (64, 176), (65, 13), (68, 144), (69, 4), (72, 32),
   (73, 19), (76, 32), (3520, 15), (4672, 255), (4673, 255), (4674, 255), (4675, 255), (4676, 255), (4677, 255), (4678, 255), (4679,
   255), (4680, 255), (4681, 255), (4682, 255), (4683, 255), (4684, 255), (4685, 255), (4686, 255), (4687, 255), (4722, 255), (4723,
   255), (4736, 44), (4737, 1), (4738, 44), (4739, 1), (4740, 4), (4741, 4), (4742, 1), (4743, 1), (4744, 1), (4745, 1), (4747, 20),
   (4750, 10), (4768, 80), (4769, 80), (4770, 70), (4771, 80), (4772, 10), (4784, 8), (4788, 8), (4792, 8), (4796, 8), (4800, 8),
   (4804, 8), (4808, 8), (4812, 8), (4816, 8), (4820, 8), (4824, 8), (4828, 8), (4832, 60), (4834, 1), (4896, 1), (4902, 1), (4904,
   1), (4908, 1)]

/-- A stack with no column whose shadow set is that one. -/
def withSet : State :=
  st { beat := { aligned := true } } (tinySet.map fun c => (setKey 1 c.1, c.2))

/-- An image of 128 bytes without columns, with its SHA-256 digest (computed outside Lean). -/
def tinyImage : Store :=
   [(0, 0x31), (1, 0x49), (2, 0x53), (3, 0x51), (4, 0x01), (8, 0x80), (17, 0x80), (32, 0x01), (96, 0xd5), (97, 0xec), (98, 0x3f),
   (99, 0xb2), (100, 0x51), (101, 0x2f), (102, 0xe2), (103, 0x31), (104, 0xa8), (105, 0xb2), (106, 0x9d), (107, 0x68), (108, 0xf7),
   (109, 0xf2), (110, 0x31), (111, 0x2c), (112, 0xe1), (113, 0x80), (114, 0xdd), (115, 0x54), (116, 0xcd), (117, 0x1e), (118, 0x3f),
   (119, 0x37), (120, 0xab), (121, 0x3d), (122, 0x4d), (123, 0x93), (124, 0x7b), (125, 0x15), (126, 0xbd), (127, 0xf6)]

/-- A stack that holds that image at address 0. -/
def withImage (i : List Image) : State :=
  st { running with sched := { haveActive := true, images := i }, boot := { power := .ready } } tinyImage

theorem get_unlisted (m : Store) (lo hi k : Nat) (h : (m.all fun c => decide (c.1 < lo) || decide (hi ≤ c.1)) = true) (h1 : lo ≤ k) (h2 : k < hi) :
    m.get k = 0 := by
  induction m with
  | nil => rfl
  | cons c r ih =>
    simp only [List.all_cons, Bool.and_eq_true, Bool.or_eq_true, decide_eq_true_eq] at h
    have : c.1 ≠ k := by omega
    rw [show Store.get (c :: r) k = Store.get r k by simp [Store.get, assoc, this]]
    exact ih h.2

theorem leNat_zeros (l : List Byte) (h : ∀ b ∈ l, b = 0) : leNat l = 0 := by
  induction l with
  | nil => rfl
  | cons b r ih =>
    simp only [leNat, ih fun x hx => h x (List.mem_cons_of_mem b hx), h b List.mem_cons_self]
    rfl

/-- Fields in a stretch of the shadow set that lists nothing are zero. -/
theorem setField_unlisted (lo hi off n : Nat)
    (h : (withSet.mem.all fun c => decide (c.1 < setKey 1 lo) || decide (setKey 1 hi ≤ c.1)) = true) (h1 : lo ≤ off) (h2 : off + n ≤ hi) :
    setField withSet.work 1 off n = 0 := by
  unfold setField
  apply leNat_zeros
  intro b hb
  simp only [Sys.getN, List.mem_map, List.mem_range] at hb
  obtain ⟨i, hi', rfl⟩ := hb
  have := get_unlisted withSet.mem (setKey 1 lo) (setKey 1 hi) (setKey 1 off + i) h (by unfold setKey; omega) (by unfold setKey; omega)
  exact this

theorem tiny_region (off n : Nat) (h : off + n ≤ 3440) : secField withSet.work 1 2 off n = 0 := by
  unfold secField
  have e : secOff withSet.work 1 2 = 80 := by decide +kernel
  rw [e]
  exact setField_unlisted 80 3520 _ n (by decide +kernel) (by omega) (by omega)

theorem witness_region : regionFormatOk withSet.work 1 = true := by
  have hn : withSet.work.dev.map.n = 0 := rfl
  simp only [regionFormatOk, hn, granuleIn, zeroIn, Bool.and_eq_true, List.all_eq_true, List.mem_range, beq_iff_eq]
  refine ⟨fun k hk => tiny_region _ _ (by omega), fun c hc => ?_⟩
  rw [if_neg (Nat.not_lt_zero c)]
  simp only [Bool.and_eq_true, List.all_eq_true, List.mem_range, beq_iff_eq]
  exact ⟨by rw [tiny_region _ _ (by omega)]; simp [bits], fun g hg => tiny_region _ _ (by omega)⟩

theorem tiny_routes (off n : Nat) (h1 : 17 ≤ off) (h : off + n ≤ 1168) : secField withSet.work 1 7 off n = 0 := by
  unfold secField
  have e : secOff withSet.work 1 7 = 3504 := by decide +kernel
  rw [e]
  exact setField_unlisted 3521 4672 _ n (by decide +kernel) (by omega) (by omega)

theorem witness_routes : spanTablesOk withSet.work 1 = true := by
  have e0 : secField withSet.work 1 7 16 1 = 15 := by decide +kernel
  have es : bits (secField withSet.work 1 1 0x32 2) 12 4 = 15 := by decide +kernel
  simp only [spanTablesOk, es, Bool.and_eq_true, List.all_eq_true, List.mem_range]
  refine ⟨fun d hd => ?_, fun g hg => ?_⟩
  · by_cases h : d < 2
    · have : d = 0 ∨ d = 1 := by omega
      rcases this with rfl | rfl <;> simp [e0, bits]
      decide
    · have : d ≠ 0 := by omega
      simp [tiny_routes (16 + d / 2) 1 (by omega) (by omega), bits]
      exact this
  · simp [tiny_routes (0x410 + 8 * g) 1 (by omega) (by omega), tiny_routes (0x412 + 8 * g) 2 (by omega) (by omega), bits, bitAt]

theorem tiny_mesh (off n : Nat) (h : off + n ≤ 336) : secField withSet.work 1 6 off n = 0 := by
  unfold secField
  have e : secOff withSet.work 1 6 = 3168 := by decide +kernel
  rw [e]
  exact setField_unlisted 80 3520 _ n (by decide +kernel) (by omega) (by omega)

theorem witness_mesh_tables : meshTablesOk withSet.work 1 = true := by
  simp only [meshTablesOk, tiny_mesh 0 1 (by omega), zeroIn, List.all_eq_true, List.mem_range, beq_iff_eq]
  exact fun k hk => tiny_mesh _ _ (by omega)

theorem witness_other_format : otherFormatOk withSet.work 1 = true := by
  simp only [otherFormatOk, Bool.and_eq_true]
  refine ⟨⟨⟨⟨⟨⟨by decide +kernel, by decide +kernel⟩, by decide +kernel⟩, by decide +kernel⟩, ?_⟩, by decide +kernel⟩, by decide +kernel⟩
  simp only [List.all_eq_true, List.mem_range]
  intro k hk
  simp [tiny_mesh (8 + k) 1 (by omega)]

theorem witness_swap_check : swapCheck withSet.work none = 0 ∧ swapCheck withSet.work (some 31250) = 0 := by
  have f : setFormatOk withSet.work 1 = true := by
    simp only [setFormatOk, witness_region, witness_other_format, Bool.and_true]; decide +kernel
  have t : (meshTablesOk withSet.work 1 && spanTablesOk withSet.work 1) = true := by rw [witness_mesh_tables, witness_routes]; rfl
  have b : withSet.dev.sched.bank = 0 := rfl
  have g : allGranules 0 = [] := rfl
  have n : withSet.dev.map.n = 0 := rfl
  have l : tooLate withSet.work 1 31250 = false := by simp [tooLate, encodeMost, typeChanges, n, g]; decide +kernel
  have m : mapOk withSet.work 1 = true := by decide +kernel
  have p : partitionOk withSet.work 1 = true := by decide +kernel
  have q : (powerLimitsOk withSet.work 1 && thermLimitsOk withSet.work 1) = true := by decide +kernel
  have h : scheduleOk withSet.work 1 none = true ∧ scheduleOk withSet.work 1 (some 31250) = true := by decide +kernel
  have o : latencyOk withSet.work 1 = true ∧ holdPropOk withSet.work 1 = true := by decide +kernel
  have w : withSet.dev.sched.swap.isSome = false ∧ anyLive withSet.dev = false := by decide +kernel
  simp [swapCheck, b, f, t, l, m, p, q, h, o, w]

/-- A manifest with one segment for the cores, of 24 zero bytes, with its SHA-256 digest (computed outside Lean). -/
def withManifest : State :=
  st {} ([(6, 1), (64, 2), (72, 24), (80, 157), (81, 144), (82, 142), (83, 207), (84, 182), (85, 178), (86, 86), (87, 222), (88, 248), (89, 180), (90, 154), (91, 124), (92, 80), (93, 78), (94, 108), (95, 136), (96, 156), (97, 75), (98, 14), (99, 65), (100, 254), (101, 108), (102, 227), (103, 224), (104, 24), (105, 99), (106, 221), (107, 123), (108, 97), (109, 162), (110, 10), (111, 160)].map fun c => (fwKey c.1, c.2))

def seg24 : FwSeg :=
  ⟨2, 0, 24, [157, 144, 142, 207, 182, 178, 86, 222, 248, 180, 154, 124, 80, 78, 108, 136, 156, 75, 14, 65, 254, 108, 227, 224, 24, 99, 221, 123, 97, 162, 10, 160]⟩

theorem witness_segment : columnSeg withManifest.work = some seg24 ∧ segmentGood seg24 [(0, List.replicate 24 0)] = true ∧
    segmentGood seg24 [] = false := by
  refine ⟨?_, ?_, ?_⟩ <;> decide +kernel

theorem witness_schedule_commands :
    (let r := ask 3 1 ([1, 0] ++ List.replicate 6 0 ++ leBytes 8 0 ++ leBytes 8 0x1000 ++ leBytes 4 64 ++ leBytes 4 0 ++ leBytes 8 0 ++ leBytes 4 0)
     lengthOk r 0x2C = true ∧ r.field 0 1 = 1 ∧ r.field 1 1 = 0 ∧ r.field 2 6 = 0 ∧ r.field 8 8 = 0 ∧ r.field 0x10 8 < 2 ^ 52 ∧ r.field 0x10 8 % 4096 = 0 ∧
       r.field 0x18 4 = 2 ^ (6 + 0) ∧ r.field 0x1C 4 = 0 ∧ r.field 0x20 8 = 0 ∧ (withImage []).dev.noc.fabricReset = false ∧
       (withImage []).dev.sched.rings.length = 4) ∧
    (∀ e ∈ [(true, true), (false, true), (true, false)],
     let s := st { (withImage []).dev with prot := { running.prot with dramErr := if e.2 then [] else [(0, [0, 1, 2])] } } (if e.1 then tinyImage else [])
     let audit := if imageFormatOk s.work 0 then ccRead s.work 0 (devField s.work 8 8) else (true, s.work)
     audit.1 = e.2 ∧ (loadCheck audit.2 0 1 false).1 = if e.1 then 0 else 1) ∧ ErrorFree (st running).dev ∧ NoneWait (st running).dev ∧
    (let r := ask 3 2 (leBytes 8 0x1000)
     let s := st { running with boot := { power := .ready } }
     lengthOk r 8 = true ∧ r.field 0 8 < 2 ^ 40 ∧ imageAt s.dev (r.field 0 8) = some (img 4) ∧ partLive s.dev (img 4).part = false) ∧
    (let r := ask 3 3 ([0] ++ List.replicate 7 0 ++ leBytes 8 164)
     let i := { img 4 with addr := 0, size := 128 }
     let s := withImage [i]
     lengthOk r 0x10 = true ∧ r.field 0 1 = 0 ∧ r.field 1 7 = 0 ∧ r.field 8 8 < 2 ^ 56 ∧ imageAt s.dev (imageIn s.work s.dev.sched.bank (r.field 0 1)) = some i ∧
       6 ≤ s.dev.boot.power.code ∧ s.dev.sched.haveActive = true ∧ partState s.dev (r.field 0 1) = .idle ∧
       nth s.dev.boot.disabling (r.field 0 1) .no = .no ∧ colsOf s.work (r.field 0 1) ≠ [] ∧ s.dev.beat.aligned = true ∧ sbc s.dev + 64 ≤ r.field 8 8 ∧
       (ccRead s.work i.addr i.size).1 = true ∧ digestNow (ccRead s.work i.addr i.size).2 i.addr i.size = true ∧
       digestNow (ccRead s.work 64 128).2 64 128 = false ∧ i.latencyBad = false ∧ s.dev.sched.runs.length = 4) ∧
    (∀ v ∈ [4, 5], lengthOk (ask 3 v [0]) 1 = true ∧ (ask 3 v [0]).field 0 1 = 0 ∧ partLive running 0 = true ∧ nth running.boot.disabling 0 .no = .no) := by
  refine ⟨?_, ?_, ⟨rfl, rfl, rfl⟩, by simp only [NoneWait]; decide, ?_, ?_, ?_⟩ <;> decide +kernel

/-- A stack with one column whose memories the host and the control complex may reach: its first granule is cached, nothing is loaded. -/
def quiet : Dev :=
  { running with prot := { running.prot with fillDone := true }, boot := { power := .ready }, sched := { haveActive := true } }

def openGranule : Store := [(setKey 0 0x10, 4)]

/-- No core is fenced, so that no address lies in a fenced core's buffer. -/
theorem fenced_none (d : Dev) (m : Store) (h : d.noc.fenced = []) (a : Nat) : fencedAt ⟨d, m, []⟩ a = none := by
  unfold fencedAt
  split <;> simp [h]

theorem witness_memory_commands :
    (let r := ask 4 1 (leBytes 8 0 ++ leBytes 8 0x1000 ++ leBytes 8 64)
     let s := asked r quiet openGranule
     lengthOk r 0x18 = true ∧ r.field 8 8 < 2 ^ 40 ∧ r.field 0x10 8 % 64 = 0 ∧ sideCause s.work (r.field 8 8) (r.field 0x10 8) true = none ∧
       sideCause s.work (r.field 0 8) (r.field 0x10 8) false = none ∧ oneStretch s (r.field 0 8) (r.field 0x10 8) 0 ∧
       oneStretch s (r.field 8 8) (r.field 0x10 8) 0x1000) ∧
    (let r := ask 4 1 (leBytes 8 (2 ^ 63) ++ leBytes 8 0x1000 ++ leBytes 8 64); r.field 0 8 = 2 ^ 63 + 0 ∧ r.field 0x10 8 ≠ 0) ∧
    (let r := ask 4 2 (leBytes 8 0x1000 ++ leBytes 8 8 ++ leBytes 8 5)
     let s := asked r quiet openGranule
     lengthOk r 0x18 = true ∧ sideCause s.work (r.field 0 8) (r.field 8 8) true = none ∧ oneStretch s (r.field 0 8) (r.field 8 8) 0x1000) ∧
    (let r := ask 4 3 [0, 16]
     let s := asked r { quiet with map := { quiet.map with spare0 := 16 } }
     lengthOk r 2 = true ∧ r.field 0 1 < s.dev.map.n ∧ r.field 1 1 < 18 ∧ (∀ q < 4, partLive s.dev q = false) ∧ partOf s.work (r.field 0 1) = some 0 ∧
       r.field 1 1 = s.dev.map.spare0 ∧ Machine.migrating s.dev.map.mig = false) ∧
    ErrorFree quiet ∧ NoneWait quiet ∧ quiet.map.mig.mirroring = false ∧ quiet.noc.fabricReset = false := by
  refine ⟨?_, ?_, ?_, ?_, ⟨rfl, rfl, rfl⟩, ?_, rfl, rfl⟩ <;> simp only [oneStretch, NoneWait] <;> decide +kernel

/-- A loaded image at address 0 whose page store has two sequences with their table at 0x4000 and, on column 0, a pool of two frames. -/
def store0 (core : Core) (more : Store) : State :=
  let i := { img 4 with addr := 0, sections := [⟨4, 0xFFFF, 0x800, 0x840⟩] }
  st { quiet with sched := { haveActive := true, images := [i] }, cores := core :: List.replicate 17 {} }
    ([(0x801, 0x40), (0x808, 2), (0x859, 0x50), (0x860, 2), (0x864, 4)] ++ more)

theorem witness_page_store :
    (let r := ask 5 1 (leBytes 8 0x4000 ++ leBytes 4 1 ++ [7])
     let s := store0 {} []
     lengthOk r 0xC = true ∧ r.field 0 8 < 2 ^ 40 ∧ 0xC + r.field 8 4 ≤ r.payload.length ∧
       (s.dev.sched.images.map fun i => (i.pw, prepRuns s.work i.columns)) = [(some 0x800, false)] ∧
       (KvKind.protectedTable, 0x4000, 32) ∈ kvStructs s.work (readPw s.work 0x800) ∧ addrKey s.dev 0x4000 = some 0x4000) ∧
    (let r := ask 5 2 (leBytes 4 0 ++ leBytes 4 1 ++ leBytes 4 1 ++ [0])
     let s := store0 {} []
     lengthOk r 0xD = true ∧ r.field 0xC 1 < 4 ∧ (kvParams s.work (r.field 0xC 1)).map (fun p => (decide (r.field 0 4 < p.seqCount), decide (r.field 4 4 < p.seqCount),
         decide ((readSeq s.work p 0).stride = (readSeq s.work p 1).stride), decide ((readSeq s.work p 0).phase = (readSeq s.work p 1).phase),
         (bindEntries s.work (readSeq s.work p 0) (r.field 8 4) (pairedLists s.work p (readSeq s.work p 0) (readSeq s.work p 1))).isEmpty)) =
         some (true, true, true, true, true) ∧ prepRuns s.work (colsOf s.work (r.field 0xC 1)) = false ∧
       (kvParams s.work 0).map (fun p => recordUses s.work p (bindEntries s.work (readSeq s.work p 0) (r.field 8 4)
         (pairedLists s.work p (readSeq s.work p 0) (readSeq s.work p 1)))) = some []) ∧
    (let s := store0 {} [(0x4016, 1)]
     (kvParams s.work 0).map (fun p => decide ((readSeq s.work p 0).stride ≠ (readSeq s.work p 1).stride)) = some true) ∧
    (let r := ask 5 3 (leBytes 4 0 ++ leBytes 4 0 ++ [0])
     lengthOk r 9 = true ∧ (kvParams (store0 {} []).work (r.field 8 1)).map (fun p => decide (r.field 0 4 < p.seqCount)) = some true ∧
       seqInUse (store0 {} []).work (r.field 8 1) (r.field 0 4) = false ∧ prepRuns (store0 {} []).work (colsOf (store0 {} []).work (r.field 8 1)) = false ∧
       seqInUse (store0 { prep := some (prep0 2 true) } []).work (r.field 8 1) (r.field 0 4) = true) ∧
    (let r := ask 5 4 (leBytes 4 0 ++ leBytes 4 1)
     let s := store0 {} []
     lengthOk r 4 = true ∧ r.field 0 1 < s.dev.map.n ∧ partOf s.work (r.field 0 1) = some 0 ∧ r.payload.length % 4 = 0 ∧ r.field 1 3 = 0 ∧ prepRuns s.work (colsOf s.work 0) = false ∧
       (kvParams s.work 0).map (fun p => decide ((readPool s.work p 0).frames ≠ 0)) = some true ∧
       (kvParams s.work 0).map (fun p => (decide (r.field 4 4 < (readPool s.work p 0).frames),
         ((kvRead ⟨s.work, none⟩ (recordAddr (readPool s.work p 0) (r.field 4 4) + 2) 2).1).map (fun b => bitAt (leNat b) 0),
         decide (freeCount s.work (readPool s.work p 0) + (r.payload.length - 4) / 4 ≤ (readPool s.work p 0).freeSize))) = some (true, some false, true)) ∧
    lengthOk (ask 5 5 []) 0 = true ∧
    (let x := { ask 5 3 (leBytes 4 0 ++ leBytes 4 0 ++ [0]) with deferred := true, inProgress := true }
     let s := store0 {} []
     ((asked x).dev.host.cmds.find? fun r => r.deferred && r.inProgress && r.final.isNone) = some x ∧ seqInUse s.work (x.field 8 1) (x.field 0 4) = false ∧
       prepRuns s.work (colsOf s.work (x.field 8 1)) = false ∧ (kvParams s.work (x.field 8 1)).isSome = true) ∧
    (∀ a, fencedAt (store0 {} []).work a = none) ∧ oneStretch (store0 {} []) 0x4000 1 0x4000 := by
  refine ⟨?_, ?_, ?_, ?_, ?_, ?_, ?_, fenced_none _ _ rfl, ?_⟩ <;> (try simp only [oneStretch]) <;> decide +kernel

/-- A management flit of firmware: kind 1 a piece, kind 2 an end marker. -/
def fwFlit (kind session index : Nat) (payload : List Byte) : Flit :=
  let f : Flit := ⟨9, 1, 4, 0, false, 0xFF, kind * 2 ^ 20 + session * 2 ^ 13 + index, false, payload, 0, false, 0⟩
  { f with crc := flitCrc f }

/-- A stack that receives its firmware in session 5. -/
def receiving (f : Fw) : State := st (linked { boot := { power := .memReady, stepCode := 6, stepResult := 1, busyStep := 6 }, span := { bootIn := 0, bootLocal := true, bootValid := true }, fw := f })

theorem witness_firmware :
    (let s := bootBusy 5 { warmStart := true }
     stepBusy s.dev 5 = true ∧ fwReadsLeft s.dev = false ∧ reverifies s.dev = true ∧ reverifies (bootBusy 5).dev = false) ∧
    (let s := receiving { receiving := true, checking := true }; stepBusy s.dev 6 = true ∧ s.dev.fw.checking = true) ∧
    (let s := st { boot := { stepCode := 6, stepResult := 1, busyStep := 6 }, fw := { receiving := true }, beat := { wbc := 31250000 } }
     stepBusy s.dev 6 = true ∧ s.dev.fw.receiving = true ∧ s.dev.fw.checking = false ∧ s.dev.fw.lastFlit + 31250000 ≤ s.dev.beat.wbc) := by
  refine ⟨?_, ?_, ?_⟩ <;> decide +kernel

/-- A piece: of the first session met, of the session, of another one, held already, while the object is checked. -/
theorem witness_pieces : ∀ e ∈ [((0 : Nat), (5 : Nat), ([] : List Nat), false), (5, 5, [], false), (6, 5, [], false), (5, 5, [3], false), (5, 5, [], true)],
    let s := receiving { receiving := true, session := e.1, pieces := e.2.2.1, checking := e.2.2.2 }
    let f := fwFlit 1 e.2.1 3 [7]
    fwFlitHere s.work 0 f 1 = true ∧ s.dev.fw.session = e.1 ∧ bits f.seq 13 7 = e.2.1 ∧ f.seq % 8192 = 3 ∧ s.dev.fw.checking = e.2.2.2 ∧
      s.mem.wf = true := by decide +kernel

/-- An end marker of one chunk: of another session, of a round that is reported, of a whole object, of one that lacks its chunk in round 1 and
in round 4. -/
theorem witness_end_markers :
    (∀ e ∈ [((6 : Nat), (1 : Nat), ([] : List Nat), 0), (5, 1, [1], 0), (5, 1, [], 16), (5, 1, [], 0), (5, 4, [1], 0)],
      let s := receiving { receiving := true, session := 5, pieces := List.range e.2.2.2, reported := e.2.2.1 }
      let f := fwFlit 2 e.1 0 [BitVec.ofNat 8 e.2.1, 0, 0, 0, 1]
      fwFlitHere s.work 0 f 2 = true ∧ s.dev.fw.session ≠ 0 ∧ bits f.seq 13 7 = e.1 ∧ fld f.payload 0 1 = e.2.1 ∧ s.dev.fw.checking = false ∧
        (chunksLacking { s.dev.fw with chunks := some (fld f.payload 4 4) } = [] ↔ e.2.2.2 = 16)) ∧
    (let s := receiving {}; groupOf s.work 0 = some (0, true, 0) ∧ portTrained (s.work.port 0) = true ∧ s.dev.span.ports.length = 12) := by decide +kernel

/-- The first chunk and a piece of the second one are held. -/
def heldPart (reported : List Nat) : Fw := { receiving := true, session := 5, pieces := List.range 17, reported := reported }

theorem witness_marker_timeout :
    (∀ e ∈ [([] : List Nat), [1], [1, 3]],
      let s := st { boot := { stepCode := 6, stepResult := 1, busyStep := 6 }, fw := heldPart e, beat := { wbc := 8192 } }
      stepBusy s.dev 6 = true ∧ s.dev.fw.receiving = true ∧ s.dev.fw.checking = false ∧ s.dev.fw.lastEnd + 8192 ≤ s.dev.beat.wbc ∧
        chunksLacking s.dev.fw = [1] ∧ s.dev.fw.reported = e) ∧
    (∀ x ∈ [1], x ≤ 1) ∧ ∀ x ∈ [1, 3], x ≤ 3 := by decide +kernel

theorem chunks_held (r : List Nat) : 0 < chunksHeld (heldPart r) :=
  List.length_pos_of_mem (List.mem_filter.2 ⟨List.mem_range.2 (by decide : (0 : Nat) < 512), (by decide +kernel : chunkHeld (heldPart []) 0 = true)⟩)

theorem witness_identity :
    (let r := ask 8 1 (leBytes 8 0 ++ leBytes 4 7380 ++ leBytes 4 0 ++ leBytes 8 0 ++ leBytes 4 64)
     lengthOk r 0x1C = true ∧ (asked r).dev.beat.role ≠ .master ∧ (asked r { beat := { role := .master } }).dev.beat.role = .master ∧ r.destPending ≠ 1 ∧
       destOk (r.field 0 8) = true ∧ destOk (r.field 0x10 8) = true ∧ r.field 8 4 = 7380 ∧ sessionGoesOn ({} : Fw) = false) ∧
    (let s := st { fw := { sendWindow := some 0 } }
     s.dev.fw.sendWindow = some 0 ∧ (∀ p ∈ s.dev.span.ports, ownQueued s.dev p = 0) ∧ (∀ p ∈ s.dev.fw.progress, p.fwState ≠ 1)) ∧
    (let s := st { fw := { sendWindow := some 0, progress := [⟨9, 1, 0, [0], 0⟩] } }
     (fwEntry s.dev 9).fwState = 1 ∧ s.dev.fw.sendRound < 4) ∧
    (let r := ask 8 3 (leBytes 8 0 ++ leBytes 4 4); lengthOk r 0xC = true ∧ destOk (r.field 0 8) = true ∧ 4 ≤ r.field 8 4) ∧
    (let r := ask 8 4 (List.replicate 32 0 ++ leBytes 8 0 ++ leBytes 4 5748); lengthOk r 0x2C = true ∧ destOk (r.field 0x20 8) = true ∧ 5748 ≤ r.field 0x28 4) ∧
    (let f : Fw := { limit := 256, trees := [0] }
     f.flashFault = false ∧ f.nextLeaf ≠ f.limit ∧ f.nextLeaf / 2 ^ 15 ∈ f.trees ∧ ({} : Fw).nextLeaf / 2 ^ 15 ∉ ({} : Fw).trees) ∧
    (let f : Fw := { limit := 256, nextLeaf := 256, trees := [0] }
     f.nextLeaf = f.limit ∧ f.limit ≠ 2 ^ 25 ∧ nth ([] : List Bool) 0 true = true ∧ f.nextLeaf / 2 ^ 15 ∈ f.trees) ∧
    (let s := st { fw := { treeBusy := true, waiting := some ⟨0, []⟩ } }
     s.dev.fw.treeBusy = true ∧ s.dev.fw.waiting = some ⟨0, []⟩) := by
  refine ⟨?_, ?_, ?_, ?_, ?_, ?_, ?_, ?_⟩ <;> decide +kernel

/- Well-formedness: an ill-formed command for each check, which the check refuses. -/

def goodFlit : Flit := { flit 1 0 false 3 0 with payload := List.replicate 256 7 }

def goodMeasure : WindowMeasure :=
  { readings := List.replicate 330 0, vcoreUw := List.replicate 18 0, otherUw := 0, monitorFail := List.replicate 18 false
    monitorEasy := List.replicate 18 false }

def goodHostFlit : HostFlit := { hostFlit 1 0 with units := List.replicate 224 0 }

theorem test_wf_accepts : ∀ i ∈ [Instr.windowBoundary goodMeasure, .beatMarker 0 mark1, .holdRequest 0 (hold 64 1), .dataFlit 0 goodFlit,
    .linkHello 0 (hello 9 2 1 3616), .admitRecord 0 (admission 1 9 2 164), .firmwareReport 0 (report 5 1), .hostFlit 0 goodHostFlit,
    .meshRead 0 (packet 1 0 0 2 64 0 0 []), .bankRequestArrive (bankReq false .host) [] 63, .rdShared 0 2047 128, .rdUc 1 0 4 4,
    .wrUc 0 0 0 (List.replicate 128 0) (List.replicate 128 true), .registerWrite 0x7F00020024 0], i.wellFormed = true := by decide +kernel

theorem test_wf_refuses_marker : ∀ m ∈ [{ mark1 with srcId := 2048 }, { mark1 with srcInc := 256 }, { mark1 with term := 256 }, { mark1 with hop := 256 },
    { mark1 with masterId := 2048 }, { mark1 with setGen := 65536 }, { mark1 with wbc := 2 ^ 56 }, { mark1 with holdAcc := 2 ^ 56 }],
    Instr.wellFormed (.beatMarker 0 m) = false := by decide +kernel

theorem test_wf_refuses_hold : ∀ r ∈ [{ hold 64 1 with cause := 256 }, { hold 64 1 with reqSeq := 65536 }, { hold 64 1 with reqId := 2048 },
    { hold 64 1 with reqInc := 256 }, { hold 64 1 with term := 256 }, hold (2 ^ 56) 1, hold 64 65536, { hold 64 1 with ledgerIndex := 2 ^ 32 },
    { hold 64 1 with issueWbc := 2 ^ 56 }],
    Instr.wellFormed (.holdRequest 0 r) = false ∧ Instr.wellFormed (.holdConfirmation 0 r) = false ∧ Instr.wellFormed (.holdRelease 0 r) = false := by
  decide +kernel

theorem test_wf_refuses_records :
    (∀ r ∈ [admission 256 9 2 164, admission 1 2048 2 164, admission 1 9 256 164, { admission 1 9 2 164 with term := 256 }, { admission 1 9 2 164 with admSeq := 65536 },
      admission 1 9 2 (2 ^ 56), { admission 1 9 2 164 with issueWbc := 2 ^ 56 }], Instr.wellFormed (.admitRecord 0 r) = false) ∧
    (∀ h ∈ [hello 9 16 1 0, hello 2048 2 1 0, { hello 9 2 1 0 with inc := 256 }, hello 9 2 1 65536, { hello 9 2 1 0 with txTime := 2 ^ 32 },
      hello 9 2 (2 ^ 32) 0, { hello 9 2 1 0 with turnaround := 2 ^ 32 }], Instr.wellFormed (.linkHello 0 h) = false) ∧
    (∀ r ∈ [report 5 256, { report 5 1 with id := 2048 }, { report 5 1 with inc := 256 }, { report 5 1 with round := 256 }, report 128 1,
      { report 5 1 with page := 256 }, { report 5 1 with missingTotal := 65536 }], Instr.wellFormed (.firmwareReport 0 r) = false) := by
  refine ⟨?_, ?_, ?_⟩ <;> decide +kernel

theorem test_wf_refuses_flits :
    (∀ f ∈ [{ goodFlit with srcId := 2048 }, { goodFlit with srcInc := 256 }, { goodFlit with cls := 256 }, { goodFlit with dst := 2048 },
      { goodFlit with flow := 256 }, { goodFlit with seq := 2 ^ 32 }, flit 1 0 false 3 0], Instr.wellFormed (.dataFlit 0 f) = false) ∧
    (∀ f ∈ [{ goodHostFlit with seq := 4096 }, { goodHostFlit with kind := 16 }, { goodHostFlit with ackSeq := 4096 }, { goodHostFlit with credit := [] },
      { goodHostFlit with credit := [256, 0, 0, 0, 0] }, hostFlit 1 0], Instr.wellFormed (.hostFlit 0 f) = false) ∧
    (let p := packet 1 0 0 2 64 0 0 []
     ∀ q ∈ [{ p with kind := 256 }, { p with cls := 4 }, { p with dest := 32 }, { p with destEp := 4 }, { p with src := 32 }, { p with srcEp := 4 },
      { p with srcInc := 256 }, { p with status := 256 }, { p with tag := 65536 }, { p with addr := 2 ^ 40 }, { p with len := 4097 },
      { p with aux := 2 ^ 32 }, { p with payload := List.replicate 4097 0 }], Instr.wellFormed (.meshRead 0 q) = false) := by
  refine ⟨?_, ?_, ?_⟩ <;> decide +kernel

theorem test_wf_refuses_measures :
    (∀ m ∈ [{ goodMeasure with readings := [] }, { goodMeasure with vcoreUw := [] }, { goodMeasure with monitorFail := [] }, { goodMeasure with monitorEasy := [] },
      { goodMeasure with spoiled := some (2 ^ 32) }],
      Instr.wellFormed (.windowBoundary m) = false) ∧
    (∀ r ∈ [{ bankReq false .host with site := 18 }, { bankReq false .host with addr := 0x300000000 }, { bankReq false .host with mask := [] }],
      Instr.wellFormed (.bankRequestArrive r [] 0) = false) := by decide +kernel

theorem test_wf_refuses_numbers : ∀ i ∈ [Instr.matmul 0 64, .replayReissue 0 ⟨none, 64⟩, .replayReissue 0 ⟨some (2 ^ 32), 0⟩, .stepEnd 0 (2 ^ 24) 0, .stepEnd 0 0 64, .flowLastBeatExpiry 0 (2 ^ 24) 0, .flowLastBeatExpiry 0 0 64,
    .laneAdd 0 none 64, .rowAnd 0 0 0 64, .tileDrain 0 [] 64, .droopTrip 0 64, .bankRequestArrive (bankReq false .host) [] 64, .holdPointClose (2 ^ 56),
    .feederLineRequest 0 .warp ⟨64, 0⟩, .feederLineRequest 0 .warp ⟨0, 64⟩, .bufferBankReadGrant 0 ⟨64, 0⟩ [], .bufferBankReadGrant 0 ⟨0, 64⟩ [], .checkerComplete (answers 3),
     .granuleEncodeDone 0 192, .meshRequestTimeout 65536, .heavyPhaseStart 0 (2 ^ 24), .shuttleCtrlTimeout 32,
    .spanFlitRead 0 256, .laneState 0 16 0, .laneState 0 0 (2 ^ 56), .trainingLock 0 16, .qualificationEnd 0 16,
    .columnSegmentPiece 0 0 256 [] none, .columnSegmentPiece 0 0 0 (List.replicate 25 0) none, .thermalTrip 72], i.wellFormed = false := by
  decide +kernel

theorem test_wf_refuses_host : ∀ i ∈ [Instr.rdShared 0 2048 0, .rdShared 0 1 65, .rdShared 0 1 (2 ^ 40), .rdUc 0 2048 0 4, .rdUc 0 0 (2 ^ 40) 4, .rdUc 0 0 0 6,
    .rdUc 0 0 0 0, .rdUc 0 0 0 132, .wrUc 0 0 0 [] (List.replicate 128 true), .wrUc 0 0 0 (List.replicate 128 0) [], .wbDirty 0 0 0 [],
    .snpRsp 0 0 0 4 none, .snpRsp 0 0 0 0 (some []), .hdata 2048 [], .hdata 0 (List.replicate 129 0), .hack 2048, .herr 2048 0, .herr 0 256,
    .registerWrite 0x7F00000001 0, .registerWrite 0x7EFFFFFFFC 0, .registerWrite (2 ^ 40) 0, .bufferLineWrite 0 .drain ⟨1, 0⟩ (List.replicate 256 0) (List.replicate 256 true),
    .bufferLineWrite 0 .drain ⟨0, 64⟩ (List.replicate 256 0) (List.replicate 256 true),
    .bufferLineWrite 0 .drain ⟨0, 0⟩ [] (List.replicate 256 true), .bufferLineWrite 0 .drain ⟨0, 0⟩ (List.replicate 256 0) []], i.wellFormed = false := by decide +kernel

/- Results of the spec's worked examples. -/

/-- The check value of CRC-32C over the digits 1 to 9 (PRESUMED, log 8). -/
theorem test_crc32c : crc32c [0x31, 0x32, 0x33, 0x34, 0x35, 0x36, 0x37, 0x38, 0x39] = 0xE3069283 := by decide +kernel

/-- 05_number_formats, first worked example: E4M3 0x5C is 12 × 2^1, 0xB3 is -11 × 2^-4; E2M1 0xB7 holds 6 and -1.5. -/
theorem test_decode : (fmtOf 4).decode 0x5C = .fin false 12 1 ∧ (fmtOf 4).decode 0xB3 = .fin true 11 (-4) ∧
    unpackElems 7 [0xB7] = [7, 11] := by decide +kernel

/-- 05_number_formats: the product of 24 with code 130 and -0.6875 with code 120 is -1.03125, without a flag. -/
theorem test_product : product (.fin false 12 1, 130) (.fin true 11 (-4), 120) true = (0xBF840000, 0) := by decide +kernel

/-- 05_number_formats: the group sum and the accumulation of the worked example. -/
theorem test_group_sum :
    (groupSum [0x4B800000, 0x3F800000, 0x3F800000, 0xCB800000, 0x37E00000, 0xB0800000, 0, 0, 0, 0, 0, 0, 0, 0, 0, 0] true).1 = 0x40000040 ∧
    (accumulate 0x49800000 0x40000040 true).1 = 0x49800010 := by decide +kernel

/-- 05_number_formats: 480, 300, -17.3 and 0.01 in E4M3 under FLOOR and MAXFIT, 480 in E5M2 in both modes. -/
theorem test_convert :
    ([0x43F00000, 0x43960000, 0xC18A6666, 0x3C23D70A].map fun v => (convertElem v 127 (fmtOf 4) none true).1) = [0x7E, 0x79, 0xD9, 0x05] ∧
    ([0x43F00000, 0x43960000, 0xC18A6666, 0x3C23D70A].map fun v => (convertElem v 128 (fmtOf 4) none true).1) = [0x77, 0x71, 0xD1, 0x03] ∧
    chooseScale [0x43F00000] (fmtOf 4) 1 0 = 127 ∧ chooseScale [0x43F00000] (fmtOf 4) 0 0 = 128 ∧ chooseScale [0x43F00000] (fmtOf 3) 1 0 = 120 ∧
    (convertElem 0x43F00000 120 (fmtOf 3) none true).1 = 0x7C ∧ (convertElem 0x43F00000 120 (fmtOf 3) none false).1 = 0x7B := by decide +kernel

/-- 08_memory_columns: device address 0x0F_8123_4000 is tile 2, row 72, bank 18, granule 32 of column 5; the next unit is in bank 19. -/
theorem test_address : place 16 0x0F81234000 = .dram 5 0x81234000 ∧ tileOf 0x81234000 = 2 ∧ rowOf 0x81234000 = 72 ∧ bankOf 0x81234000 = 18 ∧
    granuleOf 0x81234000 = 32 ∧ bankOf 0x81236000 = 19 := by decide +kernel

/-- 11_on_die_networks: with router 3 failed, 0 to 17 takes 7 hops, 2 to 4 takes 4, 4 to 2 takes 4 with a layer switch at router 10. -/
theorem test_detour :
    let t := fun r d => nth (detourTables [3]) (18 * r + d) 0
    followRoute t 17 12 0 = some (7, false) ∧ followRoute t 4 12 2 = some (4, false) ∧ followRoute t 2 12 4 = some (4, true) ∧ t 10 2 / 8 % 2 = 1 := by
  decide +kernel

/-- 12_span_links: a failure of lane 2 in beat 9,000,005 over a link of 8 beats switches at beat 9,000,032. -/
theorem test_lane_switch :
    ((laneFailure 0 2 (withPort { state := .ready, lanes := 15, delay := 8 } { wbc := 9000005 }).work).port 0).switch = some ⟨11, 9000032⟩ := by
  decide +kernel

/-- 03_beats_schedules_sets: a request in beat 5,000,030 with 144 beats of propagation is for the hold point 5,000,256. -/
theorem test_hold_point : up64 (5000030 + 144 + 64) = 5000256 ∧ up64 (5000040 + 144 + 64) = 5000256 ∧
    (beatAdvance { wbc := 5000284, holdAcc := 1229, points := [{ w := 5000256, closed := true, len := 30 }] }).holdAcc = 1230 ∧
    (beatAdvance { wbc := 5000285, holdAcc := 1230, points := [{ w := 5000256, closed := true, len := 30 }] }).holdAcc = 1230 := by decide +kernel

/-- R288: 147 vectors for the RS codec, 111 for the SEC-DED logic. -/
theorem test_vectors : rsVectors.length = 147 ∧ secVectors.length = 111 := by decide +kernel

/-- R324: the generator polynomial of RS(544,514) as IEEE Std 802.3 lists it ends with 834 x + 523. -/
theorem test_generator : rsGenerator.drop 28 = [834, 523] := by decide +kernel

/- A step of the block. -/

/-- R499: beyond the absolute maximum of VIN54 the step stops with the fault; up to 64 V it does not. -/
theorem test_overvoltage : step { st {} with pending := [.vin54Lockout 64001] } = .fault .beyondAbsoluteMaximum ∧
    (match step { st {} with pending := [.vin54Lockout 64000, .pwrEnFall] } with
      | .next t => (t.mod.vinOk, t.pending) == (false, [.pwrEnFall])
      | _ => false) = true := ⟨rfl, by decide +kernel⟩

end Sys2Proof.Tests
end

section
/-! PROOF. The latch of THERM_TRIP_N (R39): what each command leaves in it, and that only PWR_EN low and the lockout release it. -/

namespace Sys2Proof.Machine

/- What each function of the pins leaves in the latch. -/

@[simp] theorem setStage_tripLatched (m : Module) (c : StageCond) : (setStage m c).tripLatched = m.tripLatched := by
  unfold setStage; split <;> rfl

@[simp] theorem stageCond_tripLatched (m : Module) (c : StageCond) (holds : Bool) :
    (stageCond m c holds).tripLatched = m.tripLatched := by
  unfold stageCond; split
  · rw [setStage_tripLatched]; split <;> rfl
  · rfl

theorem foldl_setStage_tripLatched (m : Module) (l : List StageCond) : (l.foldl setStage m).tripLatched = m.tripLatched := by
  induction l generalizing m with
  | nil => rfl
  | cons c r ih => exact (ih _).trans (setStage_tripLatched m c)

theorem clearFaults_tripLatched (m : Module) : (clearFaults m).tripLatched = m.tripLatched := foldl_setStage_tripLatched _ _

@[simp] theorem stageStop_tripLatched (m : Module) (y : Sys) : (stageStop m y).1.tripLatched = m.tripLatched := rfl

@[simp] theorem baseDieReset_tripLatched (m : Module) (y : Sys) : (baseDieReset m y).1.tripLatched = m.tripLatched := by
  unfold baseDieReset; split <;> rfl

theorem pwrEnRise_tripLatched (ms : Nat) (m : Module) : (pwrEnRise ms m).tripLatched = m.tripLatched := by
  unfold pwrEnRise; split
  · rfl
  · split <;> rfl

theorem pwrEnDeferredStart_tripLatched (m : Module) : (pwrEnDeferredStart m).tripLatched = m.tripLatched := by
  unfold pwrEnDeferredStart; split <;> rfl

theorem railsInRegulation_tripLatched (m : Module) : (railsInRegulation m).tripLatched = m.tripLatched := by
  unfold railsInRegulation; split <;> rfl

@[simp] theorem bootStart_tripLatched (m : Module) : (bootStart m).tripLatched = m.tripLatched := by
  unfold bootStart; split <;> rfl

theorem resetNRise_tripLatched (m : Module) : (resetNRise m).tripLatched = m.tripLatched := by
  unfold resetNRise; split
  · rfl
  · exact bootStart_tripLatched _

theorem resetNFall_tripLatched (ns : Nat) (m : Module) (y : Sys) : (resetNFall ns m y).1.tripLatched = m.tripLatched := by
  unfold resetNFall; split
  · rfl
  · split
    · rfl
    · split
      · dsimp only; split
        · rfl
        · exact baseDieReset_tripLatched _ _
      · exact baseDieReset_tripLatched _ _

theorem baseOnReached_tripLatched (m : Module) (y : Sys) : (baseOnReached m y).1.tripLatched = m.tripLatched := by
  unfold baseOnReached; split <;> rfl

theorem bootRomRestart_tripLatched (m : Module) (y : Sys) : (bootRomRestart m y).1.tripLatched = m.tripLatched := by
  unfold bootRomRestart; split <;> rfl

theorem spanRefclkLoss_tripLatched (m : Module) (y : Sys) : (spanRefclkLoss m y).1.tripLatched = m.tripLatched := by
  unfold spanRefclkLoss; split <;> rfl

/-- Of the two stops of VIN54, undervoltage alone releases a trip. -/
theorem vin54Lockout_tripLatched (mv : Nat) (m : Module) (y : Sys) :
    (vin54Lockout mv m y).1.tripLatched = (m.tripLatched && decide (42500 ≤ mv)) := by
  unfold vin54Lockout; split
  · next hlow => simp only [stageStop_tripLatched, Nat.not_le.mpr hlow, decide_false, Bool.and_false]
  · next hlow =>
    simp only [Nat.not_lt.mp hlow, decide_true, Bool.and_true]
    split
    · exact stageCond_tripLatched _ _ _
    · rfl

theorem vin54Start_tripLatched (m : Module) : (vin54Start m).tripLatched = m.tripLatched := by
  unfold vin54Start; split
  · rfl
  · exact stageCond_tripLatched _ _ _

theorem vin54OvervoltageRestart_tripLatched (m : Module) : (vin54OvervoltageRestart m).tripLatched = m.tripLatched := by
  unfold vin54OvervoltageRestart; split
  · exact stageCond_tripLatched _ _ _
  · rfl

theorem stageStatusCondition_tripLatched (c : StageCond) (holds : Bool) (m : Module) (y : Sys) :
    (stageStatusCondition c holds m y).1.tripLatched = m.tripLatched := by
  unfold stageStatusCondition; split
  · rfl
  · dsimp only; split
    · exact stageCond_tripLatched _ _ _
    · exact stageCond_tripLatched _ _ _

theorem pmbusTelemetryUpdate_tripLatched (a b c d e f g : BitVec 16) (m : Module) :
    (pmbusTelemetryUpdate a b c d e f g m).tripLatched = m.tripLatched := by
  unfold pmbusTelemetryUpdate; split <;> rfl

theorem pmbusAnswer_tripLatched (m : Module) (r : List Byte) : (pmbusAnswer m r).tripLatched = m.tripLatched := rfl

theorem pmbusInvalid_tripLatched (code : Byte) (m : Module) : (pmbusInvalid code m).tripLatched = m.tripLatched := by
  unfold pmbusInvalid; split <;> rfl

/-- The circuit needs no more than a powered stack and one of its 72 sensors. -/
theorem thermalTrip_tripLatched (sensor : Nat) (m : Module) (y : Sys) :
    (thermalTrip sensor m y).1.tripLatched = (m.tripLatched || (decide (y.dev.boot.power ≠ .off) && decide (sensor < 72))) := by
  unfold thermalTrip; split
  · next hkept =>
    rcases hkept with hoff | htrip | hsensor
    · simp only [hoff, ne_eq, not_true_eq_false, decide_false, Bool.false_and, Bool.or_false]
    · simp only [htrip, Bool.true_or]
    · simp only [Nat.not_lt.mpr hsensor, decide_false, Bool.and_false, Bool.or_false]
  · next hlatches =>
    obtain ⟨hpower, hrest⟩ := not_or.mp hlatches
    have hsensor : sensor < 72 := Nat.not_le.mp (not_or.mp hrest).2
    simp only [ne_eq, hpower, hsensor, not_false_eq_true, decide_true, Bool.and_self, Bool.or_true]

end Sys2Proof.Machine

namespace Sys2Proof

open Machine

/- What a command of each shape leaves in the latch. -/

theorem onSys_tripLatched {f : Sys → Sys} {s t : State} (h : onSys f s = .next t) : t.mod.tripLatched = s.mod.tripLatched := by
  rw [(onSys_keeps h).1]

theorem onMod_tripLatched {f : Module → Module} {s t : State} (hf : ∀ m, (f m).tripLatched = m.tripLatched)
    (h : onMod f s = .next t) : t.mod.tripLatched = s.mod.tripLatched := by
  cases h; exact hf s.mod

theorem onAll_tripLatched {f : Module → Sys → Module × Sys} {s t : State} (h : onAll f s = .next t) :
    t.mod.tripLatched = (f s.mod s.work).1.tripLatched := by
  cases h; rfl

/-- A read of the stage controller sets the bytes that it answers and nothing else of the pins. -/
theorem pmbusRead_tripLatched {r : Module → List Byte} {s t : State} (h : onMod (fun m => pmbusAnswer m (r m)) s = .next t) :
    t.mod.tripLatched = s.mod.tripLatched :=
  onMod_tripLatched (fun m => pmbusAnswer_tripLatched m (r m)) h

theorem execClearFaults_tripLatched {s t : State} (h : execClearFaults s = .next t) : t.mod.tripLatched = s.mod.tripLatched :=
  onMod_tripLatched (fun m => by
    split
    · exact clearFaults_tripLatched _
    · rfl) h

theorem execVin54Lockout_tripLatched {mv : Nat} {s t : State} (h : execVin54Lockout mv s = .next t) :
    t.mod.tripLatched = (s.mod.tripLatched && decide (42500 ≤ mv)) := by
  unfold execVin54Lockout at h; split at h
  · cases h
  · exact (onAll_tripLatched h).trans (vin54Lockout_tripLatched mv s.mod s.work)

/- What every command leaves in the latch, and which two release it. -/

/-- The latch after a command: three commands bear on it, and every other one leaves it. -/
def tripAfter (i : Instr) (s : State) : Bool :=
  match i with
  | .thermalTrip sensor => s.mod.tripLatched || (decide (s.dev.boot.power ≠ .off) && decide (sensor < 72))
  | .pwrEnFall => false
  | .vin54Lockout mv => s.mod.tripLatched && decide (42500 ≤ mv)
  | _ => s.mod.tripLatched

/-- Every command that completes leaves the latch as `tripAfter` says: the commands of the pins one by one, all others by their shape, for
they run on the stack and its memories and do not touch the pins. -/
theorem exec_tripLatched {i : Instr} {s t : State} (h : exec i s = .next t) : t.mod.tripLatched = tripAfter i s := by
  cases i with
  | thermalTrip sensor => exact (onAll_tripLatched h).trans (thermalTrip_tripLatched sensor s.mod s.work)
  | pwrEnFall => exact onAll_tripLatched h
  | vin54Lockout mv => exact execVin54Lockout_tripLatched h
  | pwrEnRise ms => exact onMod_tripLatched (pwrEnRise_tripLatched ms) h
  | pwrEnDeferredStart => exact onMod_tripLatched pwrEnDeferredStart_tripLatched h
  | railsInRegulation => exact onMod_tripLatched railsInRegulation_tripLatched h
  | resetNRise => exact onMod_tripLatched resetNRise_tripLatched h
  | baseDieResetRelease => exact onMod_tripLatched bootStart_tripLatched h
  | resetNFall ns => exact (onAll_tripLatched h).trans (resetNFall_tripLatched ns s.mod s.work)
  | baseOnReached => exact (onAll_tripLatched h).trans (baseOnReached_tripLatched s.mod s.work)
  | bootRomRestart => exact (onAll_tripLatched h).trans (bootRomRestart_tripLatched s.mod s.work)
  | spanRefclkLoss => exact (onAll_tripLatched h).trans (spanRefclkLoss_tripLatched s.mod s.work)
  | vin54Start => exact onMod_tripLatched vin54Start_tripLatched h
  | vin54OvervoltageRestart => exact onMod_tripLatched vin54OvervoltageRestart_tripLatched h
  | stageStatusCondition c holds => exact (onAll_tripLatched h).trans (stageStatusCondition_tripLatched c holds s.mod s.work)
  | pmbusTelemetryUpdate => exact onMod_tripLatched (pmbusTelemetryUpdate_tripLatched _ _ _ _ _ _ _) h
  | pmbusInvalidCommand code => exact onMod_tripLatched (pmbusInvalid_tripLatched code) h
  | clearFaults => exact execClearFaults_tripLatched h
  | capability | voutMode | statusByte | statusWord | statusVout | statusIout | statusInput | statusTemperature | statusCml
  | readVin | readIin | readVout | readIout | readTemperature1 | readPout | readPin | pmbusRevision | mfrId | mfrModel | mfrSerial =>
    dsimp only [exec] at h; exact pmbusRead_tripLatched h
  | _ => dsimp only [exec] at h; exact onSys_tripLatched h

/-- A latched trip is released by PWR_EN low and by the lockout below 42.5 V, and by nothing else. -/
theorem tripAfter_eq_false_iff {i : Instr} {s : State} (hl : s.mod.tripLatched = true) :
    tripAfter i s = false ↔ i = .pwrEnFall ∨ ∃ mv, i = .vin54Lockout mv ∧ mv < 42500 := by
  unfold tripAfter; split
  · simp only [hl, Bool.true_or, Bool.true_eq_false, reduceCtorEq, false_and, exists_false, or_false]
  · simp only [true_or]
  · next mv => simp only [hl, Bool.true_and, decide_eq_false_iff_not, Nat.not_le, reduceCtorEq, Instr.vin54Lockout.injEq, false_or,
      exists_eq_left']
  · next hfall hlock =>
    have hno : ¬(i = .pwrEnFall ∨ ∃ mv, i = .vin54Lockout mv ∧ mv < 42500) := by
      rintro (hi | ⟨mv, hi, -⟩)
      · exact hfall hi
      · exact hlock mv hi
    simp only [hl, hno, Bool.true_eq_false]

/-- Settles O59: a trip latches by `thermalTrip_tripLatched`, and `exec_tripLatched` leaves its release to two commands. -/
theorem tripStaysLatched : Obligations.TripStaysLatched := by
  refine ⟨fun s sensor hpower hsensor => ⟨_, rfl, ?_⟩, fun s t i h hl => ?_⟩
  · have hlatched : (thermalTrip sensor s.mod s.work).1.tripLatched = true := by
      simp only [thermalTrip_tripLatched, work_dev, ne_eq, hpower, hsensor, not_false_eq_true, decide_true, Bool.and_self, Bool.or_true]
    exact ⟨hlatched, fun ns => ⟨_, rfl, (resetNFall_tripLatched ns _ _).trans hlatched⟩⟩
  · rw [exec_tripLatched h]
    exact tripAfter_eq_false_iff hl

end Sys2Proof
end

section
/-! PROOF. The storage path: what a read or a write of the memories through their checkers leaves alone (R184, R244, R251, R273 to R280). -/

namespace Sys2Proof.Machine

variable {α : Type}

/-- A view that the storage path does not enter: the stored bytes and their protection, the reports that errors cause, and the cores whose
operands or retained ranges a write meets (R184, R273 to R280). -/
def OffStorage (v : Sys → α) : Prop :=
  ∀ y z : Sys, z = { y with
    log := z.log
    dev := { y.dev with
      host := z.dev.host, faults := z.dev.faults, prot := z.dev.prot, noc := z.dev.noc, cores := z.dev.cores, free := z.dev.free } } →
    v z = v y

namespace OffStorage

variable {v : Sys → α} (h : OffStorage v) (y : Sys)

include h

theorem host (f : HostLink → HostLink) : v (y.onHost f) = v y := h y _ rfl

theorem faults (f : Faults → Faults) : v (y.onFaults f) = v y := h y _ rfl

theorem prot (f : Prot → Prot) : v (y.onProt f) = v y := h y _ rfl

theorem noc (f : Noc → Noc) : v (y.onNoc f) = v y := h y _ rfl

theorem core (s : Nat) (f : Core → Core) : v (y.onCore s f) = v y := h y _ rfl

theorem free : v y.takeFree.2 = v y := h y _ rfl

theorem log (l : List MemOp) : v { y with log := l } = v y := h y _ rfl

end OffStorage

/-- A loop that carries a finding beside the work record keeps what each round keeps. -/
theorem foldl_snd_keeps {β κ : Type} (v : Sys → α) (l : List β) (f : κ × Sys → β → κ × Sys) (r : κ × Sys)
    (h : ∀ r b, v (f r b).2 = v r.2) : v (l.foldl f r).2 = v r.2 :=
  List.foldlRecOn (motive := fun q : κ × Sys => v q.2 = v r.2) l f rfl fun q hq b _ => (h q b).trans hq

section Storage

variable {v : Sys → α} (h : OffStorage v) (y : Sys) (who : Requester)

include h

theorem putMask_keeps (k : Nat) (bs : List Byte) (ms : List Bool) : v (y.putMask k bs ms) = v y := by
  induction bs generalizing y k ms with
  | nil => rfl
  | cons b bs ih =>
    cases ms with
    | nil => rfl
    | cons m ms =>
      refine (ih _ _ _).trans ?_
      cases m
      · rfl
      · exact h.log y _

theorem put_keeps (k : Nat) (bs : List Byte) : v (y.put k bs) = v y := by
  induction bs generalizing y k with
  | nil => rfl
  | cons b bs ih => exact (ih _ _).trans (h.log y _)

theorem checkOutcome_keeps (n corr defd : Nat) : v (checkOutcome y n corr defd).2 = v y := by
  unfold checkOutcome
  split
  · rfl
  split
  · rfl
  split
  · rfl
  · exact h.free y

theorem ceRecord_keeps (site : Nat) (f : FaultInfo) : v (ceRecord y site f) = v y := by
  unfold ceRecord
  dsimp only
  split
  · exact (h.prot _ _).trans (faultRec_keeps v y h.host h.faults _)
  · exact h.prot y _

theorem dramError_keeps (site off : Nat) (unc : Bool) : v (dramError y site off unc who) = v y := by
  simp only [dramError]
  split
  · split
    · exact h.prot y _
    · exact (faultRec_keeps v _ h.host h.faults _).trans (h.prot y _)
  · split
    · exact (event_keeps v _ h.host _ _).trans ((h.prot _ _).trans ((h.prot _ _).trans ((ceRecord_keeps h _ _ _).trans (h.prot y _))))
    · exact (h.prot _ _).trans ((ceRecord_keeps h _ _ _).trans (h.prot y _))

theorem bufError_keeps (site a : Nat) (unc : Bool) : v (bufError y site a unc who) = v y := by
  simp only [bufError]
  split
  · exact (faultRec_keeps v _ h.host h.faults _).trans (h.prot y _)
  · exact (ceRecord_keeps h _ _ _).trans (h.prot y _)

theorem checkDram_keeps (key len : Nat) : v (checkDram y key len who).2 = v y := by
  refine foldl_snd_keeps v _ _ (none, y) fun r e => ?_
  split
  · rfl
  have hcheck : v (checkOutcome r.2 e.2.length 2 6).2 = v r.2 := checkOutcome_keeps h _ _ _ _
  dsimp only
  split
  · rfl
  split <;> dsimp only
  · exact hcheck
  · exact (h.prot _ _).trans ((h.prot _ _).trans ((dramError_keeps h _ _ _ _ _).trans hcheck))
  · exact (dramError_keeps h _ _ _ _ _).trans hcheck

theorem checkBuf_keeps (key len : Nat) : v (checkBuf y key len who).2 = v y := by
  refine foldl_snd_keeps v _ _ (none, y) fun r e => ?_
  split
  · rfl
  have hcheck : v (checkOutcome r.2 e.2.length 1 2).2 = v r.2 := checkOutcome_keeps h _ _ _ _
  dsimp only
  split <;> dsimp only
  · exact hcheck
  · exact (h.prot _ _).trans ((bufError_keeps h _ _ _ _ _).trans hcheck)
  · exact (bufError_keeps h _ _ _ _ _).trans hcheck

/-- The check before a read or a read-modify-write, by the memory in which the key lies. -/
theorem checkStored_keeps (key len : Nat) :
    v (if isDramKey key then checkDram y key len who else if isBufKey key then checkBuf y key len who else (none, y)).2 = v y := by
  split
  · exact checkDram_keeps h y who key len
  split
  · exact checkBuf_keeps h y who key len
  · rfl

theorem readMem_keeps (key len : Nat) : v (readMem y key len who).2 = v y := by
  simp only [readMem]
  split
  · exact checkStored_keeps h y who key len
  · exact checkStored_keeps h y who key len

theorem wholeWrite_keeps (key : Nat) : v (wholeWrite y key) = v y := by
  simp only [wholeWrite]
  split
  · rfl
  · exact h.prot y _

theorem cancelWriteBack_keeps (key : Nat) : v (cancelWriteBack y key) = v y := by
  simp only [cancelWriteBack]
  split
  · exact h.prot y _
  · rfl

theorem writeUnit_keeps (u key : Nat) (data : List Byte) (mask : List Bool) : v (writeUnit y u key data mask who).2 = v y := by
  simp only [writeUnit]
  split
  · rfl
  split
  · exact (cancelWriteBack_keeps h _ _).trans ((put_keeps h _ _ _).trans (wholeWrite_keeps h y _))
  have hcheck := checkStored_keeps h y who key u
  split
  · exact hcheck
  · refine (cancelWriteBack_keeps h _ _).trans ((putMask_keeps h _ _ _ _).trans (Eq.trans ?_ hcheck))
    split
    · exact h.prot _ _
    · rfl

theorem noteOverwrite_keeps (key n : Nat) : v (noteOverwrite y key n) = v y := by
  simp only [noteOverwrite]
  split
  · rfl
  split
  · exact h.core y _ _
  · rfl

theorem writeMem_keeps (key : Nat) (data : List Byte) (mask : List Bool) : v (writeMem y key data mask who).2 = v y := by
  refine Eq.trans ?_ (noteOverwrite_keeps h y key data.length)
  exact foldl_snd_keeps v _ _ (none, noteOverwrite y key data.length) fun r _ => writeUnit_keeps h r.2 who _ _ _ _

theorem retHit_keeps (lo hi : Nat) (skip : Option (Nat × Nat)) : v (retHit y lo hi skip) = v y :=
  Sys.each_keeps v y _ _ fun z site _ => by
    dsimp only
    split
    · exact (Sys.each_keeps v _ _ _ fun z s _ => recordStep_keeps v z h.host h.faults h.noc _ _ _).trans (h.core z _ _)
    · rfl

theorem writeRaw_keeps (a : Nat) (data : List Byte) (mask : List Bool) (skip : Option (Nat × Nat)) :
    v (writeRaw y a data mask who skip).2 = v y := by
  unfold writeRaw
  generalize place y.dev.map.n a = p
  dsimp only
  split
  · rfl
  next k _ =>
    have hwrite := writeMem_keeps h y who k data mask
    refine (Sys.each_keeps v _ _ _ fun z n _ => retHit_keeps h z _ _ _).trans ?_
    split
    · split
      · exact (writeMem_keeps h _ _ _ _ _).trans hwrite
      · exact hwrite
    · exact hwrite

theorem performReq_keeps (r : BankReq) : v (performReq y r).2 = v y := by
  -- The kernel cannot afford to evaluate a key, in which a site counts 2 ^ 34: an unknown function stands for each.
  obtain ⟨key, hkey⟩ : ∃ key, dramKey = key := ⟨_, rfl⟩
  obtain ⟨addr, haddr⟩ : ∃ addr, dramAddr = addr := ⟨_, rfl⟩
  rw [performReq, hkey, haddr]
  split
  · dsimp only
    have hwrite := writeMem_keeps h y r.who (key r.site r.addr) r.data r.mask
    split
    · exact writeRaw_keeps h y _ _ _ _ _
    split
    · exact (writeRaw_keeps h _ _ _ _ _ _).trans hwrite
    · exact hwrite
  · exact readMem_keeps h y r.who _ _

theorem settleBank_keeps (id : Nat) : v (settleBank y id) = v y := by
  simp only [settleBank]
  split
  · rfl
  · refine (h.prot _ _).trans (foldl_snd_keeps v _ _ _ fun r w => ?_)
    split
    · rfl
    · exact performReq_keeps h _ _

theorem bankTurn_keeps (site off : Nat) : v (bankTurn y site off who) = v y := by
  simp only [bankTurn]
  have hsettle := settleBank_keeps h y (bankId site (tileOf off) (bankOf off))
  refine (h.prot _ _).trans ?_
  split
  · exact hsettle
  split
  · exact (h.core _ _ _).trans ((h.prot _ _).trans hsettle)
  · exact (h.prot _ _).trans hsettle

theorem takeTurns_keeps (key len : Nat) : v (takeTurns y key len who) = v y := by
  simp only [takeTurns]
  split
  · rfl
  · exact Sys.each_keeps v y _ _ fun z _ _ => bankTurn_keeps h z _ _ _

theorem writeDev_keeps (a : Nat) (data : List Byte) (mask : List Bool) (skip : Option (Nat × Nat)) :
    v (writeDev y a data mask who skip).2 = v y := by
  simp only [writeDev]
  split
  · rfl
  refine (writeRaw_keeps h _ _ _ _ _ _).trans ?_
  split
  · exact takeTurns_keeps h _ _ _ _
  · rfl

end Storage

end Sys2Proof.Machine
end

section
/-! PROOF. The cores in a beat: what the array, the drain path, replays and stops leave alone (R101 to R107, R278, R280, R478,
R485 to R491). -/

namespace Sys2Proof.Machine

variable {α : Type}

/-- A view that the stops and the hold requests do not enter which an error or a failed comparison brings about, nor the gated cycles of a
core (R280, R452, R478, R485 to R491). -/
def OffStops (v : Sys → α) : Prop :=
  (∀ y z : Sys, z = { y with dev := { y.dev with boot := z.dev.boot, sched := z.dev.sched, power := z.dev.power } } → v z = v y) ∧
    ∀ y cause len, v (requestHold y cause len) = v y

namespace OffStops

variable {v : Sys → α} (h : OffStops v) (y : Sys)

include h

theorem boot (f : Boot → Boot) : v (y.onBoot f) = v y := h.1 y _ rfl

theorem sched (f : Sched → Sched) : v (y.onSched f) = v y := h.1 y _ rfl

theorem power (f : Power → Power) : v (y.onPower f) = v y := h.1 y _ rfl

theorem hold (cause len : Nat) : v (requestHold y cause len) = v y := h.2 y cause len

end OffStops

section Cores

variable {v : Sys → α} (h : OffStorage v) (hs : OffStops v) (y : Sys)

include h hs

/- Stops and replays. -/

theorem stopSite_keeps (site cause : Nat) : v (stopSite y site cause) = v y := by
  unfold stopSite
  refine (hs.hold _ _ _).trans ?_
  split
  · exact faultStop_keeps v y h.host h.faults h.noc hs.boot h.core h.prot hs.sched _
  · rfl

theorem busError_keeps (site i cyc : Nat) : v (busError y site i cyc) = v y :=
  (stopSite_keeps h hs _ _ _).trans
    ((endStep_keeps v _ h.host h.faults h.noc hs.boot h.core _ _ _ _ _).trans (abandonReplay_keeps v y h.host h.faults h.core _ _))

theorem bufWrite_keeps (x : StepCtx) (a : Nat) (data : List Byte) : v (bufWrite y x a data) = v y := by
  have hwrite := writeDev_keeps h y x.who a data (fullMask data) none
  unfold bufWrite
  dsimp only
  split
  · exact (busError_keeps h hs _ _ _ _).trans hwrite
  · exact hwrite

theorem failMember_keeps (site attempts i : Nat) : v (failMember site attempts y i) = v y :=
  (endStep_keeps v _ h.host h.faults h.noc hs.boot h.core _ _ _ _ _).trans (h.core y _ _)

theorem replayRefused_keeps (site : Nat) (p : StepRun) (members : List StepRun) (r : Replay) :
    v (replayRefused y site p members r) = v y :=
  (stopSite_keeps h hs _ _ _).trans ((Sys.each_keeps v _ _ _ fun z _ _ => failMember_keeps h hs z _ _ _).trans
    ((faultRec_keeps v _ h.host h.faults _).trans (h.faults y _)))

omit hs in
theorem stopMember_keeps (site p i : Nat) : v (stopMember site p y i) = v y := by
  unfold stopMember
  split
  · rfl
  · exact (h.core _ _ _).trans (h.faults y _)

omit h in
theorem shortfallHold_keeps (cause release threatened : Nat) : v (shortfallHold y cause release threatened) = v y := by
  unfold shortfallHold
  split
  · rfl
  dsimp only
  split
  · rfl
  · exact hs.hold y _ _

theorem startReplay_keeps (site col : Nat) (i : Image) (p : StepRun) (members : List StepRun) (r : Replay) (now : Nat) :
    v (startReplay y site col i p members r now) = v y := by
  have hstopped : v (y.each ((p :: members).map (·.index)) (stopMember site p.index)) = v y :=
    Sys.each_keeps v y _ _ fun z _ _ => stopMember_keeps h z _ _ _
  unfold startReplay
  dsimp only
  split
  · exact (shortfallHold_keeps hs _ _ _ _).trans ((h.core _ _ _).trans ((h.faults _ _).trans hstopped))
  · exact (h.core _ _ _).trans ((h.faults _ _).trans hstopped)

theorem checkFault_keeps (site i cyc cls location detail count : Nat) (residual : F32) :
    v (checkFault y site i cyc cls location detail count residual) = v y := by
  have hchoice : ∀ (c : Bool) (col : Nat) (img : Image) (p : StepRun) (cs ms : List StepRun) (r : Replay) (now : Nat),
      v (if c then startReplay y site col img p cs r now else replayRefused y site p ms r) = v y := fun c _ _ _ _ _ _ _ => by
    cases c
    · exact replayRefused_keeps h hs y _ _ _ _
    · exact startReplay_keeps h hs y _ _ _ _ _ _ _
  unfold checkFault
  dsimp only
  split
  · rfl
  split
  · split
    · exact h.core y _ _
    · exact (replayRefused_keeps h hs _ _ _ _ _).trans (abandonReplay_keeps v y h.host h.faults h.core _ _)
  split
  · exact replayRefused_keeps h hs y _ _ _ _
  · exact hchoice _ _ _ _ _ _ _ _

/- The array and the drain path. -/

theorem gateTo_keeps (upTo site : Nat) : v (gateTo upTo y site) = v y := by
  unfold gateTo
  dsimp only
  split
  · rfl
  · exact (h.core _ _ _).trans (hs.power y _)

omit h in
theorem endGating_keeps (site : Nat) : v (endGating y site) = v y := by
  unfold endGating
  dsimp only
  split
  · rfl
  · exact hs.power y _

omit hs in
theorem reform_keeps (site : Nat) (r : Sys × Option Accs) (s : StepRun) : v (reform site r s).1 = v r.1 := by
  unfold reform
  split
  · rfl
  · exact h.core r.1 _ _

omit hs in
theorem reformStale_keeps (site : Nat) : v (reformStale y site) = v y := by
  unfold reformStale
  split
  · exact List.foldlRecOn (motive := fun r : Sys × Option Accs => v r.1 = v y) _ _ rfl
      fun r hr s _ => (reform_keeps h site r s).trans hr
  · rfl

omit hs in
theorem formFlags_keeps (site now : Nat) : v (formFlags y site now) = v y :=
  Sys.each_keeps v y _ _ fun z _ _ => (h.core _ _ _).trans (h.core z _ _)

omit hs in
theorem displaceMoves_keeps (site now : Nat) : v (displaceMoves y site now) = v y := by
  unfold displaceMoves
  split
  · rfl
  split
  · exact h.core y _ _
  · rfl

theorem writeTileRow_keeps (x : StepCtx) (t : Tile) (us : List (Nat × Nat × W32)) (i : Nat) : v (writeTileRow y x t us i) = v y := by
  have hflags : ∀ (c : Bool) (fl : Nat), v (if c then y else raiseFlags y x.site x.index .cvt fl) = v y := fun c fl => by
    split
    · rfl
    · exact h.core y _ _
  have hscales : ∀ (c : Bool) (bs : List ConvBlock) (z : Sys),
      v (if c then z.each bs fun y b => bufWrite y x (bufAddr x.col b.scaleAt) (leBytes 1 b.code) else z) = v z := fun c bs z => by
    split
    · exact Sys.each_keeps v z _ _ fun w b _ => bufWrite_keeps h hs w _ _ _
    · rfl
  unfold writeTileRow
  dsimp only
  split
  · exact (checkFault_keeps h hs _ _ _ _ _ _ _ _ _).trans ((hscales _ _ _).trans ((bufWrite_keeps h hs _ _ _ _).trans (hflags _ _)))
  · exact (hscales _ _ _).trans ((bufWrite_keeps h hs _ _ _ _).trans (hflags _ _))

theorem deliverRow_keeps (x : StepCtx) (r : Drain) (now : Nat) : v (deliverRow y x r now) = v y := by
  unfold deliverRow
  dsimp only
  split
  · exact h.core y _ _
  · exact (writeTileRow_keeps h hs _ _ _ _ _).trans (displaceMoves_keeps h y _ _)

theorem deliverRows_keeps (site now fuel : Nat) : v (deliverRows site now fuel y) = v y := by
  induction fuel generalizing y with
  | zero => rfl
  | succ fuel ih =>
    unfold deliverRows
    split
    · rfl
    split
    · exact (ih _).trans (h.core y _ _)
    split
    · exact (ih _).trans (h.core y _ _)
    dsimp only
    split
    · rfl
    · exact (ih _).trans ((deliverRow_keeps h hs _ _ _ _).trans (h.core y _ _))

theorem checkFeeds_keeps (site now : Nat) (s : StepRun) : v (checkFeeds site now y s) = v y := by
  unfold checkFeeds
  refine (h.core _ _ _).trans ?_
  split
  · rfl
  refine Sys.each_keeps v y _ _ fun z r _ => ?_
  split
  · rfl
  have hcheck := fun k n who => (checkBuf_keeps h (deliverTo z site r.1) who k n).trans (deliverRows_keeps h hs z _ _ _)
  dsimp only
  split
  · exact (busError_keeps h hs _ _ _ _).trans (hcheck _ _ _)
  · exact hcheck _ _ _

theorem settleCore_keeps (site now : Nat) : v (settleCore y site now) = v y :=
  (h.core _ _ _).trans ((formFlags_keeps h _ _ _).trans ((deliverRows_keeps h hs _ _ _ _).trans
    ((Sys.each_keeps v _ _ _ fun z _ _ => checkFeeds_keeps h hs z _ _ _).trans (reformStale_keeps h y _))))

theorem advanceCore_keeps (cyc site : Nat) : v (advanceCore cyc y site) = v y :=
  (settleCore_keeps h hs _ _ _).trans (gateTo_keeps h hs y _ _)

theorem coresToBeatEnd_keeps : v (coresToBeatEnd y) = v y :=
  Sys.each_keeps v y _ _ fun z _ _ => (endGating_keeps hs _ _).trans (advanceCore_keeps h hs z _ _)

end Cores

end Sys2Proof.Machine
end

section
/-! PROOF. What a beat boundary leaves alone once the counts have advanced: open holds end, ports and halves send (R46, R67, R326, R346,
R353, R367). -/

namespace Sys2Proof.Machine

variable {α : Type}

/-- A view that reads the memories and beat time only. -/
def OnlyBeat (v : Sys → α) : Prop := ∀ y z : Sys, z.base = y.base → z.log = y.log → z.dev.beat = y.dev.beat → v z = v y

namespace OnlyBeat

variable {v : Sys → α} (h : OnlyBeat v) (y : Sys)

include h

theorem boot (f : Boot → Boot) : v (y.onBoot f) = v y := h y _ rfl rfl rfl

theorem prot (f : Prot → Prot) : v (y.onProt f) = v y := h y _ rfl rfl rfl

theorem sched (f : Sched → Sched) : v (y.onSched f) = v y := h y _ rfl rfl rfl

theorem core (s : Nat) (f : Core → Core) : v (y.onCore s f) = v y := h y _ rfl rfl rfl

theorem noc (f : Noc → Noc) : v (y.onNoc f) = v y := h y _ rfl rfl rfl

theorem span (f : Span → Span) : v (y.onSpan f) = v y := h y _ rfl rfl rfl

theorem host (f : HostLink → HostLink) : v (y.onHost f) = v y := h y _ rfl rfl rfl

theorem fw (f : Fw → Fw) : v (y.onFw f) = v y := h y _ rfl rfl rfl

theorem power (f : Power → Power) : v (y.onPower f) = v y := h y _ rfl rfl rfl

theorem faults (f : Faults → Faults) : v (y.onFaults f) = v y := h y _ rfl rfl rfl

end OnlyBeat

section Sends

variable {v : Sys → α} (h : OnlyBeat v) (y : Sys)

include h

theorem releaseHeld_keeps : v (releaseHeld y) = v y := by
  unfold releaseHeld
  split
  · rfl
  refine (settlePower_keeps v _ h.host h.boot).trans (Sys.each_keeps v y _ _ fun z q _ => ?_)
  split
  · exact setPart_keeps v z h.host h.boot q _
  · rfl

theorem portBoundary_keeps (p : Nat) : v (portBoundary y p) = v y := by
  have hpause : ∀ (c : Bool) (f : PortS → PortS), v (if c then setPort (y.onPort p f) p .paused else y) = v y := fun c f => by
    cases c
    · rfl
    · exact (setPort_keeps v _ h.host h.boot h.span _ _).trans (h.span y _)
  unfold portBoundary
  dsimp only
  split
  · refine (h.span _ _).trans ((Sys.each_keeps v _ _ _ fun z q _ => ?_).trans (hpause _ _))
    split
    · split
      · exact faultStop_keeps v z h.host h.faults h.noc h.boot h.core h.prot h.sched _
      · rfl
    · rfl
  · exact hpause _ _

theorem takeSent_keeps (p flow : Nat) : v (takeSent y p flow).2 = v y := by
  unfold takeSent
  split
  · dsimp only
    exact h.span y _
  split
  · rfl
  split
  · rfl
  · dsimp only
    exact h.core y _ _

theorem fillSlot_keeps (w : Sys) (p s : Nat) : v (fillSlot w y p s) = v y := by
  have hout : ∀ (z : Sys) (f : PortS → PortS), v (z.onPort p f) = v z := fun z _ => h.span z _
  have hwindow : ∀ (c : Bool) (z : Sys) (f : Fw → Fw), v (if c then z.onFw f else z) = v z := fun c z f => by
    cases c
    · rfl
    · exact h.fw z f
  have hwithhold : ∀ (c : Bool) (z : Sys) (f g k : PortS → PortS),
      v (if c then (z.onPort p f).onPort p g else z.onPort p k) = v z := fun c z f g k => by
    cases c
    · exact hout z k
    · exact (hout _ g).trans (hout z f)
  unfold fillSlot
  dsimp only
  split
  · exact hout y _
  split
  · split
    · have hsent := takeSent_keeps h y p
      split
      · exact (hwithhold _ _ _ _ _).trans (hsent _)
      · exact hout y _
    · split
      · exact (hwithhold _ _ _ _ _).trans (hout y _)
      · exact (hout _ _).trans (hout y _)
  · split
    · exact (hwithhold _ _ _ _ _).trans ((hwindow _ _ _).trans (hout y _))
    · exact hout y _

theorem portBeat_keeps (w : Sys) (p : Nat) : v (portBeat w y p) = v y := by
  have hout : ∀ (z : Sys) (f : PortS → PortS), v (z.onPort p f) = v z := fun z _ => h.span z _
  unfold portBeat
  extract_lets x z
  have hz : v z = v y := hout y _
  split
  · exact (hout z _).trans hz
  split
  · split
    · exact (Sys.each_keeps v _ _ _ fun u _ _ => fillSlot_keeps h u _ _ _).trans ((hout z _).trans hz)
    · exact (hout z _).trans hz
  split
  · exact (hout z _).trans hz
  · exact hz

theorem sendAccs_keeps : v (sendAccs y) = v y :=
  Sys.each_keeps v y _ _ fun z a _ => by
    dsimp only
    split
    · rfl
    · exact (sendHost_keeps v _ h.host _).trans (h.host z _)

theorem halfBeat_keeps (k : Nat) : v (halfBeat y k) = v y := by
  unfold halfBeat
  dsimp only
  split
  · exact h.host y _
  · exact (h.host _ _).trans (h.host y _)

end Sends

end Sys2Proof.Machine
end

section
/-! PROOF. The beat boundary (R42, R44, R45): WBC and HOLD_ACC advance, and the memories stay where no tile drains. -/

namespace Sys2Proof.Machine

/- The counts. -/

theorem reclose_counts (b : Beat) (w : Nat) : (reclose b w).wbc = b.wbc ∧ (reclose b w).holdAcc = b.holdAcc := by
  unfold reclose
  dsimp only
  split <;> exact ⟨rfl, rfl⟩

theorem addRequest_counts (b : Beat) (w : Nat) (r : HoldReq) :
    (addRequest b w r).wbc = b.wbc ∧ (addRequest b w r).holdAcc = b.holdAcc := by
  unfold addRequest
  split <;> exact ⟨rfl, rfl⟩

/-- The memories at the start of the command, WBC and HOLD_ACC. -/
def baseAndCounts (y : Sys) : Store × Nat × Nat := (y.base, y.dev.beat.wbc, y.dev.beat.holdAcc)

theorem requestHold_counts (y : Sys) (cause len : Nat) : baseAndCounts (requestHold y cause len) = baseAndCounts y := by
  unfold requestHold
  dsimp only
  split
  · rfl
  refine (floodRec_keeps baseAndCounts _ (fun _ _ => rfl) _ _).trans ?_
  simp only [baseAndCounts, Sys.onBeat_base, Sys.onBeat_beat, reclose_counts, addRequest_counts]

theorem offStorage_baseAndCounts : OffStorage baseAndCounts := fun y z hz => by rw [hz]; rfl

theorem offStops_baseAndCounts : OffStops baseAndCounts := ⟨fun y z hz => by rw [hz]; rfl, requestHold_counts⟩

/-- What the cores do in a beat leaves the memories at the start of the command, WBC and HOLD_ACC. -/
theorem coresToBeatEnd_counts (y : Sys) :
    (coresToBeatEnd y).base = y.base ∧ (coresToBeatEnd y).dev.beat.wbc = y.dev.beat.wbc ∧
      (coresToBeatEnd y).dev.beat.holdAcc = y.dev.beat.holdAcc := by
  simpa only [baseAndCounts, Prod.mk.injEq] using coresToBeatEnd_keeps offStorage_baseAndCounts offStops_baseAndCounts y

/-- What a beat that begins forgets: hold points that are over, and records that are long past (R62, R66). -/
def forgetPast (b : Beat) : Beat := { b with
  points := b.points.filter fun p => !p.over b.wbc
  recent := b.recent.filter fun r => decide (b.wbc ≤ r.2.2.2.2 + 1024) }

theorem forgetPast_beatAdvance_wbc (b : Beat) : (forgetPast (beatAdvance b)).wbc = b.wbc + 1 := rfl

theorem forgetPast_beatAdvance_holdAcc (b : Beat) :
    (forgetPast (beatAdvance b)).holdAcc = b.holdAcc + if isHoldBeat b (b.wbc + 1) then 1 else 0 :=
  (apply_ite (b.holdAcc + ·) _ 1 0).symm

theorem onlyBeat_logAndBeat : OnlyBeat fun y : Sys => (y.log, y.dev.beat) := fun _ _ _ hlog hbeat => Prod.ext hlog hbeat

/-- Of a boundary, a view of beat time and the memories sees what the cores do to the end of the beat and the counts that advance. -/
theorem beatBoundary_keeps {α : Type} {v : Sys → α} (h : OnlyBeat v) (y : Sys) (hrun : y.dev.beat.clockStopped = false) :
    v (beatBoundary y) = v (((coresToBeatEnd y).onBeat beatAdvance).onBeat forgetPast) := by
  unfold beatBoundary
  rw [hrun, if_neg Bool.false_ne_true]
  extract_lets y1 y2 y3 w y4 y5 y6 y7 y8
  calc v (y8.each [0, 1] halfBeat)
      _ = v y8 := Sys.each_keeps v y8 _ _ fun z _ _ => halfBeat_keeps h z _
      _ = v y7 := Sys.each_keeps v y7 _ _ fun z _ _ => portBeat_keeps h z _ _
      _ = v y6 := sendAccs_keeps h y6
      _ = v y5 := Sys.each_keeps v y5 _ _ fun z _ _ => portBoundary_keeps h z _
      _ = v y4 := h.power y4 _
      _ = v y3 := h.prot y3 _
      _ = v y2 := releaseHeld_keeps h y2

theorem beatBoundary_log_beat (y : Sys) (hrun : y.dev.beat.clockStopped = false) :
    (beatBoundary y).log = (coresToBeatEnd y).log ∧
      (beatBoundary y).dev.beat = forgetPast (beatAdvance (coresToBeatEnd y).dev.beat) := by
  have hkeeps := beatBoundary_keeps onlyBeat_logAndBeat y hrun
  simpa only [Prod.mk.injEq, Sys.onBeat_log, Sys.onBeat_beat] using hkeeps

/- Cores with nothing to drain. -/

/-- A work record that went on from another one with nothing changed but cores and gated cycles, and no tile that entered a drain path. -/
def NothingDrained (y z : Sys) : Prop :=
  z = { y with dev := { y.dev with cores := z.dev.cores, power := z.dev.power } } ∧
    ∀ k, (y.core k).draining = [] → (z.core k).draining = []

namespace NothingDrained

theorem refl (y : Sys) : NothingDrained y y := ⟨rfl, fun _ hk => hk⟩

theorem trans {x y z : Sys} (hxy : NothingDrained x y) (hyz : NothingDrained y z) : NothingDrained x z :=
  ⟨by rw [hyz.1, hxy.1], fun k hk => hyz.2 k (hxy.2 k hk)⟩

theorem mem {y z : Sys} (h : NothingDrained y z) : z.mem = y.mem := by rw [h.1]; rfl

theorem beat {y z : Sys} (h : NothingDrained y z) : z.dev.beat = y.dev.beat := by rw [h.1]

theorem prot {y z : Sys} (h : NothingDrained y z) : z.dev.prot = y.dev.prot := by rw [h.1]

theorem draining {y z : Sys} (h : NothingDrained y z) {k : Nat} (hk : (y.core k).draining = []) : (z.core k).draining = [] := h.2 k hk

theorem onCore (y : Sys) (s : Nat) {f : Core → Core} (hf : ∀ c, c.draining = [] → (f c).draining = []) :
    NothingDrained y (y.onCore s f) := by
  refine ⟨rfl, fun k hk => ?_⟩
  simp only [Sys.core, nth, Sys.onCore_cores, upd, List.getElem?_modify] at hk ⊢
  cases hc : y.dev.cores[k]? with
  | none => rfl
  | some c =>
    rw [hc] at hk
    by_cases hs : s = k
    · simpa [hs] using hf c hk
    · simpa [hs] using hk

theorem onSitePow (y : Sys) (s : Nat) (f : SitePower → SitePower) : NothingDrained y (y.onSitePow s f) :=
  ⟨rfl, fun _ hk => hk⟩

/-- A loop drains nothing when no round does, from any work record that the rounds before it can leave. -/
theorem each {β : Type} (y : Sys) (l : List β) (f : Sys → β → Sys)
    (hf : ∀ z, NothingDrained y z → ∀ a ∈ l, NothingDrained z (f z a)) : NothingDrained y (y.each l f) :=
  List.foldlRecOn (motive := NothingDrained y) l f (refl y) fun z hz a ha => hz.trans (hf z hz a ha)

end NothingDrained

theorem gateCore_draining (why : Held) (n : Nat) (c : Core) (hc : c.draining = []) : (gateCore why n c).draining = [] := by
  simp only [gateCore, hc, List.map_nil]

theorem gateTo_nothingDrained (upTo : Nat) (y : Sys) (site : Nat) : NothingDrained y (gateTo upTo y site) := by
  unfold gateTo
  dsimp only
  split
  · exact .refl y
  · refine (NothingDrained.onSitePow y site _).trans (.onCore _ _ fun c hc => ?_)
    exact List.foldlRecOn (motive := fun c : Core => c.draining = []) _ _ hc fun c hc n _ => gateCore_draining _ _ c hc

theorem endGating_nothingDrained (y : Sys) (site : Nat) : NothingDrained y (endGating y site) := by
  unfold endGating
  dsimp only
  split
  · exact .refl y
  · exact .onSitePow y _ _

theorem reform_nothingDrained (site : Nat) (r : Sys × Option Accs) (s : StepRun) : NothingDrained r.1 (reform site r s).1 := by
  unfold reform
  split
  · exact .refl r.1
  · exact .onCore r.1 _ fun c hc => by simp only [hc, List.map_nil]

theorem reformStale_nothingDrained (y : Sys) (site : Nat) : NothingDrained y (reformStale y site) := by
  unfold reformStale
  split
  · exact List.foldlRecOn (motive := fun r : Sys × Option Accs => NothingDrained y r.1) _ _ (.refl y)
      fun r hr s _ => hr.trans (reform_nothingDrained site r s)
  · exact .refl y

/-- Reads of a buffer without errors find nothing to end the step for (R278). -/
theorem checkFeeds_nothingDrained (site now : Nat) (y : Sys) (s : StepRun) (herr : y.dev.prot.bufErr = []) :
    NothingDrained y (checkFeeds site now y s) := by
  unfold checkFeeds
  dsimp only
  rw [herr, if_pos (by rfl)]
  exact .onCore y _ fun _ hc => hc

theorem deliverTo_of_no_draining {y : Sys} {site : Nat} (now : Nat) (hdrain : (y.core site).draining = []) :
    deliverTo y site now = y := by
  rw [deliverTo, hdrain]
  rfl

theorem raiseFlags_nothingDrained (y : Sys) (site i : Nat) (k : FlagSet) (fl : Nat) : NothingDrained y (raiseFlags y site i k fl) :=
  .onCore y site fun _ hc => hc

theorem formFlags_nothingDrained (y : Sys) (site now : Nat) : NothingDrained y (formFlags y site now) :=
  .each y _ _ fun z _ _ _ => (raiseFlags_nothingDrained z site _ _ _).trans (.onCore _ site fun _ hc => hc)

theorem settleCore_nothingDrained {y : Sys} {site : Nat} (now : Nat) (hdrain : (y.core site).draining = [])
    (herr : y.dev.prot.bufErr = []) : NothingDrained y (settleCore y site now) := by
  have hformed := reformStale_nothingDrained y site
  have hread : NothingDrained y
      ((reformStale y site).each (((reformStale y site).core site).steps.filter runsPasses) (checkFeeds site now)) :=
    hformed.trans (.each _ _ _ fun z hz s _ => checkFeeds_nothingDrained site now z s (by rw [hz.prot, hformed.prot, herr]))
  unfold settleCore
  dsimp only
  rw [deliverTo_of_no_draining now (hread.draining hdrain)]
  exact hread.trans ((formFlags_nothingDrained _ site now).trans (.onCore _ site fun _ hc => hc))

theorem advanceCore_nothingDrained {y : Sys} {site : Nat} (cyc : Nat) (hdrain : (y.core site).draining = [])
    (herr : y.dev.prot.bufErr = []) : NothingDrained y (advanceCore cyc y site) := by
  have hgate : NothingDrained y (gateTo cyc y site) := gateTo_nothingDrained cyc y site
  exact hgate.trans (settleCore_nothingDrained _ (hgate.draining hdrain) (by rw [hgate.prot, herr]))

theorem coresToBeatEnd_nothingDrained {y : Sys} (hdrain : ∀ k < 18, (y.core k).draining = []) (herr : y.dev.prot.bufErr = []) :
    NothingDrained y (coresToBeatEnd y) :=
  .each y _ _ fun z hz k hk =>
    (advanceCore_nothingDrained 64 (hz.draining (hdrain k (List.mem_range.mp hk))) (by rw [hz.prot, herr])).trans
      (endGating_nothingDrained _ k)

end Sys2Proof.Machine

namespace Sys2Proof

open Machine

/-- Settles O5: `coresToBeatEnd_counts` leaves both counts to `beatAdvance`, `beatBoundary_keeps` lets nothing after it touch them, and
`coresToBeatEnd_nothingDrained` leaves the memories where no tile drains. -/
theorem beatBoundaryCounts : Obligations.BeatBoundaryCounts := by
  intro s
  refine ⟨fun hstopped => ?_, fun hrun => completes_onSys rfl ?_⟩
  · have hsame : beatBoundary s.work = s.work := if_pos hstopped
    exact congrArg (fun y : Sys => Host.Outcome.next { s with dev := y.dev, mem := s.mem.applyLog y.log }) hsame
  · obtain ⟨hbase, hwbc, hacc⟩ := coresToBeatEnd_counts s.work
    obtain ⟨hlog, hbeat⟩ := beatBoundary_log_beat s.work hrun
    have hmem : s.mem.applyLog (beatBoundary s.work).log = (coresToBeatEnd s.work).mem := by
      rw [hlog, Sys.mem, hbase, work_base]
    have hwbc' : (beatBoundary s.work).dev.beat.wbc = s.dev.beat.wbc + 1 := by
      rw [hbeat, forgetPast_beatAdvance_wbc, hwbc, work_dev]
    have hacc' : (beatBoundary s.work).dev.beat.holdAcc = s.dev.beat.holdAcc +
        if isHoldBeat (coresToBeatEnd s.work).dev.beat (s.dev.beat.wbc + 1) then 1 else 0 := by
      rw [hbeat, forgetPast_beatAdvance_holdAcc, hwbc, hacc, work_dev]
    refine ⟨⟨rfl, rfl, hmem⟩, hwbc', hacc', rfl, fun hle hlt => ?_, fun hhold => ?_, fun hdrain herr => ?_⟩
    · dsimp only
      rw [hacc']
      split <;> omega
    · rw [sbc, sbc, hwbc', hacc', if_pos hhold, Nat.add_sub_add_right]
    · have hnone := coresToBeatEnd_nothingDrained hdrain herr.2.1
      exact ⟨hmem.trans hnone.mem, hnone.beat⟩

end Sys2Proof
end

section
/-! PROOF. The interleaved window (R231): what the address map answers within it, and that the byte it names is the one that its column's
direct address names. -/

namespace Sys2Proof.Machine

/-- Logical column of byte a of the window (c of R231). -/
def windowCol (n a : Nat) : Nat := a / 8192 % n

/-- Column offset of byte a of the window (o of R231). -/
def windowOff (n a : Nat) : Nat := a / 8192 / n * 8192 + a % 8192

theorem windowTarget_eq_dramAddr (n a : Nat) : windowTarget n a = dramAddr (windowCol n a) (windowOff n a) := rfl

theorem windowCol_eq_shiftRight (n a : Nat) : windowCol n a = a >>> 13 % n := by
  rw [windowCol, Nat.shiftRight_eq_div_pow]

theorem windowOff_eq_shift (n a : Nat) : windowOff n a = ((a >>> 13 / n) <<< 13) + (a &&& 0x1FFF) := by
  have hmask : a &&& 0x1FFF = a % 2 ^ 13 := Nat.and_two_pow_sub_one_eq_mod a 13
  simp only [windowOff, hmask, Nat.shiftLeft_eq, Nat.shiftRight_eq_div_pow, Nat.reducePow]

theorem windowCol_lt {n a : Nat} (ha : a < n * colBytes) : windowCol n a < n :=
  Nat.mod_lt _ (Nat.pos_of_mul_pos_right (Nat.zero_lt_of_lt ha))

/-- A column holds 0x180000 units of 8 KiB, and n columns n times as many. -/
theorem windowOff_lt {n a : Nat} (ha : a < n * colBytes) : windowOff n a < colBytes := by
  have hunit : a / 8192 < n * 0x180000 := by
    unfold colBytes at ha
    omega
  have hrow : a / 8192 / n < 0x180000 := Nat.div_lt_of_lt_mul hunit
  unfold windowOff colBytes
  omega

theorem dramAddr_div {o : Nat} (c : Nat) (ho : o < colBytes) : dramAddr c o / colBytes = c := by
  unfold dramAddr colBytes at *
  omega

theorem dramAddr_mod {o : Nat} (c : Nat) (ho : o < colBytes) : dramAddr c o % colBytes = o := by
  unfold dramAddr colBytes at *
  omega

theorem place_dramAddr {n c o : Nat} (hn : n ≤ 16) (hc : c < n) (ho : o < colBytes) : place n (dramAddr c o) = .dram c o := by
  have hlt : dramAddr c o < 0x3000000000 := by
    unfold dramAddr colBytes at *
    omega
  rw [place, if_pos hlt, dramAddr_div c ho, dramAddr_mod c ho, if_pos hc]

/-- The address map within the window (R226, R231). -/
theorem place_window {a : Nat} (n : Nat) (ha : a < 0x3000000000) :
    place n (0x4800000000 + a) =
      if a < n * colBytes then .dram (windowTarget n a / colBytes) (windowTarget n a % colBytes) else .unmapped := by
  rw [place, if_neg (by omega), if_neg (by omega), if_neg (by omega), if_neg (by omega), if_neg (by omega), if_pos (by omega),
    Nat.add_sub_cancel_left]

theorem place_window_mapped {n a : Nat} (ha : a < 0x3000000000) (hmap : a < n * colBytes) :
    place n (0x4800000000 + a) = .dram (windowCol n a) (windowOff n a) := by
  have ho := windowOff_lt hmap
  rw [place_window n ha, if_pos hmap, windowTarget_eq_dramAddr, dramAddr_div _ ho, dramAddr_mod _ ho]

theorem place_window_unmapped {n a : Nat} (ha : a < 0x3000000000) (hmap : n * colBytes ≤ a) :
    place n (0x4800000000 + a) = .unmapped := by
  rw [place_window n ha, if_neg (Nat.not_lt.mpr hmap)]

theorem addrKey_window_eq_dramAddr {d : Dev} {a : Nat} (hn : d.map.n ≤ 16) (ha : a < 0x3000000000) (hmap : a < d.map.n * colBytes) :
    addrKey d (0x4800000000 + a) = addrKey d (dramAddr (windowCol d.map.n a) (windowOff d.map.n a)) := by
  rw [addrKey, addrKey, place_window_mapped ha hmap, place_dramAddr hn (windowCol_lt hmap) (windowOff_lt hmap)]

/-- In an aligned 128 KiB of the window of 16 columns, unit x lies in column x. -/
theorem windowCol_aligned {x w : Nat} (b : Nat) (hx : x < 16) (hw : w < 8192) : windowCol 16 (131072 * b + 8192 * x + w) = x := by
  unfold windowCol
  omega

end Sys2Proof.Machine

namespace Sys2Proof

open Machine

/-- Settles O60: the address map within the window is `place_window_mapped` and `place_window_unmapped`; of each aligned 128 KiB, column c
holds unit c by `windowCol_aligned`. -/
theorem windowNamesColumns : Obligations.WindowNamesColumns := by
  refine ⟨fun d hn A hlo hhi => ?_, fun b c hb hc => ⟨c, hc, fun x w hx hw => ?_⟩⟩
  · obtain ⟨a, rfl⟩ := Nat.exists_eq_add_of_le hlo
    have ha : a < 0x3000000000 := by omega
    dsimp only
    rw [Nat.add_sub_cancel_left, ← windowCol_eq_shiftRight, ← windowOff_eq_shift]
    refine ⟨fun hmap => ⟨place_window_mapped ha hmap, addrKey_window_eq_dramAddr hn ha hmap⟩, fun hmap => ?_⟩
    have hplace := place_window_unmapped ha hmap
    exact ⟨hplace, by rw [addrKey, hplace, placeKey]⟩
  · have ha : 131072 * b + 8192 * x + w < 0x3000000000 := by omega
    have hplace := place_window_mapped (n := 16) ha ha
    rw [windowCol_aligned b hx hw, ← Nat.add_assoc, ← Nat.add_assoc] at hplace
    rw [hplace]
    constructor
    · rintro ⟨o, ho⟩
      exact (Place.dram.inj ho).1
    · rintro rfl
      exact ⟨_, rfl⟩

end Sys2Proof
end

section
/-! PROOF. The form of every command: it runs one function of pins, stack and memories, and so answers a next state, keeps the queue's rest
and the canonical form of the memories (R499, log 1). -/

-- One proof after another: elaborated in parallel, the text as a whole needs more memory than the check allows.
set_option Elab.async false

namespace Sys2Proof

open Machine

variable {i : Instr} {s t : State}

-- The wait lets the checks of the text before this one end: to meet them here keeps one thread more, for which the check has no memory.
/-- A command of the stack is one of everything that leaves the pins. -/
theorem onSys_eq_onAll (f : Sys → Sys) (s : State) : onSys f s = onAll (fun m y => (m, f y)) s := by
  sleep 30000
  rfl

/-- A command of the pins is one of everything that leaves the stack. -/
theorem onMod_eq_onAll (f : Module → Module) (s : State) : onMod f s = onAll (fun m y => (f m, y)) s := rfl

/-- What a command is: a function of pins, stack and memories; only VIN54_LOCKOUT beyond the absolute maximum has none (R499). -/
theorem exec_eq_onAll (i : Instr) (s : State) (hmax : ∀ mv, i = .vin54Lockout mv → mv ≤ 64000) : ∃ f, exec i s = onAll f s := by
  cases i with
  | vin54Lockout mv => exact ⟨_, if_neg (Nat.not_lt.mpr (hmax mv rfl))⟩
  | resetNFall | pwrEnFall | baseOnReached | bootRomRestart | spanRefclkLoss | stageStatusCondition | thermalTrip => exact ⟨_, rfl⟩
  | pwrEnRise | pwrEnDeferredStart | railsInRegulation | resetNRise | baseDieResetRelease | vin54Start | vin54OvervoltageRestart
  | pmbusTelemetryUpdate | pmbusInvalidCommand | clearFaults | capability | voutMode | statusByte | statusWord | statusVout | statusIout
  | statusInput | statusTemperature | statusCml | readVin | readIin | readVout | readIout | readTemperature1 | readPout | readPin
  | pmbusRevision | mfrId | mfrModel | mfrSerial =>
    dsimp only [exec]; exact ⟨_, onMod_eq_onAll _ s⟩
  | _ => dsimp only [exec]; exact ⟨_, onSys_eq_onAll _ s⟩

theorem exec_vin54Lockout_beyond {mv : Nat} (s : State) (h : 64000 < mv) : exec (.vin54Lockout mv) s = .fault .beyondAbsoluteMaximum :=
  if_pos h

/-- A command that answers a next state is a function of pins, stack and memories. -/
theorem exec_next_eq_onAll (h : exec i s = .next t) : ∃ f, onAll f s = .next t := by
  by_cases hmax : ∀ mv, i = .vin54Lockout mv → mv ≤ 64000
  · obtain ⟨f, hf⟩ := exec_eq_onAll i s hmax
    exact ⟨f, hf ▸ h⟩
  · obtain ⟨mv, himp⟩ := Classical.not_forall.mp hmax
    obtain ⟨rfl, hmv⟩ := Classical.not_imp.mp himp
    rw [exec_vin54Lockout_beyond s (Nat.lt_of_not_le hmv)] at h
    cases h

/-- Settles O55: every command but one is a function of the state by `exec_eq_onAll`. -/
theorem everyCommandCompletes : Obligations.EveryCommandCompletes := by
  refine ⟨fun s i hmax => ?_, fun s mv => exec_vin54Lockout_beyond s⟩
  obtain ⟨f, hf⟩ := exec_eq_onAll i s hmax
  exact ⟨_, hf⟩

/-- Settles O54: both equations are the definition of `step`. -/
theorem stepRunsFrontCommand : Obligations.StepRunsFrontCommand := fun _ _ _ => ⟨rfl, rfl⟩

/-- Settles O56: the front command is one of `exec_next_eq_onAll`, which `onAll_keeps` lets change neither form nor queue. -/
theorem stepKeepsMemoryForm : Obligations.StepKeepsMemoryForm := by
  rintro ⟨mod, dev, mem, pending⟩ t hwf hstep
  cases pending with
  | nil =>
    cases hstep
    exact ⟨hwf, rfl⟩
  | cons c rest =>
    obtain ⟨f, hf⟩ := exec_next_eq_onAll hstep
    obtain ⟨hqueue, hmem⟩ := onAll_keeps hf
    exact ⟨hmem hwf, hqueue⟩

/-- Settles O58: the tables of the reset state are lists of a stated length. -/
theorem resetForm : Obligations.ResetForm := by
  refine ⟨rfl, Store.get_nil, rfl, rfl, fun q => ?_, ?_⟩
  · rcases q with _ | _ | _ | _ | q <;> rfl
  · have hlen {α : Type} (n : Nat) (a : α) : (List.replicate n a).length = n := List.length_replicate
    exact ⟨hlen _ _, rfl, rfl, rfl, rfl, hlen _ _, rfl, hlen _ _, hlen _ _, hlen _ _, hlen _ _, hlen _ _, hlen _ _⟩

end Sys2Proof
end

section
/-! PROOF. The sizes of the tables (01_architecture.md): every command of the stack keeps them. -/

-- One proof after another: elaborated in parallel, the text as a whole needs more memory than the check allows.
set_option Elab.async false

namespace Sys2Proof.Machine

/-- The tables of the stack that a work record holds have their sizes. -/
def Shaped (y : Sys) : Prop := Shape y.dev

namespace Shaped

variable {α β γ : Type} {y z : Sys} {c : Prop} {inst : Decidable c} {b : Bool}

/- How a command is put together: choices, loops and findings carried beside the work record. -/

theorem branch (hy : Shaped y) (hz : Shaped z) : Shaped (@ite _ c inst y z) := by
  split
  · exact hy
  · exact hz

theorem branch_snd {p q : α × Sys} (hp : Shaped p.2) (hq : Shaped q.2) : Shaped (@ite _ c inst p q).2 := by
  split
  · exact hp
  · exact hq

theorem branch_fst {p q : Sys × α} (hp : Shaped p.1) (hq : Shaped q.1) : Shaped (@ite _ c inst p q).1 := by
  split
  · exact hp
  · exact hq

theorem of_snd {p : α × Sys} {a : α} (hp : p = (a, z)) (h : Shaped p.2) : Shaped z := by
  subst hp
  exact h

theorem of_fst {p : Sys × α} {a : α} (hp : p = (z, a)) (h : Shaped p.1) : Shaped z := by
  subst hp
  exact h

theorem each {l : List α} {f : Sys → α → Sys} (h : Shaped y) (hf : ∀ z a, Shaped z → Shaped (f z a)) : Shaped (y.each l f) :=
  List.foldlRecOn (motive := Shaped) l f h fun z hz a _ => hf z a hz

theorem foldl {l : List α} {f : Sys → α → Sys} (h : Shaped y) (hf : ∀ z a, Shaped z → Shaped (f z a)) : Shaped (l.foldl f y) :=
  h.each hf

theorem foldl_snd {l : List α} {f : β × Sys → α → β × Sys} {p : β × Sys} (h : Shaped p.2)
    (hf : ∀ p a, Shaped p.2 → Shaped (f p a).2) : Shaped (l.foldl f p).2 :=
  List.foldlRecOn (motive := fun p : β × Sys => Shaped p.2) l f h fun p hp a _ => hf p a hp

theorem foldl_fst {l : List α} {f : Sys × β → α → Sys × β} {p : Sys × β} (h : Shaped p.1)
    (hf : ∀ p a, Shaped p.1 → Shaped (f p a).1) : Shaped (l.foldl f p).1 :=
  List.foldlRecOn (motive := fun p : Sys × β => Shaped p.1) l f h fun p hp a _ => hf p a hp

theorem when {f : Sys → Sys} (h : Shaped y) (hf : ∀ z, Shaped z → Shaped (f z)) : Shaped (y.when b f) := by
  cases b
  · exact h
  · exact hf y h

/- The parts of the stack: an update of a part that holds tables has to keep their sizes. -/

theorem onBoot {f : Boot → Boot} (h : Shaped y) (hparts : (f y.dev.boot).parts.length = y.dev.boot.parts.length)
    (hdis : (f y.dev.boot).disabling.length = y.dev.boot.disabling.length) : Shaped (y.onBoot f) := by
  simpa only [Shaped, Shape, Sys.onBoot, hparts, hdis] using h

theorem onMap {f : MemMap → MemMap} (h : Shaped y) (hcols : (f y.dev.map).cols.length = y.dev.map.cols.length) : Shaped (y.onMap f) := by
  simpa only [Shaped, Shape, Sys.onMap, hcols] using h

theorem onProt {f : Prot → Prot} (h : Shaped y) (hsites : (f y.dev.prot).sites.length = y.dev.prot.sites.length)
    (hlayers : (f y.dev.prot).layers.length = y.dev.prot.layers.length) : Shaped (y.onProt f) := by
  simpa only [Shaped, Shape, Sys.onProt, hsites, hlayers] using h

theorem onBeat {f : Beat → Beat} (h : Shaped y) : Shaped (y.onBeat f) := h

theorem onSched {f : Sched → Sched} (h : Shaped y) (hruns : (f y.dev.sched).runs.length = y.dev.sched.runs.length)
    (hrings : (f y.dev.sched).rings.length = y.dev.sched.rings.length) : Shaped (y.onSched f) := by
  simpa only [Shaped, Shape, Sys.onSched, hruns, hrings] using h

theorem onNoc {f : Noc → Noc} (h : Shaped y) (hsites : (f y.dev.noc).sites.length = y.dev.noc.sites.length) : Shaped (y.onNoc f) := by
  simpa only [Shaped, Shape, Sys.onNoc, hsites] using h

theorem onSpan {f : Span → Span} (h : Shaped y) (hports : (f y.dev.span).ports.length = y.dev.span.ports.length) :
    Shaped (y.onSpan f) := by
  simpa only [Shaped, Shape, Sys.onSpan, hports] using h

theorem onHost {f : HostLink → HostLink} (h : Shaped y) (hhalves : (f y.dev.host).halves.length = y.dev.host.halves.length) :
    Shaped (y.onHost f) := by
  simpa only [Shaped, Shape, Sys.onHost, hhalves] using h

theorem onFw {f : Fw → Fw} (h : Shaped y) : Shaped (y.onFw f) := h

theorem onPower {f : Power → Power} (h : Shaped y) (hsites : (f y.dev.power).sites.length = y.dev.power.sites.length)
    (hsensors : (f y.dev.power).sensors.length = y.dev.power.sensors.length) : Shaped (y.onPower f) := by
  simpa only [Shaped, Shape, Sys.onPower, hsites, hsensors] using h

theorem onWalker {f : Walker → Walker} (h : Shaped y) : Shaped (y.onWalker f) := h

theorem onFaults {f : Faults → Faults} (h : Shaped y) : Shaped (y.onFaults f) := h

theorem onCore {s : Nat} {f : Core → Core} (h : Shaped y) : Shaped (y.onCore s f) := by
  simpa only [Shaped, Shape, Sys.onCore, upd_length] using h

theorem onPort {p : Nat} {f : PortS → PortS} (h : Shaped y) : Shaped (y.onPort p f) := h.onSpan (upd_length _ _ _)

theorem onHalf {k : Nat} {f : HalfS → HalfS} (h : Shaped y) : Shaped (y.onHalf k f) := h.onHost (upd_length _ _ _)

theorem onSiteProt {s : Nat} {f : SiteProt → SiteProt} (h : Shaped y) : Shaped (y.onSiteProt s f) := h.onProt (upd_length _ _ _) rfl

theorem onLayer {l : Nat} {f : LayerState → LayerState} (h : Shaped y) : Shaped (y.onLayer l f) := h.onProt rfl (upd_length _ _ _)

theorem onSiteNoc {s : Nat} {f : SiteNoc → SiteNoc} (h : Shaped y) : Shaped (y.onSiteNoc s f) := h.onNoc (upd_length _ _ _)

theorem onSitePow {s : Nat} {f : SitePower → SitePower} (h : Shaped y) : Shaped (y.onSitePow s f) := h.onPower (upd_length _ _ _) rfl

theorem onSiteFault {s : Nat} {f : SiteFault → SiteFault} (h : Shaped y) : Shaped (y.onSiteFault s f) := h

theorem onSensor {i : Nat} {f : Sensor → Sensor} (h : Shaped y) : Shaped (y.onSensor i f) := h.onPower rfl (upd_length _ _ _)

theorem onBank {id : Nat} {f : Bank → Bank} (h : Shaped y) : Shaped (y.onBank id f) := h.onProt rfl rfl

theorem onWriteBacks {f : Prot → List WriteBack} (h : Shaped y) : Shaped (y.onProt fun p => { p with writeBacks := f p }) :=
  h.onProt rfl rfl

theorem sensors (h : Shaped y) : y.dev.power.sensors.length = 330 := by
  obtain ⟨-, -, -, -, -, -, -, -, -, h, -⟩ := h
  exact h

theorem layers (h : Shaped y) : y.dev.prot.layers.length = 12 := by
  obtain ⟨-, -, -, -, -, -, -, -, -, -, -, -, h⟩ := h
  exact h

theorem ports (h : Shaped y) : y.dev.span.ports.length = 12 := by
  obtain ⟨-, -, -, -, -, h, -⟩ := h
  exact h

theorem cols (h : Shaped y) : y.dev.map.cols.length = 16 := by
  obtain ⟨-, -, -, -, -, -, -, h, -⟩ := h
  exact h

theorem onLayers {g : Prot → Nat → LayerState} (h : Shaped y) :
    Shaped (y.onProt fun p => { p with layers := (List.range 12).map (g p) }) :=
  h.onProt rfl (by rw [h.layers]; simp only [List.length_map, List.length_range])

theorem takeFree (h : Shaped y) : Shaped y.takeFree.2 := h

/- The memories. -/

theorem log {l : List MemOp} (h : Shaped y) : Shaped { y with log := l } := h

theorem zero {k n : Nat} (h : Shaped y) : Shaped (y.zero k n) := h

theorem put {k : Nat} {bs : List Byte} (h : Shaped y) : Shaped (y.put k bs) := by
  induction bs generalizing y k with
  | nil => exact h
  | cons b bs ih => exact ih h.log

theorem putMask {k : Nat} {bs : List Byte} {ms : List Bool} (h : Shaped y) : Shaped (y.putMask k bs ms) := by
  induction bs generalizing y k ms with
  | nil => exact h
  | cons b bs ih =>
    cases ms with
    | nil => exact h
    | cons m ms => exact ih (h.log.branch h)

end Shaped

/- Walks (R190 to R204). -/

/-- A walk keeps the sizes of the tables. -/
def WalkShaped {α : Type} (w : Walk α) : Prop := ∀ y, Shaped y → Shaped (w y).2

namespace WalkShaped

variable {α β : Type} {c : Prop} {inst : Decidable c}

theorem ok {a : α} : WalkShaped (walkOk a) := fun _ h => h

theorem bad {code : Nat} {f : Sys → Bool} : WalkShaped (walkBad code f) := fun _ h => h.branch_snd h

theorem get {f : Sys → α} : WalkShaped (walkGet f) := fun _ h => h

theorem andThen {m : Walk α} {f : α → Walk β} (hm : WalkShaped m) (hf : ∀ a, WalkShaped (f a)) : WalkShaped (walkThen m f) := by
  intro y h
  have hfirst := hm y h
  unfold walkThen
  split
  · next a z hr => exact hf a z (.of_snd hr hfirst)
  · next e z hr => exact .of_snd hr hfirst

theorem foldl {l : List β} {m : Walk α} {f : Walk α → β → Walk α} (hm : WalkShaped m) (hf : ∀ m b, WalkShaped m → WalkShaped (f m b)) :
    WalkShaped (l.foldl f m) :=
  List.foldlRecOn (motive := WalkShaped) l f hm fun m hm b _ => hf m b hm

theorem each {l : List β} {f : β → Walk Unit} (hf : ∀ b, WalkShaped (f b)) : WalkShaped (walkEach l f) :=
  ok.foldl fun _ b hm => hm.andThen fun _ => hf b

end WalkShaped

/- What a reset leaves. -/

theorem reset_shape : Shape Dev.reset := resetForm.2.2.2.2.2

theorem coldDev_shape (d : Dev) (b : Bool) : Shape { coldDev d with power := { Dev.reset.power with clocksStopped := b } } := by
  obtain ⟨hcores, hparts, hdis, hruns, hrings, hports, -, hcols, hpow, hsensors, hnoc, hprot, hlayers⟩ := reset_shape
  exact ⟨hcores, hparts, hdis, hruns, hrings, hports, rfl, hcols, hpow, hsensors, hnoc, hprot, hlayers⟩

/-- Of the tables, a reset with the memory rails up keeps the column map and the equaliser settings of the ports (R253, R405). -/
theorem warmDev_shape {d : Dev} (hcols : d.map.cols.length = 16) (hports : d.span.ports.length = 12) : Shape (warmDev d) := by
  obtain ⟨hcores, -, -, hruns, hrings, -, -, -, hpow, hsensors, hnoc, hprot, hlayers⟩ := reset_shape
  exact ⟨hcores, rfl, rfl, hruns, hrings, (List.length_map _).trans hports, rfl, hcols, hpow, hsensors, hnoc, hprot, hlayers⟩

end Sys2Proof.Machine
end

section
/-! PROOF. The sizes of the tables: what each operation of the stack leaves them (01_architecture.md). -/

-- One proof after another: elaborated in parallel, the text as a whole needs more memory than the check allows.
set_option Elab.async false

namespace Sys2Proof.Machine

/- The operations, in the order in which they use one another. -/

theorem loseVolatile_shaped {y : Sys} (hy : Shaped y) : Shaped (loseVolatile y) := by
  unfold loseVolatile
  exact hy.zero

theorem baseDieReset_shaped {m : Module} {y : Sys} (hy : Shaped y) : Shaped (baseDieReset m y).2 := by
  unfold baseDieReset
  exact hy.branch_snd (warmDev_shape hy.cols hy.ports)

theorem resetNFall_shaped {ns : Nat} {m : Module} {y : Sys} (hy : Shaped y) : Shaped (resetNFall ns m y).2 := by
  unfold resetNFall
  split
  · exact hy
  split
  · exact hy
  split
  · dsimp only
    split
    · exact hy.takeFree
    · exact baseDieReset_shaped hy.takeFree
  · exact baseDieReset_shaped hy

theorem powerLost_shaped {m : Module} {y : Sys} (_hy : Shaped y) : Shaped (powerLost m y).2 := coldDev_shape y.dev m.tripLatched

theorem stageStop_shaped {m : Module} {y : Sys} (hy : Shaped y) : Shaped (stageStop m y).2 := by
  unfold stageStop
  exact powerLost_shaped hy

theorem vin54Lockout_shaped {mv : Nat} {m : Module} {y : Sys} (hy : Shaped y) : Shaped (vin54Lockout mv m y).2 := by
  unfold vin54Lockout
  exact (stageStop_shaped hy).branch_snd ((stageStop_shaped hy).branch_snd hy)

theorem stageStatusCondition_shaped {c : StageCond} {holds : Bool} {m : Module} {y : Sys} (hy : Shaped y) :
    Shaped (stageStatusCondition c holds m y).2 := by
  unfold stageStatusCondition
  exact hy.branch_snd ((stageStop_shaped hy).branch_snd hy)

theorem ringPush_shaped {y : Sys} {bytes : List Byte} {isFault : Bool} (hy : Shaped y) : Shaped (ringPush y bytes isFault) := by
  refine hy.onHost ?_
  dsimp only
  split
  · rfl
  · split <;> rfl

theorem event_shaped {y : Sys} {code : Nat} {data : List Byte} (hy : Shaped y) : Shaped (event y code data) := by
  unfold event
  exact ringPush_shaped (hy.onHost rfl)

theorem checkDisagree_shaped {y : Sys} {k : Nat} (hy : Shaped y) : Shaped (checkDisagree y k) := by
  unfold checkDisagree
  exact (hy.branch (event_shaped (hy.onPower rfl rfl))).branch hy

theorem checkSuspect_shaped {y : Sys} {i : Nat} (hy : Shaped y) : Shaped (checkSuspect y i) := by
  unfold checkSuspect
  exact (event_shaped hy.onSensor.onSensor).branch hy.onSensor

theorem checkLimit_shaped {y : Sys} {i : Nat} (hy : Shaped y) : Shaped (checkLimit y i) := by
  unfold checkLimit
  exact (event_shaped hy.onSensor).branch hy.onSensor

theorem windowLayer_shaped {y : Sys} {l : Nat} (hy : Shaped y) : Shaped (windowLayer y l) := by
  unfold windowLayer
  exact hy.onLayer

theorem checkOverride_shaped {y : Sys} {i : Nat} (hy : Shaped y) : Shaped (checkOverride y i) := by
  unfold checkOverride
  exact (event_shaped hy.onSensor.onSensor).branch ((event_shaped hy.onSensor.onSensor).branch hy.onSensor)

theorem windowSite_shaped {m : WindowMeasure} {y : Sys} {s : Nat} (hy : Shaped y) : Shaped (windowSite m y s) := by
  unfold windowSite
  exact hy.onSitePow.onSiteProt

theorem divide_shaped {y : Sys} (hy : Shaped y) : Shaped (divide y) := by
  unfold divide
  exact hy.each (fun _ _ hz => hz.onSitePow)

theorem setLimit_shaped {y : Sys} (hy : Shaped y) : Shaped (setLimit y) := by
  unfold setLimit
  exact hy.onPower rfl rfl

theorem windowGrant_shaped {y : Sys} (hy : Shaped y) : Shaped (windowGrant y) := by
  unfold windowGrant
  split
  · exact (hy.onPower rfl rfl).branch hy
  · exact hy

theorem floodRec_shaped {y : Sys} {except : Option Nat} {r : CtrlRec} (hy : Shaped y) : Shaped (floodRec y except r) := by
  unfold floodRec
  exact hy.each (fun _ _ hz => hz.onPort.branch hz)

theorem requestHold_shaped {y : Sys} {cause len : Nat} (hy : Shaped y) : Shaped (requestHold y cause len) := by
  unfold requestHold
  exact hy.branch (floodRec_shaped hy.onBeat)

theorem coolantLost_shaped {y : Sys} {path flow : Nat} (hy : Shaped y) : Shaped (coolantLost y path flow) := by
  unfold coolantLost
  exact hy.branch (event_shaped (requestHold_shaped (divide_shaped (hy.onPower rfl rfl))))

theorem checkSlope_shaped {old : Int} {sampled : Bool} {y : Sys} {i : Nat} (hy : Shaped y) : Shaped (checkSlope old sampled y i) := by
  unfold checkSlope
  exact (coolantLost_shaped hy.onSensor).branch hy.onSensor

theorem applySetPoint_shaped {y : Sys} {s : Nat} (hy : Shaped y) : Shaped (applySetPoint y s) := by
  unfold applySetPoint
  exact hy.onSitePow

theorem windowVolt_shaped {m : WindowMeasure} {y : Sys} {s : Nat} (hy : Shaped y) : Shaped (windowVolt m y s) := by
  unfold windowVolt
  exact applySetPoint_shaped (hy.onSitePow.branch hy.onSitePow.onSitePow)

theorem enterPower_shaped {y : Sys} {p : PowerState} (hy : Shaped y) : Shaped (enterPower y p) := by
  unfold enterPower
  exact hy.branch (event_shaped (hy.onBoot rfl rfl))

theorem settlePower_shaped {y : Sys} (hy : Shaped y) : Shaped (settlePower y) := by
  unfold settlePower
  exact (enterPower_shaped hy).branch hy

theorem setPart_shaped {y : Sys} {q : Nat} {p : PartState} (hy : Shaped y) : Shaped (setPart y q p) := by
  unfold setPart
  exact settlePower_shaped (hy.onBoot (by simp) rfl)

theorem dropRowOps_shaped {y : Sys} {site : Nat} (hy : Shaped y) : Shaped (dropRowOps y site) := by
  unfold dropRowOps
  exact hy.onProt rfl rfl

theorem faultRec_shaped {y : Sys} {f : FaultInfo} (hy : Shaped y) : Shaped (faultRec y f) := by
  unfold faultRec
  exact hy.onFaults.onHost rfl

theorem abandonReplay_shaped {y : Sys} {site outcome : Nat} (hy : Shaped y) : Shaped (abandonReplay y site outcome) := by
  unfold abandonReplay
  split
  · exact hy
  · exact (faultRec_shaped hy).onCore

theorem sendStatus_shaped {y : Sys} {site : Nat} {s : StepRun} (hy : Shaped y) : Shaped (sendStatus y site s) := by
  unfold sendStatus
  exact (hy.when (fun _ hz => hz.onSiteNoc)).onHost rfl

theorem recordStep_shaped {y : Sys} {site : Nat} {s : StepRun} {walkErr : Nat} (hy : Shaped y) :
    Shaped (recordStep y site s walkErr) := by
  unfold recordStep
  exact (hy.when (fun _ => sendStatus_shaped)).when (fun _ => faultRec_shaped)

theorem endStep_shaped {y : Sys} {site i outcome walkErr cyc : Nat} (hy : Shaped y) : Shaped (endStep y site i outcome walkErr cyc) := by
  unfold endStep
  split
  · exact hy
  · exact recordStep_shaped (hy.onCore.onBoot rfl rfl)

theorem stopCore_shaped {y : Sys} {site seqState : Nat} (hy : Shaped y) : Shaped (stopCore y site seqState) := by
  unfold stopCore
  exact ((dropRowOps_shaped (abandonReplay_shaped hy)).each (fun _ _ => endStep_shaped)).onCore

theorem stopPart_shaped {y : Sys} {q seqState : Nat} (hy : Shaped y) : Shaped (stopPart y q seqState) := by
  unfold stopPart
  exact ((hy.each (fun _ _ => stopCore_shaped)).onSched (by simp) rfl).onBoot rfl rfl

theorem faultStop_shaped {y : Sys} {q : Nat} (hy : Shaped y) : Shaped (faultStop y q) := by
  unfold faultStop
  exact hy.branch (setPart_shaped (stopPart_shaped hy))

theorem faultStopAll_shaped {y : Sys} (hy : Shaped y) : Shaped (faultStopAll y) := by
  unfold faultStopAll
  exact hy.each (fun _ _ => faultStop_shaped)

theorem faultRecCc_shaped {y : Sys} {f : FaultInfo} (hy : Shaped y) : Shaped (faultRecCc y f) := by
  unfold faultRecCc
  exact ringPush_shaped hy.onFaults

theorem spoiledStorage_shaped {spoiled : Option Nat} {y : Sys} (hy : Shaped y) : Shaped (spoiledStorage spoiled y) := by
  unfold spoiledStorage
  split
  · exact hy
  · exact requestHold_shaped (faultStopAll_shaped (faultRecCc_shaped hy))

theorem windowLosses_shaped {y : Sys} {s : Nat} (hy : Shaped y) : Shaped (windowLosses y s) := by
  unfold windowLosses
  exact ((hy.branch (faultRecCc_shaped hy)).branch (faultRecCc_shaped (hy.branch (faultRecCc_shaped hy)))).onSiteNoc

theorem windowBoundary_shaped {m : WindowMeasure} {y : Sys} (hy : Shaped y) : Shaped (windowBoundary m y) := by
  unfold windowBoundary
  split
  · exact hy
  extract_lets before seen vcore y1 y2 y3 y4 y5 y6 y7 y8 y9 y10
  have h1 : Shaped y1 := hy.onPower rfl (by simp [hy.sensors])
  have h3 : Shaped y3 := (h1.each fun _ _ => checkDisagree_shaped).each fun _ _ => checkSuspect_shaped
  have h6 : Shaped y6 := ((h3.each fun _ _ => checkLimit_shaped).each fun _ _ => windowLayer_shaped).each fun _ _ => checkOverride_shaped
  have h8 : Shaped y8 := divide_shaped (setLimit_shaped (windowGrant_shaped (h6.each fun _ _ => windowSite_shaped)))
  have h10 : Shaped y10 := (h8.each fun _ _ => checkSlope_shaped).each fun _ _ => windowVolt_shaped
  exact spoiledStorage_shaped (h10.each fun _ _ => windowLosses_shaped)

theorem settleLinks_shaped {y : Sys} (hy : Shaped y) : Shaped (settleLinks y) := by
  unfold settleLinks
  exact (enterPower_shaped hy).branch hy

theorem setPort_shaped {y : Sys} {p : Nat} {new : PortState} (hy : Shaped y) : Shaped (setPort y p new) := by
  unfold setPort
  exact hy.branch (settleLinks_shaped (event_shaped hy.onPort))

theorem wakePort_shaped {y : Sys} {p : Nat} (hy : Shaped y) : Shaped (wakePort y p) := by
  unfold wakePort
  exact (setPort_shaped hy.onPort).branch hy.onPort

theorem countStale_shaped {y : Sys} {p : Nat} (hy : Shaped y) : Shaped (countStale y p) := by
  unfold countStale
  exact hy.onPort

theorem switchUpstream_shaped {y : Sys} {p : Nat} (hy : Shaped y) : Shaped (switchUpstream y p) := by
  unfold switchUpstream
  exact event_shaped hy.onBeat

theorem leaveHoldover_shaped {y : Sys} {p : Nat} (hy : Shaped y) : Shaped (leaveHoldover y p) := by
  unfold leaveHoldover
  exact (event_shaped hy.onBeat).branch (switchUpstream_shaped (event_shaped hy.onBeat))

theorem setMismatch_shaped {y : Sys} {m : Marker} (hy : Shaped y) : Shaped (setMismatch y m) := by
  unfold setMismatch
  exact (requestHold_shaped (event_shaped hy.onBeat)).branch hy

theorem takeMarker_shaped {y : Sys} {p : Nat} {m : Marker} (hy : Shaped y) : Shaped (takeMarker y p m) := by
  unfold takeMarker
  exact hy.onBeat

theorem beatMarker_shaped {p : Nat} {m : Marker} {y : Sys} (hy : Shaped y) : Shaped (beatMarker p m y) := by
  unfold beatMarker
  extract_lets y1 _ y2 y3 y4 y5 _ y6
  have hy1 : Shaped y1 := wakePort_shaped hy
  have hy2 : Shaped y2 := hy1.onBeat
  have hy3 : Shaped y3 := hy1.onPort
  have hy4 : Shaped y4 := hy3.onBeat.branch hy3
  have hy5 : Shaped y5 := (switchUpstream_shaped hy4.onBeat).branch hy4
  have hy6 : Shaped y6 := (leaveHoldover_shaped hy5).branch hy5
  exact hy1.branch ((countStale_shaped hy1).branch (hy1.branch (((event_shaped hy2).branch hy1).branch (hy4.branch (hy4.branch
    ((setMismatch_shaped (takeMarker_shaped hy6)).branch hy6))))))

theorem beatLoadCtrl_shaped {v : W32} {y : Sys} (hy : Shaped y) : Shaped (beatLoadCtrl v y) := by
  unfold beatLoadCtrl
  exact (hy.onBeat.onBeat.branch hy.onBeat.onBeat).branch hy.onBeat

theorem lossOfAlignment_shaped {y : Sys} {cause : Nat} (hy : Shaped y) : Shaped (lossOfAlignment y cause) := by
  unfold lossOfAlignment
  exact (event_shaped ((faultStopAll_shaped hy).onBeat)).when (fun _ => requestHold_shaped)

theorem holdLate_shaped {y : Sys} (hy : Shaped y) : Shaped (holdLate y) := by
  unfold holdLate
  exact lossOfAlignment_shaped hy.onBeat

theorem remember_shaped {y : Sys} {kind id inc seq : Nat} (hy : Shaped y) : Shaped (remember y kind id inc seq) := by
  unfold remember
  exact hy.onBeat

theorem holdRequest_shaped {p : Nat} {r : HoldRec} {y : Sys} (hy : Shaped y) : Shaped (holdRequest p r y) := by
  unfold holdRequest
  extract_lets y1 y2 y3
  have hy1 : Shaped y1 := wakePort_shaped hy
  have hy2 : Shaped y2 := remember_shaped hy1
  have hy3 : Shaped y3 := hy2.onBeat
  exact (countStale_shaped hy1).branch (hy1.branch ((holdLate_shaped hy1).branch (floodRec_shaped hy3)))

theorem ledgerMismatch_shaped {y : Sys} {w : Nat} (hy : Shaped y) : Shaped (ledgerMismatch y w) := by
  unfold ledgerMismatch
  exact event_shaped hy.onBeat

theorem takeConfirmation_shaped {r : HoldRec} {y : Sys} (hy : Shaped y) : Shaped (takeConfirmation r y) := by
  unfold takeConfirmation
  exact hy.onBeat.branch (requestHold_shaped (ledgerMismatch_shaped hy.onBeat))

theorem holdConfirmation_shaped {p : Nat} {r : HoldRec} {y : Sys} (hy : Shaped y) : Shaped (holdConfirmation p r y) := by
  unfold holdConfirmation
  extract_lets y1
  have hy1 : Shaped y1 := wakePort_shaped hy
  exact (countStale_shaped hy1).branch (hy1.branch (takeConfirmation_shaped (floodRec_shaped (remember_shaped hy1))))

theorem applyRelease_shaped {y : Sys} {index w : Nat} (hy : Shaped y) : Shaped (applyRelease y index w) := by
  unfold applyRelease
  split
  · exact hy
  · exact hy.onBeat

theorem holdRelease_shaped {p : Nat} {r : HoldRec} {y : Sys} (hy : Shaped y) : Shaped (holdRelease p r y) := by
  unfold holdRelease
  extract_lets y1 y2
  have hy1 : Shaped y1 := wakePort_shaped hy
  have hy2 : Shaped y2 := floodRec_shaped (remember_shaped hy1)
  exact (countStale_shaped hy1).branch (hy1.branch ((holdLate_shaped hy1).branch (applyRelease_shaped hy2)))

theorem sendRecNow_shaped {y : Sys} {r : CtrlRec} (hy : Shaped y) : Shaped (sendRecNow y r) := by
  unfold sendRecNow
  exact hy.each (fun _ _ hz => hz.onPort.branch hz)

theorem holdPointClose_shaped {w : Nat} {y : Sys} (hy : Shaped y) : Shaped (holdPointClose w y) := by
  unfold holdPointClose
  dsimp only
  split
  · exact hy
  · exact hy.branch ((sendRecNow_shaped (remember_shaped (hy.onBeat.onBeat.branch hy.onBeat))).branch (hy.onBeat.onBeat.branch hy.onBeat))

theorem holdPointStart_shaped {w : Nat} {y : Sys} (hy : Shaped y) : Shaped (holdPointStart w y) := by
  unfold holdPointStart
  exact hy.branch ((settlePower_shaped (hy.onBeat.each (fun _ _ hz => (setPart_shaped hz).branch hz))).branch hy.onBeat)

theorem confirmMissing_shaped {w : Nat} {y : Sys} (hy : Shaped y) : Shaped (confirmMissing w y) := by
  unfold confirmMissing
  exact (event_shaped hy.onBeat).branch hy

theorem mirrorArrive_shaped {m : MirrorData} {y : Sys} (hy : Shaped y) : Shaped (mirrorArrive m y) := by
  unfold mirrorArrive
  refine hy.branch ?_
  dsimp only
  split
  · exact ledgerMismatch_shaped hy.onBeat.onFw
  · exact hy.onBeat.onFw

theorem becomeRunning_shaped {y : Sys} {q : Nat} (hy : Shaped y) : Shaped (becomeRunning y q) := by
  unfold becomeRunning
  exact setPart_shaped ((hy.onMap rfl).onProt (by split <;> rfl) (by split <;> rfl))

theorem startCores_shaped {y : Sys} {q : Nat} {fresh : Bool} (hy : Shaped y) : Shaped (startCores y q fresh) := by
  unfold startCores
  exact hy.each (fun _ _ hz => hz.onCore)

theorem partitionStart_shaped {q : Nat} {y : Sys} (hy : Shaped y) : Shaped (partitionStart q y) := by
  unfold partitionStart
  exact (becomeRunning_shaped (startCores_shaped (hy.onSched (by simp) rfl))).branch hy

theorem imageRunRepeat_shaped {q : Nat} {y : Sys} (hy : Shaped y) : Shaped (imageRunRepeat q y) := by
  unfold imageRunRepeat
  split
  · exact hy
  · exact (startCores_shaped (hy.onSched (by simp) rfl)).branch hy

theorem imageFinish_shaped {q : Nat} {y : Sys} (hy : Shaped y) : Shaped (imageFinish q y) := by
  unfold imageFinish
  split
  · exact hy
  · exact (setPart_shaped (hy.each (fun _ _ hz => hz.onCore))).branch hy

theorem checkOutcome_shaped {y : Sys} {n corr defd : Nat} (hy : Shaped y) : Shaped (checkOutcome y n corr defd).2 := by
  unfold checkOutcome
  exact hy.branch_snd (hy.branch_snd (hy.branch_snd hy.takeFree))

theorem ceRecord_shaped {y : Sys} {site : Nat} {f : FaultInfo} (hy : Shaped y) : Shaped (ceRecord y site f) := by
  unfold ceRecord
  exact ((faultRec_shaped hy).onSiteProt).branch hy.onSiteProt

theorem dramError_shaped {y : Sys} {site off : Nat} {unc : Bool} {who : Requester} (hy : Shaped y) :
    Shaped (dramError y site off unc who) := by
  unfold dramError
  extract_lets _ _ _ y1 y2 _ y3 _ _
  have hy1 : Shaped y1 := hy.onSiteProt
  have hy2 : Shaped y2 := ceRecord_shaped hy1
  have hy3 : Shaped y3 := hy2.onBank
  exact (hy1.branch (faultRec_shaped hy1)).branch ((event_shaped hy3.onBank).branch hy3)

theorem checkDram_shaped {y : Sys} {key len : Nat} {who : Requester} (hy : Shaped y) : Shaped (checkDram y key len who).2 := by
  refine .foldl_snd hy fun r e hr => ?_
  split
  · exact hr
  have hcheck : Shaped (checkOutcome r.2 e.2.length 2 6).2 := checkOutcome_shaped hr
  dsimp only
  split
  · exact hr
  split
  · exact hcheck
  · exact ((dramError_shaped hcheck).onProt rfl rfl).onBank
  · exact dramError_shaped hcheck

theorem bufError_shaped {y : Sys} {site a : Nat} {unc : Bool} {who : Requester} (hy : Shaped y) : Shaped (bufError y site a unc who) := by
  unfold bufError
  exact (faultRec_shaped hy.onSiteProt).branch (ceRecord_shaped hy.onSiteProt)

theorem checkBuf_shaped {y : Sys} {key len : Nat} {who : Requester} (hy : Shaped y) : Shaped (checkBuf y key len who).2 := by
  refine .foldl_snd hy fun r e hr => ?_
  split
  · exact hr
  have hcheck : Shaped (checkOutcome r.2 e.2.length 1 2).2 := checkOutcome_shaped hr
  dsimp only
  split <;> dsimp only
  · exact hcheck
  · exact (bufError_shaped hcheck).onWriteBacks
  · exact bufError_shaped hcheck

theorem readMem_shaped {y : Sys} {key len : Nat} {who : Requester} (hy : Shaped y) : Shaped (readMem y key len who).2 := by
  unfold readMem
  split
  · dsimp only
    split
    · exact checkDram_shaped hy
    · exact checkDram_shaped hy
  · split
    · dsimp only
      split
      · exact checkBuf_shaped hy
      · exact checkBuf_shaped hy
    · exact hy

theorem noteOverwrite_shaped {y : Sys} {key n : Nat} (hy : Shaped y) : Shaped (noteOverwrite y key n) := by
  unfold noteOverwrite
  exact hy.branch (hy.onCore.branch hy)

theorem cancelWriteBack_shaped {y : Sys} {key : Nat} (hy : Shaped y) : Shaped (cancelWriteBack y key) := by
  unfold cancelWriteBack
  exact (hy.onProt rfl rfl).branch hy

theorem wholeWrite_shaped {y : Sys} {key : Nat} (hy : Shaped y) : Shaped (wholeWrite y key) := by
  refine hy.branch (hy.onProt ?_ ?_)
  · cases injectHere y key <;> cases isDramKey key <;> rfl
  · cases injectHere y key <;> cases isDramKey key <;> rfl

theorem writeUnit_shaped {y : Sys} {u key : Nat} {data : List Byte} {mask : List Bool} {who : Requester} (hy : Shaped y) :
    Shaped (writeUnit y u key data mask who).2 := by
  unfold writeUnit
  refine hy.branch_snd ((cancelWriteBack_shaped ((wholeWrite_shaped hy).put)).branch_snd ?_)
  split
  · split
    · dsimp only
      split
      · exact checkDram_shaped hy
      · exact cancelWriteBack_shaped (((checkDram_shaped hy).onProt rfl rfl).putMask)
    · dsimp only
      split
      · exact checkDram_shaped hy
      · exact cancelWriteBack_shaped ((checkDram_shaped hy).putMask)
  · split
    · dsimp only
      split
      · exact checkBuf_shaped hy
      · exact cancelWriteBack_shaped (((checkBuf_shaped hy).onProt rfl rfl).putMask)
    · exact cancelWriteBack_shaped hy.putMask

theorem writeMem_shaped {y : Sys} {key : Nat} {data : List Byte} {mask : List Bool} {who : Requester} (hy : Shaped y) :
    Shaped (writeMem y key data mask who).2 := by
  unfold writeMem
  exact (noteOverwrite_shaped hy).foldl_snd (fun _ _ => writeUnit_shaped)

theorem retHit_shaped {y : Sys} {lo hi : Nat} {skip : Option (Nat × Nat)} (hy : Shaped y) : Shaped (retHit y lo hi skip) := by
  unfold retHit
  exact hy.each (fun _ _ hz => (hz.onCore.each (fun _ _ => recordStep_shaped)).branch hz)

theorem writeRaw_shaped {y : Sys} {a : Nat} {data : List Byte} {mask : List Bool} {who : Requester} {skip : Option (Nat × Nat)} (hy :
    Shaped y) : Shaped (writeRaw y a data mask who skip).2 := by
  unfold writeRaw
  dsimp only
  split
  · exact hy
  · refine Shaped.each ?_ (fun _ _ => retHit_shaped)
    split
    · split
      · exact writeMem_shaped (writeMem_shaped hy)
      · exact writeMem_shaped hy
    · exact writeMem_shaped hy

theorem performReq_shaped {y : Sys} {r : BankReq} (hy : Shaped y) : Shaped (performReq y r).2 := by
  -- The kernel cannot afford to evaluate a key, in which a site counts 2 ^ 34: an unknown function stands for each.
  obtain ⟨key, hkey⟩ : ∃ key, dramKey = key := ⟨_, rfl⟩
  obtain ⟨addr, haddr⟩ : ∃ addr, dramAddr = addr := ⟨_, rfl⟩
  rw [performReq, hkey, haddr]
  split
  · dsimp only
    split
    · exact writeRaw_shaped hy
    split
    · exact writeRaw_shaped (writeMem_shaped hy)
    · exact writeMem_shaped hy
  · exact readMem_shaped hy

theorem settleBank_shaped {y : Sys} {id : Nat} (hy : Shaped y) : Shaped (settleBank y id) := by
  simp only [settleBank]
  split
  · exact hy
  refine (Shaped.foldl_snd hy fun r w hr => ?_).onBank
  split
  · exact hr
  · exact performReq_shaped hr

theorem bankTurn_shaped {y : Sys} {site off : Nat} {who : Requester} (hy : Shaped y) : Shaped (bankTurn y site off who) := by
  unfold bankTurn
  refine ((settleBank_shaped hy).branch ?_).onBank
  split
  · exact ((settleBank_shaped hy).onProt rfl rfl).onCore
  · exact (settleBank_shaped hy).onProt rfl rfl

theorem takeTurns_shaped {y : Sys} {key len : Nat} {who : Requester} (hy : Shaped y) : Shaped (takeTurns y key len who) := by
  unfold takeTurns
  exact hy.branch (hy.each (fun _ _ => bankTurn_shaped))

theorem readBank_shaped {y : Sys} {key len : Nat} {who : Requester} (hy : Shaped y) : Shaped (readBank y key len who).2 := by
  unfold readBank
  exact readMem_shaped (takeTurns_shaped hy)

theorem stopSite_shaped {y : Sys} {site cause : Nat} (hy : Shaped y) : Shaped (stopSite y site cause) := by
  unfold stopSite
  refine requestHold_shaped ?_
  split
  · exact faultStop_shaped hy
  · exact hy

theorem stepDescriptorFetch_shaped {col : Nat} {y : Sys} (hy : Shaped y) : Shaped (stepDescriptorFetch col y) := by
  unfold stepDescriptorFetch
  split
  · exact hy
  · split
    · exact hy
    · refine hy.branch ?_
      split
      · exact hy
      · dsimp only
        split
        · exact (readBank_shaped hy).onCore
        · exact stopSite_shaped (readBank_shaped hy)

theorem reform_shaped {site : Nat} {r : Sys × Option Accs} {s : StepRun} (hy : Shaped (r).1) : Shaped (reform site r s).1 := by
  unfold reform
  exact hy.branch_fst hy.onCore

theorem reformStale_shaped {y : Sys} {site : Nat} (hy : Shaped y) : Shaped (reformStale y site) := by
  unfold reformStale
  exact (hy.foldl_fst (fun _ _ => reform_shaped)).branch hy

theorem raiseFlags_shaped {y : Sys} {site i : Nat} {k : FlagSet} {fl : Nat} (hy : Shaped y) : Shaped (raiseFlags y site i k fl) := by
  unfold raiseFlags
  exact hy.onCore

theorem writeDev_shaped {y : Sys} {a : Nat} {data : List Byte} {mask : List Bool} {who : Requester} {skip : Option (Nat × Nat)} (hy :
    Shaped y) : Shaped (writeDev y a data mask who skip).2 := by
  unfold writeDev
  split
  · exact hy
  · exact writeRaw_shaped ((takeTurns_shaped hy).branch hy)

theorem busError_shaped {y : Sys} {site i cyc : Nat} (hy : Shaped y) : Shaped (busError y site i cyc) := by
  unfold busError
  exact stopSite_shaped (endStep_shaped (abandonReplay_shaped hy))

theorem bufWrite_shaped {y : Sys} {x : StepCtx} {a : Nat} {data : List Byte} (hy : Shaped y) : Shaped (bufWrite y x a data) := by
  unfold bufWrite
  exact (busError_shaped (writeDev_shaped hy)).branch (writeDev_shaped hy)

theorem checkRecord_shaped {y : Sys} {site : Nat} {s : StepRun} {r : Replay} {outcome replay flags attempts : Nat} (hy : Shaped y) :
    Shaped (checkRecord y site s r outcome replay flags attempts) := by
  unfold checkRecord
  exact faultRec_shaped hy

theorem failMember_shaped {site attempts : Nat} {y : Sys} {i : Nat} (hy : Shaped y) : Shaped (failMember site attempts y i) := by
  unfold failMember
  exact endStep_shaped hy.onCore

theorem replayRefused_shaped {y : Sys} {site : Nat} {p : StepRun} {members : List StepRun} {r : Replay} (hy : Shaped y) :
    Shaped (replayRefused y site p members r) := by
  unfold replayRefused
  exact stopSite_shaped ((checkRecord_shaped hy.onSiteFault).each (fun _ _ => failMember_shaped))

theorem stopMember_shaped {site p : Nat} {y : Sys} {i : Nat} (hy : Shaped y) : Shaped (stopMember site p y i) := by
  unfold stopMember
  split
  · exact hy
  · exact hy.onSiteFault.onCore

theorem shortfallHold_shaped {y : Sys} {cause release threatened : Nat} (hy : Shaped y) :
    Shaped (shortfallHold y cause release threatened) := by
  unfold shortfallHold
  exact hy.branch (hy.branch (requestHold_shaped hy))

theorem startReplay_shaped {y : Sys} {site col : Nat} {i : Image} {p : StepRun} {members : List StepRun} {r : Replay} {now : Nat} (hy :
    Shaped y) : Shaped (startReplay y site col i p members r now) := by
  unfold startReplay
  dsimp only
  split
  · exact shortfallHold_shaped (((hy.each (fun _ _ => stopMember_shaped)).onSiteFault).onCore)
  · exact ((hy.each (fun _ _ => stopMember_shaped)).onSiteFault).onCore

theorem checkFault_shaped {y : Sys} {site i cyc cls location detail count : Nat} {residual : F32} (hy : Shaped y) :
    Shaped (checkFault y site i cyc cls location detail count residual) := by
  unfold checkFault
  dsimp only
  split
  · exact hy
  · split
    · exact hy.onCore.branch (replayRefused_shaped (abandonReplay_shaped hy))
    · split
      · exact replayRefused_shaped hy
      · exact (startReplay_shaped hy).branch (replayRefused_shaped hy)

theorem writeTileRow_shaped {y : Sys} {x : StepCtx} {t : Tile} {us : List (Nat × Nat × W32)} {i : Nat} (hy : Shaped y) :
    Shaped (writeTileRow y x t us i) := by
  unfold writeTileRow
  extract_lets _ _ _ _ y1 _ y2 y3
  have hy1 : Shaped y1 := hy.branch (raiseFlags_shaped hy)
  have hy2 : Shaped y2 := bufWrite_shaped hy1
  have hy3 : Shaped y3 := (hy2.each (fun _ _ => bufWrite_shaped)).branch hy2
  split
  · exact checkFault_shaped hy3
  · exact hy3

theorem displaceMoves_shaped {y : Sys} {site now : Nat} (hy : Shaped y) : Shaped (displaceMoves y site now) := by
  unfold displaceMoves
  split
  · exact hy
  · exact hy.onCore.branch hy

theorem deliverRow_shaped {y : Sys} {x : StepCtx} {r : Drain} {now : Nat} (hy : Shaped y) : Shaped (deliverRow y x r now) := by
  unfold deliverRow
  exact hy.onCore.branch (writeTileRow_shaped (displaceMoves_shaped hy))

theorem deliverRows_shaped {site now fuel : Nat} {y : Sys} (hy : Shaped y) : Shaped (deliverRows site now fuel y) := by
  induction fuel generalizing y with
  | zero => exact hy
  | succ fuel ih =>
    unfold deliverRows
    split
    · exact hy
    split
    · exact ih hy.onCore
    split
    · exact ih hy.onCore
    · exact hy.branch (ih (deliverRow_shaped hy.onCore))

theorem deliverTo_shaped {y : Sys} {site now : Nat} (hy : Shaped y) : Shaped (deliverTo y site now) := by
  unfold deliverTo
  exact deliverRows_shaped hy

theorem checkFeeds_shaped {site now : Nat} {y : Sys} {s : StepRun} (hy : Shaped y) : Shaped (checkFeeds site now y s) := by
  unfold checkFeeds
  refine (hy.branch (hy.each (fun _ _ hz => hz.branch ?_))).onCore
  dsimp only
  split
  · exact busError_shaped (checkBuf_shaped (deliverTo_shaped hz))
  · exact checkBuf_shaped (deliverTo_shaped hz)

theorem formFlags_shaped {y : Sys} {site now : Nat} (hy : Shaped y) : Shaped (formFlags y site now) := by
  unfold formFlags
  exact hy.each (fun _ _ hz => (raiseFlags_shaped hz).onCore)

theorem settleCore_shaped {y : Sys} {site now : Nat} (hy : Shaped y) : Shaped (settleCore y site now) := by
  unfold settleCore
  exact (formFlags_shaped (deliverTo_shaped ((reformStale_shaped hy).each (fun _ _ => checkFeeds_shaped)))).onCore

theorem gateTo_shaped {upTo : Nat} {y : Sys} {site : Nat} (hy : Shaped y) : Shaped (gateTo upTo y site) := by
  unfold gateTo
  exact hy.branch hy.onSitePow.onCore

theorem advanceCore_shaped {cyc : Nat} {y : Sys} {site : Nat} (hy : Shaped y) : Shaped (advanceCore cyc y site) := by
  unfold advanceCore
  exact settleCore_shaped (gateTo_shaped hy)

theorem coreAtIssue_shaped {y : Sys} {x : StepCtx} (hy : Shaped y) : Shaped (coreAtIssue y x) := by
  unfold coreAtIssue
  exact advanceCore_shaped ((stepDescriptorFetch_shaped hy).branch hy)

theorem missedStart_shaped {y : Sys} {x : StepCtx} (hy : Shaped y) : Shaped (missedStart y x) := by
  unfold missedStart
  exact stopSite_shaped (recordStep_shaped hy.onCore)

theorem issueAny_shaped {op col cyc : Nat} {go : Sys → StepCtx → Sys} {y : Sys} (hy : Shaped y)
    (hf : ∀ x0 x1, Shaped x0 → Shaped (go x0 x1)) : Shaped (issueAny op col cyc go y) := by
  unfold issueAny
  split
  · exact hy
  · extract_lets y11 _
    have hy11 : Shaped y11 := coreAtIssue_shaped hy
    exact hy.branch (hy11.branch ((missedStart_shaped hy11).branch (hf _ _ hy11)))

theorem beginStep_shaped {y : Sys} {x : StepCtx} {pages : List PageDesc} (hy : Shaped y) : Shaped (beginStep y x pages) := by
  unfold beginStep
  exact hy.onCore

theorem issueStep_shaped {op col cyc : Nat} {run : Sys → StepCtx → Sys} {x4 : Sys} (hy : Shaped x4)
    (hf : ∀ x0 x1, Shaped x0 → Shaped (run x0 x1)) : Shaped (issueStep op col cyc run x4) := by
  unfold issueStep
  exact issueAny_shaped hy (fun _ _ hz => hf _ _ (beginStep_shaped hz))

theorem startLane_shaped {y : Sys} {x : StepCtx} {startAt : Nat} (hy : Shaped y) : Shaped (startLane y x startAt) := by
  unfold startLane
  exact hy.onCore

theorem runMatmul_shaped {y : Sys} {x : StepCtx} (hy : Shaped y) : Shaped (runMatmul y x) := by
  unfold runMatmul
  split
  · exact hy
  · exact (startLane_shaped hy.onCore).branch hy.onCore

theorem prepRefuses_shaped {y : Sys} {x : StepCtx} {p : Prep} (hy : Shaped y) : Shaped (prepRefuses y x p) := by
  unfold prepRefuses
  exact stopSite_shaped (recordStep_shaped hy.onCore)

theorem takePrep_shaped {y : Sys} {x : StepCtx} {p : Prep} (hy : Shaped y) : Shaped (takePrep y x p) := by
  unfold takePrep
  exact hy.onCore

theorem issuePrepared_shaped {run : Sys → StepCtx → Sys} {y : Sys} {x : StepCtx} (hy : Shaped y)
    (hf : ∀ x0 x1, Shaped x0 → Shaped (run x0 x1)) : Shaped (issuePrepared run y x) := by
  unfold issuePrepared
  split
  · exact (prepRefuses_shaped hy).branch ((hf _ _ (takePrep_shaped (beginStep_shaped hy))).branch ((beginStep_shaped hy).onCore))
  · exact (beginStep_shaped hy).onCore

theorem hostAccess1_shaped {y : Sys} {write : Bool} {addr len : Nat} {data : List Byte} {mask : List Bool} {use : HostUse} (hy : Shaped y) :
    Shaped (hostAccess1 y write addr len data mask use) := by
  unfold hostAccess1
  exact hy.onHost rfl

theorem dwrRange_shaped {y : Sys} {addr : Nat} {data : List Byte} {use : HostUse} (hy : Shaped y) :
    Shaped (dwrRange y addr data use) := by
  unfold dwrRange
  exact hy.each (fun _ _ => hostAccess1_shaped)

theorem holdLine_shaped {y : Sys} {site i row a : Nat} {data : List Byte} (hy : Shaped y) : Shaped (holdLine y site i row a data) := by
  unfold holdLine
  exact hy.onCore.onSiteFault

theorem stepWrite_shaped {y : Sys} {x : StepCtx} {host : Bool} {row a : Nat} {data : List Byte} (hy : Shaped y) :
    Shaped (stepWrite y x host row a data) := by
  unfold stepWrite
  exact (dwrRange_shaped hy).branch (hy.each (fun _ _ hz => hz.branch ((bufWrite_shaped hz).branch (holdLine_shaped hz))))

theorem writeFlat_shaped {y : Sys} {x : StepCtx} {a : Nat} {vs : List F32} (hy : Shaped y) : Shaped (writeFlat y x a vs) := by
  unfold writeFlat
  extract_lets _ _ _ _ y1 y2 y3
  have hy1 : Shaped y1 := raiseFlags_shaped hy
  have hy2 : Shaped y2 := stepWrite_shaped hy1
  have hy3 : Shaped y3 := (stepWrite_shaped hy2).branch hy2
  split
  · exact checkFault_shaped hy3
  · exact hy3

theorem attendOutput_shaped {y : Sys} {x : StepCtx} {a : AttendState} (hy : Shaped y) : Shaped (attendOutput y x a) := by
  unfold attendOutput
  exact (((startLane_shaped hy).onCore).branch (writeFlat_shaped hy)).branch (stepWrite_shaped hy)

theorem runAttend_shaped {y : Sys} {x : StepCtx} (hy : Shaped y) : Shaped (runAttend y x) := by
  unfold runAttend
  refine Shaped.branch ?_ hy.onCore
  split
  · exact attendOutput_shaped hy.onCore
  · exact hy.onCore

theorem detourStep_shaped {y : Sys} {x : StepCtx} {addrs : List Nat} (hy : Shaped y) : Shaped (detourStep y x addrs) := by
  unfold detourStep
  exact hy.branch hy.onCore

theorem askLines_shaped {y : Sys} {x : StepCtx} (hy : Shaped y) : Shaped (askLines y x) := by
  unfold askLines
  dsimp only
  split
  · exact hy.branch hy.onCore
  · exact hy

theorem drd_shaped {y : Sys} {addr len : Nat} {use : HostUse} (hy : Shaped y) : Shaped (drd y addr len use) := by
  unfold drd
  exact hostAccess1_shaped hy

theorem meshRequest_shaped {y : Sys} {kind src srcInc a n : Nat} {payload : List Byte} {who : Requester} {pos : Nat} (hy : Shaped y) :
    Shaped (meshRequest y kind src srcInc a n payload who pos) := by
  unfold meshRequest
  exact hy.onNoc rfl

theorem meshRead1_shaped {y : Sys} {x : StepCtx} {a n pos : Nat} (hy : Shaped y) : Shaped (meshRead1 y x a n pos) := by
  unfold meshRead1
  exact meshRequest_shaped hy

theorem readDev_shaped {y : Sys} {a n : Nat} {who : Requester} (hy : Shaped y) : Shaped (readDev y a n who).2 := by
  unfold readDev
  refine hy.branch_snd ?_
  split
  · exact hy
  · exact readBank_shaped hy

theorem readAll_shaped {y : Sys} {x : StepCtx} {l : List (Nat × Nat)} (hy : Shaped y) : Shaped (readAll y x l).2 := by
  unfold readAll
  refine hy.foldl_snd (fun _ _ hz => ?_)
  split
  · exact hz
  · dsimp only
    split
    · exact readDev_shaped hz
    · exact busError_shaped (readDev_shaped hz)

theorem writeBlock_shaped {y : Sys} {x : StepCtx} {b : Nat} {bytes : List Byte} (hy : Shaped y) : Shaped (writeBlock y x b bytes) := by
  unfold writeBlock
  exact hy.each (fun _ _ => stepWrite_shaped)

theorem stepReads_shaped {y : Sys} {x : StepCtx} {a n : Nat} {f : Sys → List Byte → Sys} (hy : Shaped y)
    (hf : ∀ x0 x1, Shaped x0 → Shaped (f x0 x1)) : Shaped (stepReads y x a n f) := by
  unfold stepReads
  dsimp only
  split
  · exact hf _ _ (readDev_shaped hy)
  · exact busError_shaped (readDev_shaped hy)

theorem runMove_shaped {y : Sys} {x : StepCtx} (hy : Shaped y) : Shaped (runMove y x) := by
  unfold runMove
  extract_lets _ _ _ y1 _ _
  have hy1 : Shaped y1 := detourStep_shaped (askLines_shaped hy)
  refine (hy1.each (fun _ _ => drd_shaped)).branch ((hy1.each (fun _ _ => meshRead1_shaped)).branch ((hy1.each (fun _ _ hz1 => hz1.branch
    ?_)).branch (hy1.each (fun _ _ hz2 => (stepReads_shaped hz2 (fun _ _ => stepWrite_shaped)).branch hz2))))
  dsimp only
  split
  · exact writeBlock_shaped (readAll_shaped hz1)
  · exact readAll_shaped hz1

theorem runIndexed_shaped {elem : Sys → StepCtx → Nat → Nat → Sys} {y : Sys} {x : StepCtx} (hy : Shaped y)
    (hf : ∀ x0 x1 x2 x3, Shaped x0 → Shaped (elem x0 x1 x2 x3)) : Shaped (runIndexed elem y x) := by
  unfold runIndexed
  exact stepReads_shaped (detourStep_shaped hy) (fun _ _ hz1 => hz1.each (fun _ _ hz2 => (hf _ _ _ _ hz2).branch hz2))

theorem skipElem_shaped {y : Sys} {x : StepCtx} (hy : Shaped y) : Shaped (skipElem y x) := by
  unfold skipElem
  exact hy.onCore

theorem gatherElem_shaped {y : Sys} {x : StepCtx} {n idx : Nat} (hy : Shaped y) : Shaped (gatherElem y x n idx) := by
  unfold gatherElem
  exact (stepWrite_shaped (skipElem_shaped hy)).branch ((hy.each (fun _ _ => meshRead1_shaped)).branch (hy.each (fun _ _ hz =>
    (stepReads_shaped hz (fun _ _ => stepWrite_shaped)).branch hz)))

theorem runGather_shaped {x0 : Sys} {x1 : StepCtx} (hy : Shaped x0) : Shaped (runGather x0 x1) := by
  unfold runGather
  exact runIndexed_shaped hy (fun _ _ _ _ => gatherElem_shaped)

theorem scatterElem_shaped {y : Sys} {x : StepCtx} {n idx : Nat} (hy : Shaped y) : Shaped (scatterElem y x n idx) := by
  unfold scatterElem
  exact (skipElem_shaped hy).branch (hy.each (fun _ _ hz => (stepReads_shaped hz (fun _ _ => stepWrite_shaped)).branch hz))

theorem runScatter_shaped {x0 : Sys} {x1 : StepCtx} (hy : Shaped x0) : Shaped (runScatter x0 x1) := by
  unfold runScatter
  exact runIndexed_shaped hy (fun _ _ _ _ => scatterElem_shaped)

theorem armFlow_shaped {send reduce : Bool} {y : Sys} {x : StepCtx} (hy : Shaped y) : Shaped (armFlow send reduce y x) := by
  unfold armFlow
  exact hy.branch hy.onCore

theorem refusedStep_shaped {y : Sys} {x : StepCtx} {walkErr : Nat} (hy : Shaped y) : Shaped (refusedStep y x walkErr) := by
  unfold refusedStep
  exact recordStep_shaped hy.onCore

theorem runRowop_shaped {y : Sys} {x : StepCtx} (hy : Shaped y) : Shaped (runRowop y x) := by
  unfold runRowop
  exact (refusedStep_shaped (hy.onProt rfl rfl)).branch (((beginStep_shaped hy).onCore).each (fun _ _ hz => hz.onBank))

theorem writeRow_shaped {y : Sys} {site off : Nat} {data : List Byte} (hy : Shaped y) : Shaped (writeRow y site off data) := by
  unfold writeRow
  dsimp only
  split
  · exact retHit_shaped (hy.put.onProt rfl rfl)
  · exact hy.put.onProt rfl rfl

theorem budgetTest_shaped {y : Sys} {layer : Nat} (hy : Shaped y) : Shaped (budgetTest y layer) := by
  unfold budgetTest
  exact hy.onLayer

theorem spendTokens_shaped {y : Sys} {layer cost : Nat} (hy : Shaped y) : Shaped (spendTokens y layer cost) := by
  unfold spendTokens
  exact budgetTest_shaped hy.onLayer

theorem takeTokens_shaped {y : Sys} {site tile bank op cost : Nat} {who : Requester} {now : Nat} (hy : Shaped y) :
    Shaped (takeTokens y site tile bank op cost who now) := by
  unfold takeTokens
  refine Shaped.branch ?_ ?_
  · split
    · exact ((spendTokens_shaped (settleBank_shaped hy)).onBank).onCore
    · exact (spendTokens_shaped (settleBank_shaped hy)).onBank
  · split
    · exact ((settleBank_shaped hy).onBank).onCore
    · exact (settleBank_shaped hy).onBank

theorem scoreRows_shaped {y : Sys} {x : StepCtx} {qrow xrow : Nat} {h : ListHdr} {lim t : Nat} {sk : List Byte} (hy : Shaped y) :
    Shaped (scoreRows y x qrow xrow h lim t sk).2 := by
  unfold scoreRows
  exact (writeRow_shaped hy).foldl_snd (fun _ _ hz => writeRow_shaped (takeTokens_shaped hz))

theorem sketchQuery_shaped {y : Sys} {x : StepCtx} {p : Pw} {h : ListHdr} {lim r : Nat} (hy : Shaped y) :
    Shaped (sketchQuery y x p h lim r) := by
  unfold sketchQuery
  exact stepReads_shaped hy (fun _ _ hz1 => stepReads_shaped (scoreRows_shaped hz1) (fun _ _ hz2 => stepWrite_shaped hz2.onCore))

theorem runSketch_shaped {y : Sys} {x : StepCtx} (hy : Shaped y) : Shaped (runSketch y x) := by
  unfold runSketch
  split
  · exact hy
  · exact hy.each (fun _ _ hz => (sketchQuery_shaped hz).branch hz)

theorem markEnd_shaped {y : Sys} {site i cyc : Nat} (hy : Shaped y) : Shaped (markEnd y site i cyc) := by
  unfold markEnd
  exact hy.onCore

theorem runHint_shaped {y : Sys} {x : StepCtx} (hy : Shaped y) : Shaped (runHint y x) := by
  unfold runHint
  exact markEnd_shaped hy

theorem appendPos_shaped {x : StepCtx} {q : Pool} {r : Sys × List (Nat × List Nat)} {a : AppendPos} (hy : Shaped (r).1) :
    Shaped (appendPos x q r a).1 := by
  unfold appendPos
  extract_lets y1 _ _ _ _ _ y2 _
  have hy1 : Shaped y1 := hy
  have hy2 : Shaped (y2).2 := readAll_shaped hy
  refine hy.branch_fst ?_
  split
  · exact hy2
  · extract_lets _ _ y21 y22 y23 y24 y25 y26
    have hy21 : Shaped y21 := stepWrite_shaped hy2
    have hy22 : Shaped y22 := stepWrite_shaped hy21
    have hy23 : Shaped y23 := hy22.each (fun _ _ => stepWrite_shaped)
    have hy24 : Shaped y24 := stepWrite_shaped hy23
    have hy25 : Shaped y25 := stepWrite_shaped hy24
    have hy26 : Shaped y26 := stepWrite_shaped hy25
    exact hy26

theorem runAppend_shaped {y : Sys} {x : StepCtx} (hy : Shaped y) : Shaped (runAppend y x) := by
  unfold runAppend
  split
  · exact hy.foldl_fst (fun _ _ => appendPos_shaped)
  · exact hy

theorem runReduce_shaped {y : Sys} {x : StepCtx} (hy : Shaped y) : Shaped (runReduce y x) := by
  unfold runReduce
  dsimp only
  split
  · exact readAll_shaped hy
  · exact writeFlat_shaped (raiseFlags_shaped (readAll_shaped hy))

theorem stepEnd_shaped {col i cyc : Nat} {y : Sys} (hy : Shaped y) : Shaped (stepEnd col i cyc y) := by
  unfold stepEnd
  extract_lets _ _ y1
  have hy1 : Shaped y1 := formFlags_shaped (advanceCore_shaped hy)
  split
  · extract_lets y21 y22
    have hy21 : Shaped y21 := (runReduce_shaped hy1).branch hy1
    have hy22 : Shaped y22 := hy21.onCore.branch (hy21.onCore.branch (hy21.onCore.branch hy21))
    exact hy1.branch ((markEnd_shaped hy22).branch hy21)
  · exact hy1

theorem flowExpiry_shaped {col i cyc : Nat} {y : Sys} (hy : Shaped y) : Shaped (flowExpiry col i cyc y) := by
  unfold flowExpiry
  dsimp only
  split
  · exact hy.branch (stopSite_shaped (endStep_shaped (abandonReplay_shaped (faultRec_shaped hy))))
  · exact hy

theorem sendHost_shaped {y : Sys} {m : HostMsg} (hy : Shaped y) : Shaped (sendHost y m) := by
  unfold sendHost
  exact hy.onHalf

theorem sendErr_shaped {y : Sys} {tag addr status cause : Nat} (hy : Shaped y) : Shaped (sendErr y tag addr status cause) := by
  unfold sendErr
  exact sendHost_shaped hy

theorem callBack_shaped {y : Sys} {a : Nat} (hy : Shaped y) : Shaped (callBack y a) := by
  unfold callBack
  split
  · exact hy
  · exact sendHost_shaped ((hy.onSched rfl rfl).onHost rfl)

theorem grantLine_shaped {y : Sys} {tag a : Nat} {e : Bool} (hy : Shaped y) : Shaped (grantLine y tag a e) := by
  unfold grantLine
  split
  · split
    · dsimp only
      split
      · exact sendErr_shaped (event_shaped (hy.branch_snd (readBank_shaped hy)))
      · exact callBack_shaped (sendHost_shaped ((hy.branch_snd (readBank_shaped hy)).onHost rfl))
    · dsimp only
      split
      · exact sendErr_shaped (event_shaped (hy.branch_snd (readBank_shaped hy)))
      · exact callBack_shaped (sendHost_shaped ((hy.branch_snd (readBank_shaped hy)).onHost rfl))
  · split
    · dsimp only
      split
      · exact sendErr_shaped (event_shaped (hy.branch_snd (readBank_shaped hy)))
      · exact callBack_shaped (sendHost_shaped ((hy.branch_snd (readBank_shaped hy)).onHost rfl))
    · dsimp only
      split
      · exact sendErr_shaped (event_shaped (hy.branch_snd (readBank_shaped hy)))
      · exact callBack_shaped (sendHost_shaped ((hy.branch_snd (readBank_shaped hy)).onHost rfl))

theorem meshRecord_shaped {y : Sys} {router kind resends : Nat} (hy : Shaped y) : Shaped (meshRecord y router kind resends) := by
  unfold meshRecord
  exact faultRecCc_shaped hy

theorem refusedTwice_shaped {y : Sys} {router kind : Nat} (hy : Shaped y) : Shaped (refusedTwice y router kind) := by
  unfold refusedTwice
  exact (meshRecord_shaped (meshRecord_shaped hy)).onFaults

theorem readUcNow_shaped {y : Sys} {tag a len : Nat} (hy : Shaped y) : Shaped (readUcNow y tag a len) := by
  unfold readUcNow
  split
  · exact sendHost_shaped hy
  · exact sendErr_shaped (event_shaped (refusedTwice_shaped hy))
  · dsimp only
    split
    · exact sendErr_shaped (event_shaped (readBank_shaped hy))
    · exact sendHost_shaped (readBank_shaped hy)

theorem mailboxWrite_shaped {y : Sys} {a : Nat} {data : List Byte} {mask : List Bool} (hy : Shaped y) :
    Shaped (mailboxWrite y a data mask) := by
  unfold mailboxWrite
  exact hy.branch (((sendHost_shaped ((hy.putMask.onHost rfl).onHost rfl)).branch (hy.putMask.onHost rfl)).branch hy.putMask)

theorem hostWrite_shaped {y : Sys} {a : Nat} {data : List Byte} {mask : List Bool} (hy : Shaped y) :
    Shaped (hostWrite y a data mask).2 := by
  unfold hostWrite
  split
  · exact mailboxWrite_shaped hy
  · exact event_shaped (refusedTwice_shaped hy)
  · exact (event_shaped (writeDev_shaped hy)).branch_snd (writeDev_shaped hy)

theorem sendAck_shaped {y : Sys} {tag addr : Nat} (hy : Shaped y) : Shaped (sendAck y tag addr) := by
  unfold sendAck
  exact sendHost_shaped hy

theorem writeUcNow_shaped {y : Sys} {tag a : Nat} {data : List Byte} {mask : List Bool} (hy : Shaped y) :
    Shaped (writeUcNow y tag a data mask) := by
  unfold writeUcNow
  exact (sendErr_shaped (hostWrite_shaped hy)).branch (sendAck_shaped (hostWrite_shaped hy))

theorem rmwFailed_shaped {y : Sys} {who : Requester} (hy : Shaped y) : Shaped (rmwFailed y who) := by
  unfold rmwFailed
  split
  · exact stopSite_shaped hy
  · exact hy

theorem runHome_shaped {y : Sys} {line : Nat} {r : HomeReq} (hy : Shaped y) : Shaped (runHome y line r) := by
  unfold runHome
  split
  · exact grantLine_shaped hy
  · exact grantLine_shaped hy
  · exact readUcNow_shaped hy
  · exact writeUcNow_shaped hy
  · exact (rmwFailed_shaped (writeDev_shaped hy)).branch (writeDev_shaped hy)
  · exact hy
  · exact hy
  · exact hy.onHost rfl
  · exact hy

theorem beginHome_shaped {y : Sys} {line : Nat} {r : HomeReq} (hy : Shaped y) : Shaped (beginHome y line r) := by
  unfold beginHome
  split
  · exact sendHost_shaped (hy.onHost rfl)
  · exact (sendHost_shaped (hy.onHost rfl)).branch (runHome_shaped hy)

theorem homeArrive_shaped {y : Sys} {line : Nat} {r : HomeReq} (hy : Shaped y) : Shaped (homeArrive y line r) := by
  unfold homeArrive
  exact (hy.onHost rfl).branch (beginHome_shaped hy)

theorem deviceWrite_shaped {y : Sys} {a : Nat} {data : List Byte} {mask : List Bool} {who : Requester} {skip : Option (Nat × Nat)} (hy :
    Shaped y) : Shaped (deviceWrite y a data mask who skip) := by
  unfold deviceWrite
  exact hy.each (fun _ _ hz => (homeArrive_shaped hz).branch ((rmwFailed_shaped (writeDev_shaped hz)).branch (writeDev_shaped hz)))

theorem releaseWrite_shaped {y : Sys} {site col i : Nat} {h : HeldWrite} (hy : Shaped y) : Shaped (releaseWrite y site col i h) := by
  unfold releaseWrite
  exact (hy.each (fun _ _ => meshRequest_shaped)).branch (deviceWrite_shaped hy)

theorem completeStep_shaped {y : Sys} {site col i outcome replays : Nat} (hy : Shaped y) :
    Shaped (completeStep y site col i outcome replays) := by
  unfold completeStep
  split
  · exact hy
  · exact recordStep_shaped (hy.onCore.each (fun _ _ => releaseWrite_shaped))

theorem stepComplete_shaped {col i cyc : Nat} {y : Sys} (hy : Shaped y) : Shaped (stepComplete col i cyc y) := by
  unfold stepComplete
  dsimp only
  split
  · exact hy
  · exact hy.branch (completeStep_shaped hy)

theorem withParity_shaped {y arrives : Sys} {src dest : Nat} {found : Option Site} {lost : Nat → Sys} (harrives : Shaped arrives)
    (hlost : ∀ s, Shaped (lost s)) : Shaped (withParity y src dest found lost arrives) := by
  unfold withParity
  split
  · exact harrives
  · exact (hlost _).branch harrives

theorem shuttleError_shaped {y : Sys} {stop : Nat} (hy : Shaped y) : Shaped (shuttleError y stop) := by
  unfold shuttleError
  exact hy.onSiteNoc

theorem lostMessage_shaped {fault : Bool} {y : Sys} {stop : Nat} (hy : Shaped y) : Shaped (lostMessage fault y stop) := by
  unfold lostMessage
  exact (shuttleError_shaped hy).onSiteNoc

theorem recordArrives_shaped {y arrives : Sys} {fault : Bool} {r : SentRecord} {found : Option Site} (hy : Shaped y) (harrives :
    Shaped arrives) : Shaped (recordArrives y fault r found arrives) := by
  unfold recordArrives
  exact harrives.branch (withParity_shaped (harrives.branch hy.onSiteNoc) fun _ => lostMessage_shaped hy)

theorem statusRecord_shaped {y : Sys} {b : List Byte} {q : Nat} (hy : Shaped y) : Shaped (statusRecord y b q) := by
  unfold statusRecord
  exact hy.branch ((dwrRange_shaped (hy.onSched rfl (by simp))).branch (dwrRange_shaped (hy.onSched rfl (by simp))))

theorem stepStatusRecord_shaped {parityError : Option Site} {y : Sys} (hy : Shaped y) : Shaped (stepStatusRecord parityError y) := by
  unfold stepStatusRecord
  split
  · exact hy
  · exact recordArrives_shaped (hy.onHost rfl) (statusRecord_shaped (hy.onHost rfl))

theorem faultRecord_shaped {parityError : Option Site} {y : Sys} (hy : Shaped y) : Shaped (faultRecord parityError y) := by
  unfold faultRecord
  split
  · exact hy
  · exact recordArrives_shaped (hy.onHost rfl) (ringPush_shaped (hy.onHost rfl))

theorem feederLineRequest_shaped {col : Nat} {side : FeederSide} {q cyc : Nat} {y : Sys} (hy : Shaped y) :
    Shaped (feederLineRequest col side q cyc y) := by
  unfold feederLineRequest
  dsimp only
  split
  · exact advanceCore_shaped hy
  · exact (advanceCore_shaped hy).branch ((advanceCore_shaped hy).onCore)

theorem strikeLine_shaped {y : Sys} {site line : Nat} {ps : List Nat} (hy : Shaped y) : Shaped (strikeLine y site line ps) := by
  unfold strikeLine
  exact hy.onProt rfl rfl

theorem bufferBankReadGrant_shaped {col bank : Nat} {upset : List Nat} {cyc : Nat} {y : Sys} (hy : Shaped y) :
    Shaped (bufferBankReadGrant col bank upset cyc y) := by
  unfold bufferBankReadGrant
  split
  · dsimp only
    split
    · exact advanceCore_shaped hy
    · refine (advanceCore_shaped hy).branch ?_
      split
      · split
        · exact strikeLine_shaped ((advanceCore_shaped hy).onCore)
        · split
          · exact busError_shaped (checkBuf_shaped (strikeLine_shaped ((advanceCore_shaped hy).onCore)))
          · exact checkFault_shaped ((checkBuf_shaped (strikeLine_shaped ((advanceCore_shaped hy).onCore))).onCore)
      · exact strikeLine_shaped ((advanceCore_shaped hy).onCore)
  · dsimp only
    split
    · exact advanceCore_shaped hy
    · refine (advanceCore_shaped hy).branch ?_
      split
      · split
        · exact strikeLine_shaped ((advanceCore_shaped hy).onCore)
        · split
          · exact busError_shaped (checkBuf_shaped (strikeLine_shaped ((advanceCore_shaped hy).onCore)))
          · exact (checkBuf_shaped (strikeLine_shaped ((advanceCore_shaped hy).onCore))).onCore
      · exact strikeLine_shaped ((advanceCore_shaped hy).onCore)

theorem displaced_shaped {y : Sys} {site : Nat} {w : Option LineWriter} (hy : Shaped y) : Shaped (displaced y site w) := by
  unfold displaced
  exact hy.onCore.branch hy

theorem bufferLineWrite_shaped {col : Nat} {w : LineWriter} {a : Nat} {data : List Byte} {mask : List Bool} {cyc : Nat} {y : Sys} (hy :
    Shaped y) : Shaped (bufferLineWrite col w a data mask cyc y) := by
  unfold bufferLineWrite
  refine hy.branch (Shaped.branch ?_ (writeDev_shaped (displaced_shaped ((advanceCore_shaped hy).onCore))))
  split
  · exact busError_shaped (writeDev_shaped (displaced_shaped ((advanceCore_shaped hy).onCore)))
  · exact writeDev_shaped (displaced_shaped ((advanceCore_shaped hy).onCore))

theorem bufferWriteBack_shaped {col : Nat} {y : Sys} (hy : Shaped y) : Shaped (bufferWriteBack col y) := by
  unfold bufferWriteBack
  dsimp only
  split
  · exact hy
  · exact hy.onProt rfl rfl

theorem tileDrain_shaped {col : Nat} {us : List (Nat × Nat × W32)} {cyc : Nat} {y : Sys} (hy : Shaped y) :
    Shaped (tileDrain col us cyc y) := by
  unfold tileDrain
  dsimp only
  split
  · exact advanceCore_shaped hy
  · split
    · exact (advanceCore_shaped hy).onCore
    · exact (advanceCore_shaped hy).branch (deliverTo_shaped ((advanceCore_shaped hy).onCore))

theorem drainRowEnterStream_shaped {col cyc : Nat} {y : Sys} (hy : Shaped y) : Shaped (drainRowEnterStream col cyc y) := by
  unfold drainRowEnterStream
  exact (advanceCore_shaped hy).onCore

theorem arrayCheckCompare_shaped {col cyc : Nat} {y : Sys} (hy : Shaped y) : Shaped (arrayCheckCompare col cyc y) := by
  unfold arrayCheckCompare
  extract_lets _ y1 _
  have hy1 : Shaped y1 := advanceCore_shaped hy
  split
  · exact hy1
  · split
    · dsimp only
      split
      · exact hy1.onCore
      · exact hy1.onCore.onCore
    · dsimp only
      split
      · exact hy1.onCore
      · exact hy1.onCore.onCore.branch (checkFault_shaped hy1.onCore.onCore)

theorem runKind_shaped {y : Sys} {x : StepCtx} (hy : Shaped y) : Shaped (runKind y x) := by
  unfold runKind
  split
  · exact runMatmul_shaped hy
  · exact runAttend_shaped hy
  · exact startLane_shaped hy
  · exact runMove_shaped hy
  · exact runGather_shaped hy
  · exact runScatter_shaped hy
  · exact armFlow_shaped hy
  · exact runSketch_shaped hy
  · exact runAppend_shaped hy
  · exact hy

theorem replayReissue_shaped {col : Nat} {spoiled : Option Nat} {cyc : Nat} {y : Sys} (hy : Shaped y) :
    Shaped (replayReissue col spoiled cyc y) := by
  unfold replayReissue
  split
  · dsimp only
    split
    · exact advanceCore_shaped hy
    · refine (advanceCore_shaped hy).branch ?_
      split
      · exact advanceCore_shaped hy
      · split
        · exact (advanceCore_shaped hy).branch (checkFault_shaped (runKind_shaped ((advanceCore_shaped hy).onCore)))
        · exact advanceCore_shaped hy
  · dsimp only
    split
    · exact advanceCore_shaped hy
    · refine (advanceCore_shaped hy).branch ?_
      split
      · exact advanceCore_shaped hy
      · split
        · exact (advanceCore_shaped hy).branch (runKind_shaped ((advanceCore_shaped hy).onCore))
        · exact advanceCore_shaped hy

theorem replayLost_shaped {y : Sys} {site : Nat} {r : Replay} (hy : Shaped y) : Shaped (replayLost y site r) := by
  unfold replayLost
  refine requestHold_shaped ?_
  split
  · refine faultStop_shaped (((Shaped.onCore ?_).each (fun _ _ => failMember_shaped)).onNoc rfl)
    split
    · exact checkRecord_shaped hy.onSiteFault
    · exact hy.onSiteFault
  · refine ((Shaped.onCore ?_).each (fun _ _ => failMember_shaped)).onNoc rfl
    split
    · exact checkRecord_shaped hy.onSiteFault
    · exact hy.onSiteFault

theorem replayEnd_shaped {col cyc : Nat} {y : Sys} (hy : Shaped y) : Shaped (replayEnd col cyc y) := by
  unfold replayEnd
  dsimp only
  split
  · exact hy
  · refine ((replayLost_shaped hy).branch ?_).branch (hy.branch ((Shaped.onCore ?_).each (fun _ _ => completeStep_shaped)))
    · split
      · exact startReplay_shaped hy
      · exact hy
    · split
      · exact checkRecord_shaped hy
      · exact hy

theorem onVec_shaped {y : Sys} {site : Nat} {f : VecUnit → VecUnit} (hy : Shaped y) : Shaped (onVec y site f) := by
  unfold onVec
  exact hy.onCore

theorem vectorFault_shaped {y : Sys} {k : LaneCtx} {lane : Nat} (hy : Shaped y) : Shaped (vectorFault y k lane) := by
  unfold vectorFault
  exact checkFault_shaped hy

theorem registerFault_shaped {y : Sys} {k : LaneCtx} {entry : Nat} (hy : Shaped y) : Shaped (registerFault y k entry) := by
  unfold registerFault
  exact checkFault_shaped hy

theorem upsetFault_shaped {y : Sys} {k : LaneCtx} {x2 : Option Upset} (hy : Shaped y) : Shaped (upsetFault y k x2) := by
  unfold upsetFault
  split
  · exact hy
  · exact vectorFault_shaped hy
  · exact registerFault_shaped hy

theorem laneRun_shaped {op col cyc : Nat} {upset : Option Upset} {f : Sys → LaneCtx → Sys} {y : Sys} (hy : Shaped y)
    (hf : ∀ x0 x1, Shaped x0 → Shaped (f x0 x1)) : Shaped (laneRun op col cyc upset f y) := by
  unfold laneRun
  split
  · exact hy
  · exact upsetFault_shaped (hf _ _ (onVec_shaped hy))

theorem runHalt_shaped {y : Sys} {k : LaneCtx} (hy : Shaped y) : Shaped (runHalt y k) := by
  unfold runHalt
  exact hy.onCore

theorem runLoop_shaped {y : Sys} {k : LaneCtx} (hy : Shaped y) : Shaped (runLoop y k) := by
  unfold runLoop
  exact onVec_shaped hy

theorem runLd_shaped {y : Sys} {k : LaneCtx} (hy : Shaped y) : Shaped (runLd y k) := by
  unfold runLd
  exact stepReads_shaped hy (fun _ _ => onVec_shaped)

theorem runSt_shaped {upset : Option Upset} {y : Sys} {k : LaneCtx} (hy : Shaped y) : Shaped (runSt upset y k) := by
  unfold runSt
  split
  · extract_lets _ _ _ _ _ _ _ y11 _ _ _ _ y12 y13 y14 y15 y16
    have hy11 : Shaped (y11).2 := hy.takeFree.branch_snd hy
    have hy12 : Shaped y12 := onVec_shaped hy11
    have hy13 : Shaped y13 := raiseFlags_shaped hy12
    have hy14 : Shaped y14 := hy13.each (fun _ _ => displaceMoves_shaped)
    have hy15 : Shaped y15 := bufWrite_shaped hy14
    have hy16 : Shaped y16 := (bufWrite_shaped hy15).branch hy15
    split
    · exact checkFault_shaped hy16
    · exact registerFault_shaped hy16
    · exact hy16
  · extract_lets _ _ _ _ _ _ _ y11 _ _ _ _ y12 y13 y14 y15 y16
    have hy11 : Shaped (y11).2 := hy.takeFree.branch_snd hy
    have hy12 : Shaped y12 := onVec_shaped hy11
    have hy13 : Shaped y13 := raiseFlags_shaped hy12
    have hy14 : Shaped y14 := hy13.each (fun _ _ => displaceMoves_shaped)
    have hy15 : Shaped y15 := bufWrite_shaped hy14
    have hy16 : Shaped y16 := (bufWrite_shaped hy15).branch hy15
    split
    · exact checkFault_shaped hy16
    · exact registerFault_shaped hy16
    · exact hy16

theorem runIn_shaped {y : Sys} {k : LaneCtx} (hy : Shaped y) : Shaped (runIn y k) := by
  unfold runIn
  exact onVec_shaped hy

theorem laneInCmd_shaped {col cyc : Nat} {upset : Bool} {y : Sys} (hy : Shaped y) : Shaped (laneInCmd col cyc upset y) := by
  unfold laneInCmd
  exact hy.branch (laneRun_shaped hy (fun _ _ => runIn_shaped))

theorem laneArith_shaped {f : LaneCtx → VecUnit → List (F32 × Nat)} {y : Sys} {k : LaneCtx} (hy : Shaped y) :
    Shaped (laneArith f y k) := by
  unfold laneArith
  exact raiseFlags_shaped (onVec_shaped hy)

theorem lane2_shaped {f : LaneFn2} {x1 : Sys} {x2 : LaneCtx} (hy : Shaped x1) : Shaped (lane2 f x1 x2) := by
  unfold lane2
  exact laneArith_shaped hy

theorem lane3_shaped {f : LaneCtx → F32 → F32 → F32 → F32 × Nat} {x1 : Sys} {x2 : LaneCtx} (hy : Shaped x1) : Shaped (lane3 f x1 x2) := by
  unfold lane3
  exact laneArith_shaped hy

theorem lane1_shaped {f : LaneCtx → F32 → F32 × Nat} {x1 : Sys} {x2 : LaneCtx} (hy : Shaped x1) : Shaped (lane1 f x1 x2) := by
  unfold lane1
  exact laneArith_shaped hy

theorem rowStarted_shaped {y : Sys} {o : RowOp} {now wait : Nat} (hy : Shaped y) : Shaped (rowStarted y o now wait) := by
  unfold rowStarted
  split
  · exact hy.onCore
  · exact hy

theorem copyErrs_shaped {y : Sys} {site src dst : Nat} (hy : Shaped y) : Shaped (copyErrs y site src dst) := by
  unfold copyErrs
  exact hy.onProt rfl rfl

theorem rowEffect_shaped {y : Sys} {site : Nat} {o : RowOp} (hy : Shaped y) : Shaped (rowEffect y site o) := by
  unfold rowEffect
  extract_lets _ _ _ _ y1 y2
  have hy1 : Shaped y1 := writeRow_shaped hy
  have hy2 : Shaped y2 := (writeRow_shaped hy1).branch hy1
  exact hy.branch (((writeRow_shaped hy).branch hy).branch ((copyErrs_shaped hy2).branch hy2))

theorem startRowOp_shaped {y : Sys} {site tile bank : Nat} {o : RowOp} {now wait : Nat} (hy : Shaped y) :
    Shaped (startRowOp y site tile bank o now wait) := by
  unfold startRowOp
  extract_lets _ y1 y2 y3
  have hy1 : Shaped y1 := spendTokens_shaped hy
  have hy2 : Shaped y2 := hy1.onBank
  have hy3 : Shaped y3 := rowStarted_shaped hy2
  exact (hy3.onProt rfl rfl).branch (rowEffect_shaped hy3)

theorem rowCommand_shaped {op compound site tile bank cyc : Nat} {y : Sys} (hy : Shaped y) :
    Shaped (rowCommand op compound site tile bank cyc y) := by
  unfold rowCommand
  dsimp only
  split
  · exact hy
  · exact hy.branch (hy.branch (hy.onBank.branch (startRowOp_shaped hy.onBank)))

theorem throttleRelease_shaped {layer cyc : Nat} {y : Sys} (hy : Shaped y) : Shaped (throttleRelease layer cyc y) := by
  unfold throttleRelease
  split
  · exact hy
  · exact hy.branch (startRowOp_shaped (hy.onBank.onProt rfl rfl))

theorem busDone_shaped {site tile cyc : Nat} {y : Sys} (hy : Shaped y) : Shaped (busDone site tile cyc y) := by
  unfold busDone
  split
  · exact hy
  · exact hy.branch (((hy.onProt rfl rfl).onBank).branch (((hy.onProt rfl rfl).onBank).branch (startRowOp_shaped (hy.onProt rfl rfl))))

theorem strikeDram_shaped {y : Sys} {key : Nat} {ps : List Nat} (hy : Shaped y) : Shaped (strikeDram y key ps) := by
  unfold strikeDram
  exact (hy.each (fun _ _ hz => hz.takeFree.put)).branch (hy.onProt rfl rfl)

theorem firmwareRecord_shaped {y : Sys} {detail addr : Nat} (hy : Shaped y) : Shaped (firmwareRecord y detail addr) := by
  unfold firmwareRecord
  exact faultRecCc_shaped hy

theorem ccFailed_shaped {y : Sys} {a : Nat} (hy : Shaped y) : Shaped (ccFailed y a) := by
  unfold ccFailed
  dsimp only
  split
  · exact (stopSite_shaped (firmwareRecord_shaped hy)).branch (firmwareRecord_shaped hy)
  · exact (stopSite_shaped (firmwareRecord_shaped hy)).branch (firmwareRecord_shaped hy)
  · exact firmwareRecord_shaped hy

theorem accessFailed_shaped {y : Sys} {who : Requester} {a : Nat} {write : Bool} (hy : Shaped y) :
    Shaped (accessFailed y who a write) := by
  unfold accessFailed
  split
  · exact (rmwFailed_shaped hy).branch (busError_shaped hy)
  · exact event_shaped hy
  · exact ccFailed_shaped hy
  · exact hy

theorem requestFailed_shaped {y : Sys} {r : BankReq} (hy : Shaped y) : Shaped (requestFailed y r) := by
  unfold requestFailed
  exact accessFailed_shaped hy

theorem answerReq_shaped {y : Sys} {r : BankReq} {x2 : Option (List Byte)} (hy : Shaped y) : Shaped (answerReq y r x2) := by
  unfold answerReq
  split
  · exact requestFailed_shaped hy
  · exact hy.branch (hy.onProt rfl rfl)

theorem serveRequest_shaped {y : Sys} {r : BankReq} (hy : Shaped y) : Shaped (serveRequest y r) := by
  unfold serveRequest
  exact answerReq_shaped (performReq_shaped hy.onBank)

theorem bankRequest_shaped {r : BankReq} {upset : List Nat} {cyc : Nat} {y : Sys} (hy : Shaped y) :
    Shaped (bankRequest r upset cyc y) := by
  unfold bankRequest
  refine hy.branch (hy.onSiteNoc.branch ?_)
  split
  · exact requestFailed_shaped (faultRecCc_shaped (strikeDram_shaped hy))
  · refine Shaped.branch ?_ (serveRequest_shaped (strikeDram_shaped hy))
    split
    · exact (((strikeDram_shaped hy).onBank).onProt rfl rfl).onCore
    · exact ((strikeDram_shaped hy).onBank).onProt rfl rfl

theorem requestAfter_shaped {site tile bank cyc : Nat} {y : Sys} (hy : Shaped y) : Shaped (requestAfter site tile bank cyc y) := by
  unfold requestAfter
  dsimp only
  split
  · exact hy
  · refine hy.branch ?_
    split
    · exact answerReq_shaped hy.onBank.onBank
    · exact serveRequest_shaped hy.onBank

theorem bankRefresh_shaped {layer bank cyc : Nat} {y : Sys} (hy : Shaped y) : Shaped (bankRefresh layer bank cyc y) := by
  unfold bankRefresh
  exact (hy.each (fun _ _ hz => hz.branch ((settleBank_shaped hz).onBank))).branch hy

theorem encodeDone_shaped {col granule : Nat} {y : Sys} (hy : Shaped y) : Shaped (encodeDone col granule y) := by
  unfold encodeDone
  split
  · exact hy
  · exact (hy.onProt rfl rfl).branch hy

theorem patrolDue_shaped {site tile bank : Nat} {y : Sys} (hy : Shaped y) : Shaped (patrolDue site tile bank y) := by
  unfold patrolDue
  exact hy.onBank.branch hy

theorem patrolPresent_shaped {site tile bank : Nat} {upset : List (Nat × Nat)} {cyc : Nat} {y : Sys} (hy : Shaped y) :
    Shaped (patrolPresent site tile bank upset cyc y) := by
  unfold patrolPresent
  extract_lets _ _ _ _ _ _ y1 y2 y3 y4 y5
  have hy1 : Shaped y1 := settleBank_shaped hy
  have hy2 : Shaped y2 := hy1.branch (hy1.onProt rfl rfl)
  have hy3 : Shaped y3 := hy2.onBank
  have hy4 : Shaped y4 := hy3.each (fun _ _ => strikeDram_shaped)
  have hy5 : Shaped y5 := hy.branch (hy4.each (fun _ _ => checkDram_shaped))
  split
  · exact hy
  · exact hy.branch hy5.onBank

theorem idleScrub_shaped {site bank : Nat} {upset : List Nat} {y : Sys} (hy : Shaped y) : Shaped (idleScrub site bank upset y) := by
  unfold idleScrub
  extract_lets _ _ _ _ _ _ y1 y2 _ _ y3
  have hy1 : Shaped y1 := strikeLine_shaped hy
  have hy2 : Shaped y2 := hy1.each (fun _ _ => checkBuf_shaped)
  have hy3 : Shaped y3 := hy2.onSiteProt
  exact hy.branch (hy3.onSiteProt.branch hy3)

theorem lapAlarm_shaped {site : Nat} {y : Sys} (hy : Shaped y) : Shaped (lapAlarm site y) := by
  unfold lapAlarm
  exact (event_shaped hy.onSiteProt).branch hy

theorem updateFree_shaped {y : Sys} {q : Pool} {col : Nat} (hy : Shaped y) : Shaped (updateFree y q col) := by
  unfold updateFree
  exact (event_shaped hy.onWalker).branch hy.onWalker

theorem ccWrite_shaped {y : Sys} {a : Nat} {data : List Byte} (hy : Shaped y) : Shaped (ccWrite y a data) := by
  unfold ccWrite
  exact ((ccFailed_shaped (writeDev_shaped hy)).branch (writeDev_shaped hy)).each (fun _ _ hz => hz.branch (homeArrive_shaped hz))

theorem takeFrame_shaped {y : Sys} {q : Pool} (hy : Shaped y) : Shaped (takeFrame y q).2 := by
  unfold takeFrame
  exact ccWrite_shaped hy

theorem newPage_shaped {y : Sys} {q : Pool} {col seq f : Nat} {a : AppendEntry} (hy : Shaped y) : Shaped (newPage y q col seq f a) := by
  unfold newPage
  exact ccWrite_shaped (ccWrite_shaped (ccWrite_shaped (ccWrite_shaped hy)))

theorem copyCodewords_shaped {y : Sys} {src dst len : Nat} (hy : Shaped y) : Shaped (copyCodewords y src dst len) := by
  unfold copyCodewords
  split
  · exact hy.put.onProt rfl rfl
  · exact hy

theorem copyRow_shaped {y : Sys} {col src dst : Nat} (hy : Shaped y) : Shaped (copyRow y col src dst) := by
  unfold copyRow
  exact ((takeTokens_shaped (copyCodewords_shaped hy)).onWalker).branch ((copyCodewords_shaped hy).onWalker)

theorem copyPage_shaped {y : Sys} {q : Pool} {col seq old new : Nat} {a : AppendEntry} (hy : Shaped y) :
    Shaped (copyPage y q col seq old new a) := by
  unfold copyPage
  extract_lets _ _ y1 y2 y3 y4 y5
  have hy1 : Shaped y1 := hy.each (fun _ _ => copyRow_shaped)
  have hy2 : Shaped y2 := hy1.each (fun _ _ => copyRow_shaped)
  have hy3 : Shaped y3 := copyCodewords_shaped hy2
  have hy4 : Shaped y4 := ccWrite_shaped hy3
  have hy5 : Shaped y5 := ccWrite_shaped hy4
  exact ccWrite_shaped hy5

theorem ownFrames_shaped {y : Sys} {q : Pool} {col seq : Nat} {es : List AppendEntry} (hy : Shaped y) :
    Shaped (ownFrames y q col seq es) := by
  unfold ownFrames
  exact hy.each (fun _ _ hz => (newPage_shaped (takeFrame_shaped hz)).branch (hz.branch (copyPage_shaped (takeFrame_shaped hz))))

theorem WalkShaped.read {who : Requester} {a n : Nat} : WalkShaped (walkRead who a n) := by
  intro y hy
  unfold walkRead
  dsimp only
  split
  · exact readDev_shaped hy
  · exact readDev_shaped hy

theorem WalkShaped.header {p : Pw} {col seq layer head : Nat} {who : Requester} : WalkShaped (walkHeader p col seq layer head who) :=
  .andThen .read fun _ => .andThen .read fun _ => .andThen .bad fun _ => .andThen .read fun _ => .andThen .get fun _ =>
  .andThen .bad fun _ => .andThen .bad fun _ => .andThen .bad fun _ => .andThen .read fun _ => .andThen .get fun _ =>
  .andThen .bad fun _ => .andThen .bad fun _ => .andThen .read fun _ => .andThen .get fun _ => .andThen .bad fun _ =>
  .andThen .bad fun _ => .andThen .bad fun _ => .ok

theorem WalkShaped.entry {p : Pw} {e : SeqEntry} {h : ListHdr} {who : Requester} {slot : Option Nat} {n : Nat} :
    WalkShaped (walkEntry p e h who slot n) := by
  refine .andThen .read fun _ => .andThen .get fun x => ?_
  dsimp only
  split
  · exact .andThen .bad fun _ => .ok
  · exact .andThen .bad fun _ => .andThen .bad fun _ => .andThen .read fun _ => .andThen .bad fun _ => .ok

theorem WalkShaped.prepareAttend {y : Sys} {p : Pw} {col site : Nat} {d : Desc} {who : Requester} :
    WalkShaped (prepareAttend y p col site d who) := by
  refine .andThen .header fun _ => .andThen .bad fun _ => .andThen .get fun _ => .andThen (.each fun _ => ?_) fun _ => ?_
  · exact .andThen .entry fun _ => .ok
  · exact .andThen .get fun _ => .andThen .bad fun _ => .get

theorem WalkShaped.prepareSketch {p : Pw} {col : Nat} {d : Desc} {who : Requester} : WalkShaped (prepareSketch p col d who) :=
  .andThen .header fun _ => .ok

theorem WalkShaped.prepareAppend {p : Pw} {col : Nat} {d : Desc} {who : Requester} : WalkShaped (prepareAppend p col d who) := by
  refine .andThen (.each fun _ => .andThen .header fun _ => .ok) fun _ => .andThen (.foldl .ok fun _ _ hm => ?_) fun _ => ?_
  · exact .andThen hm fun _ => .andThen .header fun _ => .foldl .ok fun _ _ hk =>
      .andThen hk fun _ => .andThen .bad fun _ => .andThen .entry fun _ => .ok
  · exact .andThen .get fun _ => .andThen .read fun _ => .andThen .bad fun _ => .andThen .get fun _ => .andThen .bad fun _ =>
      .andThen (.each fun _ => .read) fun _ _ hy => updateFree_shaped (ownFrames_shaped hy)

theorem WalkShaped.prepareStep {y : Sys} {p : Pw} {col site idx : Nat} {d : Desc} : WalkShaped (prepareStep y p col site idx d) := by
  unfold Machine.prepareStep
  split
  · exact .prepareAttend
  · exact .prepareSketch
  · exact .prepareAppend

theorem prepareStep_shaped {y z : Sys} {p : Pw} {col site idx : Nat} {d : Desc} (hz : Shaped z) :
    Shaped (prepareStep y p col site idx d z).2 := WalkShaped.prepareStep z hz

theorem preparationBegin_shaped {col : Nat} {y : Sys} (hy : Shaped y) : Shaped (preparationBegin col y) := by
  unfold preparationBegin
  dsimp only
  split
  · refine hy.branch ?_
    split
    · exact hy
    · exact ((prepareStep_shaped hy).onWalker).onCore
  · exact hy

theorem prepEnds_shaped {y : Sys} {site : Nat} {p : Prep} (hy : Shaped y) : Shaped (prepEnds y site p) := by
  unfold prepEnds
  exact stopSite_shaped (endStep_shaped hy.onCore)

theorem preparationDone_shaped {col : Nat} {y : Sys} (hy : Shaped y) : Shaped (preparationDone col y) := by
  unfold preparationDone
  dsimp only
  split
  · exact hy
  · refine hy.branch ?_
    split
    · exact (prepEnds_shaped (hy.onCore.branch hy.onCore.onWalker)).branch ((runKind_shaped (takePrep_shaped ((hy.onCore.branch
        hy.onCore.onWalker).onCore))).branch (hy.onCore.branch hy.onCore.onWalker))
    · exact hy.onCore.branch hy.onCore.onWalker

theorem orderLost_shaped {y : Sys} {site detail stop : Nat} (hy : Shaped y) : Shaped (orderLost y site detail stop) := by
  unfold orderLost
  exact requestHold_shaped (faultStopAll_shaped (faultRecCc_shaped (shuttleError_shaped hy)))

theorem pageDescriptor_shaped {col : Nat} {parityError : Option Site} {y : Sys} (hy : Shaped y) :
    Shaped (pageDescriptor col parityError y) := by
  unfold pageDescriptor
  dsimp only
  split
  · exact hy
  · exact withParity_shaped hy.onCore.onCore (fun _  => orderLost_shaped hy.onCore)

/-- The walk of the stored bytes is too long for the kernel to evaluate: an unknown function stands for each read that it ends in. -/
theorem exists_read_shaped : ∃ read, readAll = read ∧ ∀ {y x l}, Shaped y → Shaped (read y x l).2 :=
  ⟨_, rfl, readAll_shaped⟩

theorem pageData_shaped {y : Sys} {x : StepCtx} {vCode : Nat} {p : PageDesc} (hy : Shaped y) : Shaped (pageData y x vCode p).2 := by
  obtain ⟨read, hread, hshaped⟩ := exists_read_shaped
  rw [pageData, hread]
  split
  · dsimp only
    split
    · exact hshaped hy
    · exact hshaped hy
  · exact hshaped hy

theorem attendPage_shaped {y : Sys} {x : StepCtx} {a : AttendState} {vCode : Nat} {us : List (Nat × Nat × Nat × W32)} {p : PageDesc} (hy :
    Shaped y) : Shaped (attendPage y x a vCode us p) := by
  obtain ⟨read, hread, hshaped⟩ := exists_read_shaped
  have hdata : Shaped (pageData y x vCode p).2 := pageData_shaped hy
  rw [attendPage, hread]
  generalize pageData y x vCode p = data at hdata
  dsimp only
  split
  · exact hdata
  split
  · exact hshaped (stepWrite_shaped hdata)
  · exact (raiseFlags_shaped (raiseFlags_shaped (hshaped (stepWrite_shaped hdata)))).onCore

theorem attendWindow_shaped {col : Nat} {us : List (Nat × Nat × Nat × W32)} {cyc : Nat} {y : Sys} (hy : Shaped y) :
    Shaped (attendWindow col us cyc y) := by
  unfold attendWindow
  extract_lets _ y1 _ _
  have hy1 : Shaped y1 := advanceCore_shaped hy
  split
  · exact hy1
  · split
    · refine hy1.branch ((hy1.branch (attendPage_shaped hy1)).branch (Shaped.branch ?_ ((hy1.branch (attendPage_shaped hy1)).onCore)))
      split
      · exact attendOutput_shaped ((hy1.branch (attendPage_shaped hy1)).onCore)
      · exact (hy1.branch (attendPage_shaped hy1)).onCore
    · exact hy1

theorem migRecord_shaped {y : Sys} {granule detail count off : Nat} (hy : Shaped y) : Shaped (migRecord y granule detail count off) := by
  unfold migRecord
  exact faultRecCc_shaped hy

theorem migrationLost_shaped {y : Sys} (hy : Shaped y) : Shaped (migrationLost y) := by
  unfold migrationLost
  exact migRecord_shaped ((hy.zero.onProt rfl rfl).onMap rfl)

theorem copyBlock_shaped {y : Sys} (hy : Shaped y) : Shaped (copyBlock y) := by
  obtain ⟨key, hkey⟩ : ∃ key, dramKey = key := ⟨_, rfl⟩
  rw [copyBlock, hkey]
  refine ((hy.onProt rfl rfl).put).branch ?_
  dsimp only
  split
  · exact ((readBank_shaped hy).onProt rfl rfl).put
  · exact migRecord_shaped (((readBank_shaped hy).onProt rfl rfl).onMap rfl)

theorem blockCopy_shaped {faulty : Bool} {y : Sys} (hy : Shaped y) : Shaped (blockCopy faulty y) := by
  unfold blockCopy
  exact hy.branch ((migrationLost_shaped hy).branch ((copyBlock_shaped hy).onMap rfl))

theorem takePacket_shaped {y : Sys} {p : Packet} (hy : Shaped y) : Shaped (takePacket y p) := by
  unfold takePacket
  exact hy.onNoc rfl

theorem dropReq_shaped {y : Sys} {tag : Nat} (hy : Shaped y) : Shaped (dropReq y tag) := by
  unfold dropReq
  exact hy.onNoc rfl

theorem meshFailed_shaped {y : Sys} {r : MeshReq} (hy : Shaped y) : Shaped (meshFailed y r) := by
  unfold meshFailed
  split
  · exact (rmwFailed_shaped (dropReq_shaped hy)).branch (busError_shaped (dropReq_shaped hy))
  · exact ccFailed_shaped (dropReq_shaped hy)
  · exact dropReq_shaped hy

theorem spoiledPacket_shaped {y : Sys} {r : Nat} {p : Packet} (hy : Shaped y) : Shaped (spoiledPacket y r p) := by
  unfold spoiledPacket
  split
  · dsimp only
    split
    · exact faultRecCc_shaped hy
    · exact faultRecCc_shaped hy
  · dsimp only
    split
    · exact meshFailed_shaped (faultRecCc_shaped hy)
    · exact faultRecCc_shaped hy

theorem fenceDrop_shaped {y : Sys} {s : Nat} (hy : Shaped y) : Shaped (fenceDrop y s) := by
  unfold fenceDrop
  exact hy.onSiteNoc

theorem passOn_shaped {y : Sys} {r : Nat} {p : Packet} {e : Nat} {old : List (Packet × List Nat)} (hy : Shaped y) :
    Shaped (passOn y r p e old) := by
  unfold passOn
  split
  · exact hy.onNoc rfl
  · exact hy

theorem packetAt_shaped {kind r : Nat} {p : Packet} {serve : Sys → Sys} {y : Sys} (hy : Shaped y)
    (hf : ∀ x0, Shaped x0 → Shaped (serve x0)) : Shaped (packetAt kind r p serve y) := by
  unfold packetAt
  extract_lets _ _ y1
  have hy1 : Shaped y1 := takePacket_shaped hy
  exact hy.branch (hy1.branch ((spoiledPacket_shaped hy1).branch ((meshRecord_shaped hy1).branch ((fenceDrop_shaped hy1).branch
    (hy1.onSiteNoc.branch ((passOn_shaped hy1).branch (hf _ hy1)))))))

theorem respond_shaped {y : Sys} {r : Nat} {p : Packet} {kind status : Nat} {payload : List Byte} (hy : Shaped y) :
    Shaped (respond y r p kind status payload) := by
  unfold respond
  exact hy.onNoc rfl

theorem answerFenced_shaped {y : Sys} {r : Nat} {p : Packet} (hy : Shaped y) : Shaped (answerFenced y r p) := by
  unfold answerFenced
  exact respond_shaped hy

theorem serveRead_shaped {r : Nat} {p : Packet} {y : Sys} (hy : Shaped y) : Shaped (serveRead r p y) := by
  unfold serveRead
  refine (answerFenced_shaped hy).branch ?_
  split
  · exact respond_shaped hy
  · dsimp only
    split
    · exact respond_shaped (readBank_shaped hy)
    · exact respond_shaped (readBank_shaped hy)

theorem payloadChecked_shaped {r : Nat} {p : Packet} {serve : Sys → Sys} {y : Sys} (hy : Shaped y)
    (hf : ∀ x0, Shaped x0 → Shaped (serve x0)) : Shaped (payloadChecked r p serve y) := by
  unfold payloadChecked
  exact (respond_shaped (meshRecord_shaped hy)).branch (hf _ hy)

theorem serveWrite_shaped {r : Nat} {p : Packet} {y : Sys} (hy : Shaped y) : Shaped (serveWrite r p y) := by
  unfold serveWrite
  refine (answerFenced_shaped hy).branch ?_
  split
  · exact respond_shaped hy
  · exact (respond_shaped (deviceWrite_shaped hy)).branch (respond_shaped (writeDev_shaped ((writeMem_shaped hy).branch hy)))

theorem requestLost_shaped {y : Sys} {r : MeshReq} (hy : Shaped y) : Shaped (requestLost y r) := by
  unfold requestLost
  exact (((meshRecord_shaped hy).onFaults).onNoc rfl).branch (meshFailed_shaped (meshRecord_shaped hy))

theorem movePieceArrives_shaped {y : Sys} {x : StepCtx} {pos : Nat} {bytes : List Byte} (hy : Shaped y) :
    Shaped (movePieceArrives y x pos bytes) := by
  unfold movePieceArrives
  dsimp only
  split
  · exact hy
  · exact ((writeBlock_shaped hy.onCore).branch hy.onCore).branch (stepWrite_shaped hy)

theorem gatherPieceArrives_shaped {y : Sys} {x : StepCtx} {pos : Nat} {bytes : List Byte} (hy : Shaped y) :
    Shaped (gatherPieceArrives y x pos bytes) := by
  unfold gatherPieceArrives
  dsimp only
  split
  · exact stepWrite_shaped hy
  · exact hy

theorem stepData_shaped {y : Sys} {x : StepCtx} {pos : Nat} {bytes : List Byte} (hy : Shaped y) : Shaped (stepData y x pos bytes) := by
  unfold stepData
  exact (movePieceArrives_shaped hy).branch ((gatherPieceArrives_shaped hy).branch hy)

theorem serveReadData_shaped {p : Packet} {y : Sys} (hy : Shaped y) : Shaped (serveReadData p y) := by
  unfold serveReadData
  split
  · exact hy
  · refine (meshFailed_shaped hy).branch ((requestLost_shaped hy).branch ?_)
    split
    · dsimp only
      split
      · exact stepData_shaped (dropReq_shaped hy)
      · exact dropReq_shaped hy
    · exact dropReq_shaped hy

theorem serveWriteAck_shaped {p : Packet} {y : Sys} (hy : Shaped y) : Shaped (serveWriteAck p y) := by
  unfold serveWriteAck
  split
  · exact hy
  · exact (dropReq_shaped hy).branch (meshFailed_shaped hy)

theorem placeFlit_shaped {y : Sys} {site flow n : Nat} {payload : List Byte} (hy : Shaped y) :
    Shaped (placeFlit y site flow n payload) := by
  unfold placeFlit
  split
  · exact hy
  · exact hy.branch ((deviceWrite_shaped (displaceMoves_shaped hy)).onCore)

theorem serveSpanIn_shaped {r : Nat} {p : Packet} {y : Sys} (hy : Shaped y) : Shaped (serveSpanIn r p y) := by
  unfold serveSpanIn
  exact (fenceDrop_shaped hy).branch (placeFlit_shaped hy)

theorem serveSpanOut_shaped {r : Nat} {p : Packet} {y : Sys} (hy : Shaped y) : Shaped (serveSpanOut r p y) := by
  unfold serveSpanOut
  split
  · exact hy
  · exact (hy.onCore.branch hy).onPort

theorem pathReset_shaped {y : Sys} {t : Transfer} (hy : Shaped y) : Shaped (pathReset y t) := by
  unfold pathReset
  split
  · exact hy
  · split
    · dsimp only
      split
      · exact meshRecord_shaped hy
      · exact (hy.onNoc rfl).branch (endStep_shaped (abandonReplay_shaped hy))
    · dsimp only
      split
      · exact hy
      · exact (hy.onNoc rfl).branch (endStep_shaped (abandonReplay_shaped hy))

theorem serveError_shaped {p : Packet} {y : Sys} (hy : Shaped y) : Shaped (serveError p y) := by
  unfold serveError
  split
  · exact hy
  · exact (pathReset_shaped (dropReq_shaped hy)).branch (requestLost_shaped hy)

theorem meshTimeout_shaped {tag : Nat} {y : Sys} (hy : Shaped y) : Shaped (meshTimeout tag y) := by
  unfold meshTimeout
  split
  · exact hy
  · exact requestLost_shaped hy

theorem vcRetransfer_shaped {site line tile : Nat} {second : Bool} {who : Requester} {y : Sys} (hy : Shaped y) :
    Shaped (vcRetransfer site line tile second who y) := by
  unfold vcRetransfer
  refine (accessFailed_shaped (faultRec_shaped hy)).branch ?_
  split
  · exact hy.onSiteNoc.onCore
  · exact hy.onSiteNoc

theorem fenceCore_shaped {y : Sys} {site : Nat} (hy : Shaped y) : Shaped (fenceCore y site) := by
  unfold fenceCore
  dsimp only
  split
  · exact (faultStop_shaped (stopCore_shaped ((hy.onNoc rfl).onBoot rfl rfl))).branch (stopCore_shaped ((hy.onNoc rfl).onBoot rfl rfl))
  · exact stopCore_shaped ((hy.onNoc rfl).onBoot rfl rfl)

theorem fenceFor_shaped {y : Sys} {site why : Nat} (hy : Shaped y) : Shaped (fenceFor y site why) := by
  unfold fenceFor
  exact (fenceCore_shaped hy).onNoc rfl

theorem fenceOrder_shaped {site : Nat} {parityError : Option Site} {y : Sys} (hy : Shaped y) :
    Shaped (fenceOrder site parityError y) := by
  unfold fenceOrder
  split
  · exact hy
  · extract_lets y11 y12
    have hy11 : Shaped y11 := hy.onNoc rfl
    have hy12 : Shaped y12 := (fenceCore_shaped hy11).branch (fenceFor_shaped hy11)
    exact withParity_shaped (hy12.branch (requestHold_shaped hy12)) (fun _  => orderLost_shaped hy11)

theorem firmwareFault_shaped {y : Sys} {detail addr : Nat} (hy : Shaped y) : Shaped (firmwareFault y detail addr) := by
  unfold firmwareFault
  exact requestHold_shaped (faultStopAll_shaped (faultRecCc_shaped hy))

theorem shuttleCtrlTimeout_shaped {node : Nat} {y : Sys} (hy : Shaped y) : Shaped (shuttleCtrlTimeout node y) := by
  unfold shuttleCtrlTimeout
  extract_lets _ _ _ y1
  have hy1 : Shaped y1 := faultRecCc_shaped (shuttleError_shaped hy)
  exact (hy1.onNoc rfl).branch (firmwareFault_shaped (hy1.onNoc rfl))

theorem flitOk_shaped {y : Sys} {p : Nat} {f : Flit} (hy : Shaped y) : Shaped (flitOk y p f).2 := by
  unfold flitOk
  extract_lets y1
  have hy1 : Shaped y1 := hy.branch hy.onPort
  exact hy1.onPort.branch_snd (hy1.onPort.branch_snd (hy1.branch (wakePort_shaped hy1)))

theorem toTransit_shaped {y : Sys} {q : Nat} {f : Flit} (hy : Shaped y) : Shaped (toTransit y q f) := by
  unfold toTransit
  exact hy.onPort

theorem dataFlit_shaped {p : Nat} {f : Flit} {y : Sys} (hy : Shaped y) : Shaped (dataFlit p f y) := by
  unfold dataFlit
  extract_lets y1 y2 _ _ y3
  have hy1 : Shaped (y1).2 := flitOk_shaped hy
  have hy2 : Shaped y2 := hy1.onPort.branch hy1
  have hy3 : Shaped y3 := hy2.each (fun _ _ hz => (fenceDrop_shaped hz).branch (placeFlit_shaped hz))
  exact hy2.branch ((countStale_shaped hy2).branch (hy2.onPort.branch (hy3.each (fun _ _ => toTransit_shaped))))

theorem spanFlitRead_shaped {col flow : Nat} {y : Sys} (hy : Shaped y) : Shaped (spanFlitRead col flow y) := by
  unfold spanFlitRead
  dsimp only
  split
  · exact hy
  · split
    · exact hy
    · exact hy.branch (stepReads_shaped hy (fun _ _ hz => hz.onCore))

theorem mgmtOk_shaped {y : Sys} {p : Nat} {f : Flit} (hy : Shaped y) : Shaped (mgmtOk y p f).2 := by
  have hflit : Shaped (flitOk y p f).2 := flitOk_shaped hy
  unfold mgmtOk
  dsimp only
  split
  · exact hflit
  split
  · exact hflit.onPort
  split
  · exact countStale_shaped hflit
  · exact hflit

theorem transitEvent_shaped {y : Sys} {p : Nat} (hy : Shaped y) : Shaped (transitEvent y p) := by
  unfold transitEvent
  exact hy.onPort

theorem toMgmt_shaped {y : Sys} {q : Nat} {f : Flit} (hy : Shaped y) : Shaped (toMgmt y q f) := by
  unfold toMgmt
  exact hy.onPort.branch (transitEvent_shaped hy)

theorem mgmtRoute_shaped {y : Sys} {p : Nat} {f : Flit} (hy : Shaped y) : Shaped (mgmtRoute y p f) := by
  unfold mgmtRoute
  refine Shaped.branch ?_ (hy.branch ((toMgmt_shaped hy).branch (transitEvent_shaped hy)))
  split
  · exact transitEvent_shaped hy
  · exact (hy.each (fun _ _ => toMgmt_shaped)).branch (transitEvent_shaped hy)

theorem mgmtFlit_shaped {p : Nat} {f : Flit} {y : Sys} (hy : Shaped y) : Shaped (mgmtFlit p f y) := by
  unfold mgmtFlit
  exact (mgmtRoute_shaped (mgmtOk_shaped hy)).branch (mgmtOk_shaped hy)

theorem holdIdleFlit_shaped {p : Nat} {f : Flit} {y : Sys} (hy : Shaped y) : Shaped (holdIdleFlit p f y) := by
  unfold holdIdleFlit
  exact ((flitOk_shaped hy).onPort).branch (flitOk_shaped hy)

theorem lossActions_shaped {y : Sys} {p : Nat} (hy : Shaped y) : Shaped (lossActions y p) := by
  unfold lossActions
  exact (requestHold_shaped hy.onPort).branch hy.onPort

theorem misplaced_shaped {y : Sys} {p : Nat} {h : Hello} (hy : Shaped y) : Shaped (misplaced y p h) := by
  unfold misplaced
  exact (lossActions_shaped (event_shaped (setPort_shaped hy.onPort))).branch (event_shaped (setPort_shaped hy.onPort))

theorem linkHello_shaped {p : Nat} {h : Hello} {y : Sys} (hy : Shaped y) : Shaped (linkHello p h y) := by
  unfold linkHello
  extract_lets _ y1 y2 _ _ y3 _ _
  have hy1 : Shaped y1 := wakePort_shaped hy
  have hy2 : Shaped y2 := hy1.onPort
  have hy3 : Shaped y3 := hy2.onPort
  exact hy.branch (hy2.branch ((misplaced_shaped hy2).branch (hy2.branch (hy3.branch ((setPort_shaped hy3).branch (setPort_shaped
    hy3.onPort))))))

theorem laneState_shaped {p mask switchWbc : Nat} {y : Sys} (hy : Shaped y) : Shaped (laneState p mask switchWbc y) := by
  unfold laneState
  exact ((wakePort_shaped hy).onPort).branch (wakePort_shaped hy)

theorem takeAdmit_shaped {y : Sys} {except : Option Nat} {r : AdmitRec} (hy : Shaped y) : Shaped (takeAdmit y except r) := by
  unfold takeAdmit
  exact floodRec_shaped (hy.onSpan rfl)

theorem admitRecord_shaped {p : Nat} {r : AdmitRec} {y : Sys} (hy : Shaped y) : Shaped (admitRecord p r y) := by
  unfold admitRecord
  extract_lets y1
  have hy1 : Shaped y1 := wakePort_shaped hy
  exact hy1.branch (hy1.branch ((holdLate_shaped hy1).branch (takeAdmit_shaped hy1)))

theorem takeReport_shaped {y : Sys} {r : FwReport} (hy : Shaped y) : Shaped (takeReport y r) := by
  unfold takeReport
  exact hy.branch hy.onFw

theorem passReport_shaped {y : Sys} {r : FwReport} (hy : Shaped y) : Shaped (passReport y r) := by
  unfold passReport
  split
  · exact hy
  · exact (hy.onPort.branch hy).branch (takeReport_shaped hy)

theorem placeWrite_shaped {p : Nat} {v : W32} {y : Sys} (hy : Shaped y) : Shaped (placeWrite p v y) := by
  unfold placeWrite
  exact (settleLinks_shaped (setPort_shaped hy.onPort.onPort)).branch ((setPort_shaped hy.onPort.onPort).branch hy.onPort)

theorem trainingLock_shaped {p lanes : Nat} {y : Sys} (hy : Shaped y) : Shaped (trainingLock p lanes y) := by
  unfold trainingLock
  exact (setPort_shaped hy.onPort).branch hy

theorem trainingTimeout_shaped {p : Nat} {y : Sys} (hy : Shaped y) : Shaped (trainingTimeout p y) := by
  unfold trainingTimeout
  exact (setPort_shaped hy.onPort).branch hy

theorem qualificationEnd_shaped {p passed : Nat} {y : Sys} (hy : Shaped y) : Shaped (qualificationEnd p passed y) := by
  unfold qualificationEnd
  exact hy.branch (setPort_shaped hy.onPort)

theorem laneFailure_shaped {p lane : Nat} {y : Sys} (hy : Shaped y) : Shaped (laneFailure p lane y) := by
  unfold laneFailure
  exact hy.branch hy.onPort

theorem partnerLost_shaped {y : Sys} {p : Nat} (hy : Shaped y) : Shaped (partnerLost y p) := by
  unfold partnerLost
  exact lossActions_shaped (setPort_shaped hy)

theorem degradeStops_shaped {y : Sys} {p : Nat} (hy : Shaped y) : Shaped (degradeStops y p) := by
  unfold degradeStops
  exact hy.branch (requestHold_shaped (hy.each (fun _ _ => faultStop_shaped)))

theorem laneSwitch_shaped {p : Nat} {y : Sys} (hy : Shaped y) : Shaped (laneSwitch p y) := by
  unfold laneSwitch
  dsimp only
  split
  · exact hy
  · exact hy.branch ((partnerLost_shaped hy).branch (degradeStops_shaped (hy.onPort.branch (setPort_shaped hy.onPort))))

theorem codewordLockLoss_shaped {p : Nat} {y : Sys} (hy : Shaped y) : Shaped (codewordLockLoss p y) := by
  unfold codewordLockLoss
  exact (partnerLost_shaped hy).branch hy

theorem holdIdleTimeout_shaped {p : Nat} {y : Sys} (hy : Shaped y) : Shaped (holdIdleTimeout p y) := by
  unfold holdIdleTimeout
  exact (partnerLost_shaped hy).branch hy

theorem spanSelfWrite_shaped {v : W32} {y : Sys} (hy : Shaped y) : Shaped (spanSelfWrite v y) := by
  unfold spanSelfWrite
  exact hy.branch (hy.onSpan rfl)

theorem halfTrained_shaped {h : Nat} {y : Sys} (hy : Shaped y) : Shaped (halfTrained h y) := by
  unfold halfTrained
  exact hy.branch (event_shaped hy.onHalf)

theorem hostStepError_shaped {y : Sys} {col i : Nat} (hy : Shaped y) : Shaped (hostStepError y col i) := by
  unfold hostStepError
  dsimp only
  split
  · exact hy
  · exact busError_shaped (faultRec_shaped hy)

theorem onOpen_shaped {y : Sys} {m : Nat} {f : CmdRun → CmdRun} (hy : Shaped y) : Shaped (onOpen y m f) := by
  unfold onOpen
  exact hy.onHost rfl

theorem refArrived_shaped {y : Sys} {m pos : Nat} {data : Option (List Byte)} (hy : Shaped y) : Shaped (refArrived y m pos data) := by
  unfold refArrived
  dsimp only
  split
  · exact onOpen_shaped (hy.onHost rfl)
  · exact (onOpen_shaped (hy.onHost rfl)).branch ((onOpen_shaped (onOpen_shaped (hy.onHost rfl))).onHost rfl)

theorem mbxWrite_shaped {y : Sys} {m off : Nat} {data : List Byte} {mask : List Bool} (hy : Shaped y) :
    Shaped (mbxWrite y m off data mask) := by
  unfold mbxWrite
  exact deviceWrite_shaped hy

theorem writeResult_shaped {y : Sys} {m status state : Nat} {result : List Byte} (hy : Shaped y) :
    Shaped (writeResult y m status state result) := by
  unfold writeResult
  exact mbxWrite_shaped (hy.branch (mbxWrite_shaped hy))

theorem finish_shaped {y : Sys} {m status : Nat} {result : List Byte} (hy : Shaped y) : Shaped (finish y m status result) := by
  unfold finish
  exact writeResult_shaped (hy.onHost rfl)

theorem writeBlocks_shaped {y : Sys} {src a : Nat} {data : List Byte} {bad : List (Nat × Nat)} (hy : Shaped y) :
    Shaped (writeBlocks y src a data bad).2 := by
  unfold writeBlocks
  refine hy.foldl_snd (fun _ _ hz => ?_)
  split
  · exact hz
  · exact refusedTwice_shaped hz
  · exact (homeArrive_shaped hz).branch_snd (writeDev_shaped hz)

theorem storeData_shaped {y : Sys} {m src dst : Nat} {data : List Byte} {bad : List (Nat × Nat)} (hy : Shaped y) :
    Shaped (storeData y m src dst data bad) := by
  unfold storeData
  extract_lets _ _ _ _ _ y1 y2 _
  have hy1 : Shaped y1 := onOpen_shaped hy
  have hy2 : Shaped (y2).2 := writeBlocks_shaped hy
  exact ((finish_shaped hy).branch (hy1.each (fun _ _ => dwrRange_shaped))).branch (finish_shaped hy2)

theorem memCopyStore_shaped {y : Sys} {m : Nat} {r : CmdRun} {data : List Byte} (hy : Shaped y) : Shaped (memCopyStore y m r data) := by
  unfold memCopyStore
  exact storeData_shaped hy

theorem loadIncs_shaped {y : Sys} {t : List Byte} (hy : Shaped y) : Shaped (loadIncs y t) := by
  unfold loadIncs
  exact hy.onSpan rfl

theorem applyPlace_shaped {y : Sys} {r : CmdRun} (hy : Shaped y) : Shaped (applyPlace y r) := by
  unfold applyPlace
  exact (spanSelfWrite_shaped hy).each (fun _ _ => placeWrite_shaped)

theorem memArrived_shaped {y : Sys} {m pos : Nat} {data : Option (List Byte)} (hy : Shaped y) : Shaped (memArrived y m pos data) := by
  unfold memArrived
  extract_lets y1 y2 _ _ y3
  have hy1 : Shaped y1 := hy.onHost rfl
  have hy2 : Shaped y2 := onOpen_shaped hy1
  have hy3 : Shaped y3 := hy2.onHost rfl
  split
  · exact hy2
  · exact hy2.branch ((finish_shaped hy3).branch ((memCopyStore_shaped hy3).branch (finish_shaped (loadIncs_shaped (applyPlace_shaped
      hy3)))))

theorem destAnswered_shaped {y : Sys} {m : Nat} {ok : Bool} (hy : Shaped y) : Shaped (destAnswered y m ok) := by
  unfold destAnswered
  split
  · exact hy
  · refine Shaped.branch ?_ (hy.onHost rfl)
    split
    · exact finish_shaped (hy.onHost rfl)
    · exact hy.onHost rfl

theorem stepFail_shaped {y : Sys} {code err : Nat} {fatal : Bool} (hy : Shaped y) : Shaped (stepFail y code err fatal) := by
  unfold stepFail
  exact event_shaped (hy.onBoot rfl rfl)

theorem fwArrived_shaped {y : Sys} {at0 : Nat} {data : Option (List Byte)} (hy : Shaped y) : Shaped (fwArrived y at0 data) := by
  unfold fwArrived
  refine hy.branch ?_
  split
  · exact stepFail_shaped hy.onFw
  · exact hy.put.branch hy.put.onFw

theorem useDefects_shaped {y : Sys} {l : List BadUnit} (hy : Shaped y) : Shaped (useDefects y l) := by
  unfold useDefects
  exact hy.onBoot rfl rfl

theorem defectsArrived_shaped {y : Sys} {pos : Nat} {data : Option (List Byte)} (hy : Shaped y) : Shaped (defectsArrived y pos data) := by
  unfold defectsArrived
  refine hy.branch ?_
  split
  · exact stepFail_shaped hy
  · refine (hy.onHost rfl).branch ?_
    dsimp only
    split
    · exact useDefects_shaped ((hy.onHost rfl).onHost rfl)
    · exact stepFail_shaped ((hy.onHost rfl).onHost rfl)

theorem repeatAcc_shaped {y : Sys} {a : HostAcc} (hy : Shaped y) : Shaped (repeatAcc y a) := by
  unfold repeatAcc
  exact hostAccess1_shaped hy

theorem accFailed_shaped {y : Sys} {a : HostAcc} (hy : Shaped y) : Shaped (accFailed y a) := by
  unfold accFailed
  split
  · exact hostStepError_shaped hy
  · exact hostStepError_shaped hy
  · exact refArrived_shaped hy
  · exact memArrived_shaped hy
  · exact destAnswered_shaped hy
  · exact fwArrived_shaped hy
  · exact fwArrived_shaped hy
  · exact defectsArrived_shaped hy
  · exact hy
  · exact repeatAcc_shaped hy
  · exact repeatAcc_shaped hy
  · exact repeatAcc_shaped hy
  · exact repeatAcc_shaped hy

theorem homeComplete_shaped {y : Sys} {line : Nat} (hy : Shaped y) : Shaped (homeComplete y line) := by
  unfold homeComplete
  split
  · exact hy
  · exact runHome_shaped (hy.onHost rfl)

theorem dropLine_shaped {y : Sys} {line : Nat} (hy : Shaped y) : Shaped (dropLine y line) := by
  unfold dropLine
  exact hy.branch (homeComplete_shaped (event_shaped (hy.onHost rfl)))

theorem linkLoss_shaped {y : Sys} (hy : Shaped y) : Shaped (linkLoss y) := by
  unfold linkLoss
  exact ((hy.onHost (by simp)).each (fun _ _ => accFailed_shaped)).each (fun _ _ => dropLine_shaped)

theorem halfDown_shaped {y : Sys} {h : Nat} (hy : Shaped y) : Shaped (halfDown y h) := by
  unfold halfDown
  exact hy.branch ((linkLoss_shaped (event_shaped hy.onHalf.onHalf)).branch (event_shaped hy.onHalf.onHalf))

theorem takeAck_shaped {y : Sys} {h : Nat} {f : HostFlit} (hy : Shaped y) : Shaped (takeAck y h f) := by
  unfold takeAck
  exact hy.onHalf.branch ((halfDown_shaped hy.onHalf.onHalf).branch hy.onHalf.onHalf)

theorem takeUnits_shaped {h fuel : Nat} {y : Sys} (hy : Shaped y) : Shaped (takeUnits h fuel y) := by
  induction fuel generalizing y with
  | zero => exact hy
  | succ fuel ih =>
    unfold takeUnits
    exact hy.branch ((ih hy.onHalf).branch (hy.branch (ih (hy.onHalf.branch (event_shaped hy.onHalf.takeFree)))))

theorem hostFlit_shaped {h : Nat} {f : HostFlit} {y : Sys} (hy : Shaped y) : Shaped (hostFlit h f y) := by
  unfold hostFlit
  extract_lets _ _ y1 _ y2
  have hy1 : Shaped y1 := takeAck_shaped hy
  have hy2 : Shaped y2 := hy1.onHalf
  exact hy.branch (hy.onHalf.branch (hy1.branch ((takeUnits_shaped hy2).branch (hy1.onHalf.branch hy1.onHalf))))

theorem hostFlitResend_shaped {h : Nat} {y : Sys} (hy : Shaped y) : Shaped (hostFlitResend h y) := by
  unfold hostFlitResend
  exact hy.onHalf

theorem recordAccess_shaped {y : Sys} {a cause source : Nat} {write : Bool} (hy : Shaped y) :
    Shaped (recordAccess y a cause source write) := by
  unfold recordAccess
  exact (hy.onMap (by split <;> rfl)).branch (event_shaped (hy.onMap (by split <;> rfl)))

theorem refuseHost_shaped {y : Sys} {tag a cause : Nat} {write : Bool} (hy : Shaped y) : Shaped (refuseHost y tag a cause write) := by
  unfold refuseHost
  exact sendErr_shaped (recordAccess_shaped hy)

theorem hostRequest_shaped {y : Sys} {h tag a len : Nat} {write cacheable locks : Bool} {r : HomeReq} (hy : Shaped y) :
    Shaped (hostRequest y h tag a len write cacheable locks r) := by
  unfold hostRequest
  refine hy.branch ?_
  split
  · exact refuseHost_shaped hy
  · exact (sendErr_shaped hy).branch ((sendErr_shaped hy).branch (homeArrive_shaped hy))

theorem rdShared_shaped {h tag a : Nat} {y : Sys} (hy : Shaped y) : Shaped (rdShared h tag a y) := by
  unfold rdShared
  exact hostRequest_shaped hy

theorem rdOwn_shaped {h tag a : Nat} {y : Sys} (hy : Shaped y) : Shaped (rdOwn h tag a y) := by
  unfold rdOwn
  exact hostRequest_shaped hy

theorem csrRead_shaped {y : Sys} {off : Nat} (hy : Shaped y) : Shaped (csrRead y off).2 := by
  unfold csrRead
  split
  · exact hy.onBeat
  · exact hy.onBeat
  · exact hy.onBeat
  · exact hy

theorem rdUc_shaped {h tag a len : Nat} {y : Sys} (hy : Shaped y) : Shaped (rdUc h tag a len y) := by
  unfold rdUc
  refine hy.branch ?_
  split
  · exact (refuseHost_shaped hy).branch (sendHost_shaped (csrRead_shaped hy))
  · exact (refuseHost_shaped hy).branch (hostRequest_shaped hy)

theorem stepRefuse_shaped {y : Sys} {code err : Nat} (hy : Shaped y) : Shaped (stepRefuse y code err) := by
  unfold stepRefuse
  exact event_shaped (hy.onBoot rfl rfl)

theorem bootGo_shaped {code : Nat} {start : Sys → Sys} {y : Sys} (hy : Shaped y) (hf : ∀ x0, Shaped x0 → Shaped (start x0)) :
    Shaped (bootGo code start y) := by
  unfold bootGo
  extract_lets _ y1
  have hy1 : Shaped y1 := hy.onBoot rfl rfl
  exact hy.branch ((stepRefuse_shaped hy1).branch ((stepRefuse_shaped hy1).branch (hf _ (hy1.onBoot rfl rfl))))

theorem drdRange_shaped {y : Sys} {addr len : Nat} {use : Nat → HostUse} (hy : Shaped y) : Shaped (drdRange y addr len use) := by
  unfold drdRange
  exact hy.each (fun _ _ => drd_shaped)

theorem startSelftest_shaped {y : Sys} (hy : Shaped y) : Shaped (startSelftest y) := by
  unfold startSelftest
  refine (drdRange_shaped (((hy.onBoot rfl rfl).branch ((hy.onBoot rfl rfl).onNoc rfl)).onHost rfl)).branch ?_
  split
  · exact useDefects_shaped ((hy.onBoot rfl rfl).branch ((hy.onBoot rfl rfl).onNoc rfl))
  · exact (hy.onBoot rfl rfl).branch ((hy.onBoot rfl rfl).onNoc rfl)

theorem dropObject_shaped {y : Sys} (hy : Shaped y) : Shaped (dropObject y) := by
  unfold dropObject
  exact hy.zero.onFw

theorem fwRefuse_shaped {y : Sys} {step detail : Nat} (hy : Shaped y) : Shaped (fwRefuse y step detail) := by
  unfold fwRefuse
  exact stepFail_shaped (event_shaped ((dropObject_shaped hy).onFw))

theorem forgetReads_shaped {y : Sys} {p : HostUse → Bool} (hy : Shaped y) : Shaped (forgetReads y p) := by
  unfold forgetReads
  exact hy.onHost rfl

theorem startFwLoad_shaped {y : Sys} (hy : Shaped y) : Shaped (startFwLoad y) := by
  unfold startFwLoad
  extract_lets _ y1
  have hy1 : Shaped y1 := (forgetReads_shaped (dropObject_shaped hy)).onFw
  exact hy.onFw.branch ((fwRefuse_shaped hy).branch (drdRange_shaped (drdRange_shaped hy1)))

theorem startReceive_shaped {y : Sys} (hy : Shaped y) : Shaped (startReceive y) := by
  unfold startReceive
  exact hy.onFw

theorem stepStart_shaped {code : Nat} {y : Sys} (hy : Shaped y) : Shaped (stepStart code y) := by
  unfold stepStart
  split
  · exact startSelftest_shaped hy
  · exact startFwLoad_shaped hy
  · exact startReceive_shaped hy
  · exact hy

theorem writeBoot_shaped {r v : Nat} {y : Sys} (hy : Shaped y) : Shaped (writeBoot r v y) := by
  unfold writeBoot
  split
  · exact (hy.onBoot rfl rfl).when (fun _ hz => bootGo_shaped hz (fun _ => stepStart_shaped))
  · exact hy.onBoot rfl rfl
  · exact hy.onBoot rfl rfl
  · exact hy.onBoot rfl rfl
  · exact hy.onBoot rfl rfl
  · exact hy.onBoot rfl rfl
  · exact hy.onBoot rfl rfl
  · exact hy.onBoot rfl rfl
  · exact hy.onBoot rfl rfl
  · exact hy.onBoot rfl rfl
  · exact hy.onBoot rfl rfl
  · exact hy.onBoot rfl rfl
  · exact hy.onBoot rfl rfl
  · exact hy

theorem writeBeat_shaped {r v : Nat} {y : Sys} (hy : Shaped y) : Shaped (writeBeat r v y) := by
  unfold writeBeat
  split
  · exact hy.onBeat
  · exact hy.onBeat
  · exact hy.onBeat
  · exact beatLoadCtrl_shaped hy
  · exact hy

theorem writeWalker_shaped {r v : Nat} {y : Sys} (hy : Shaped y) : Shaped (writeWalker r v y) := by
  unfold writeWalker
  exact hy.onWalker.branch hy

theorem mapCtrlWrite_shaped {v : Nat} {y : Sys} (hy : Shaped y) : Shaped (mapCtrlWrite v y) := by
  unfold mapCtrlWrite
  exact hy.onMap rfl

theorem writeMapReg_shaped {r v : Nat} {y : Sys} (hy : Shaped y) : Shaped (writeMapReg r v y) := by
  unfold writeMapReg
  split
  · exact mapCtrlWrite_shaped hy
  · exact (hy.onMap rfl).branch hy
  · exact hy

theorem rowClear_shaped {v : Nat} {y : Sys} (hy : Shaped y) : Shaped (rowClear v y) := by
  unfold rowClear
  exact hy.when (fun _ hz => hz.onProt rfl rfl)

theorem injCtrlWrite_shaped {v : Nat} {y : Sys} (hy : Shaped y) : Shaped (injCtrlWrite v y) := by
  unfold injCtrlWrite
  exact hy.onProt rfl rfl

theorem writeProt_shaped {r v : Nat} {y : Sys} (hy : Shaped y) : Shaped (writeProt r v y) := by
  unfold writeProt
  split
  · exact hy.onProt rfl rfl
  · exact hy.onProt rfl rfl
  · exact injCtrlWrite_shaped hy
  · split
    · exact hy.when (fun _ hz => hz.onSiteProt)
    · exact hy.when (fun _ hz => hz.onSiteProt)
    · exact hy

theorem nocClear_shaped {v : Nat} {y : Sys} (hy : Shaped y) : Shaped (nocClear v y) := by
  unfold nocClear
  exact hy.when (fun _ hz => hz.onNoc (by simp))

theorem writeNoc_shaped {r v : Nat} {y : Sys} (hy : Shaped y) : Shaped (writeNoc r v y) := by
  unfold writeNoc
  split
  · exact hy.onNoc rfl
  · exact nocClear_shaped hy
  · exact hy

theorem bootMcastWrite_shaped {v : Nat} {y : Sys} (hy : Shaped y) : Shaped (bootMcastWrite v y) := by
  unfold bootMcastWrite
  exact hy.onSpan rfl

theorem spanClear_shaped {v : Nat} {y : Sys} (hy : Shaped y) : Shaped (spanClear v y) := by
  unfold spanClear
  exact hy.when (fun _ hz => hz.onSpan (by simp))

theorem portFlags_shaped {p v : Nat} {y : Sys} (hy : Shaped y) : Shaped (portFlags p v y) := by
  unfold portFlags
  exact hy.onPort

theorem writeSpan_shaped {r v : Nat} {y : Sys} (hy : Shaped y) : Shaped (writeSpan r v y) := by
  unfold writeSpan
  split
  · exact spanSelfWrite_shaped hy
  · exact bootMcastWrite_shaped hy
  · exact spanClear_shaped hy
  · split
    · exact portFlags_shaped hy
    · exact placeWrite_shaped hy
    · exact hy

theorem evtConsumerWrite_shaped {v : Nat} {y : Sys} (hy : Shaped y) : Shaped (evtConsumerWrite v y) := by
  unfold evtConsumerWrite
  exact hy.onHost rfl

theorem stsConsumerWrite_shaped {q v : Nat} {y : Sys} (hy : Shaped y) : Shaped (stsConsumerWrite q v y) := by
  unfold stsConsumerWrite
  exact hy.onSched rfl (by simp)

theorem writeHost_shaped {r v : Nat} {y : Sys} (hy : Shaped y) : Shaped (writeHost r v y) := by
  unfold writeHost
  split
  · exact evtConsumerWrite_shaped hy
  · split
    · exact stsConsumerWrite_shaped hy
    · exact hy

theorem powerClear_shaped {v : Nat} {y : Sys} (hy : Shaped y) : Shaped (powerClear v y) := by
  unfold powerClear
  exact hy.when (fun _ hz => hz.onPower (by simp) rfl)

theorem writePower_shaped {r v : Nat} {y : Sys} (hy : Shaped y) : Shaped (writePower r v y) := by
  unfold writePower
  split
  · exact hy.onPower rfl rfl
  · exact hy.onPower rfl rfl
  · exact powerClear_shaped hy
  · exact hy

theorem faultsClear_shaped {v : Nat} {y : Sys} (hy : Shaped y) : Shaped (faultsClear v y) := by
  unfold faultsClear
  exact hy.when (fun _ hz => hz.onFaults)

theorem arrayClear_shaped {s v : Nat} {y : Sys} (hy : Shaped y) : Shaped (arrayClear s v y) := by
  unfold arrayClear
  exact hy.when (fun _ hz => hz.onCore)

theorem seqCountsWrite_shaped {s v : Nat} {y : Sys} (hy : Shaped y) : Shaped (seqCountsWrite s v y) := by
  unfold seqCountsWrite
  exact hy.onCore

theorem writeCore_shaped {s r v : Nat} {y : Sys} (hy : Shaped y) : Shaped (writeCore s r v y) := by
  unfold writeCore
  split
  · exact arrayClear_shaped hy
  · exact hy.onCore
  · exact seqCountsWrite_shaped hy
  · exact hy

theorem csrWrite_shaped {off v : Nat} {y : Sys} (hy : Shaped y) : Shaped (csrWrite off v y) := by
  unfold csrWrite
  refine hy.branch ?_
  split
  · exact writeBoot_shaped hy
  · exact writeBeat_shaped hy
  · exact (writeWalker_shaped hy).branch hy
  · exact writeMapReg_shaped hy
  · exact (rowClear_shaped hy).branch hy
  · exact writeProt_shaped hy
  · exact writeNoc_shaped hy
  · exact writeSpan_shaped hy
  · exact writeHost_shaped hy
  · exact writePower_shaped hy
  · exact (faultsClear_shaped hy).branch hy
  · split
    · exact writeCore_shaped hy
    · exact hy

theorem wrUc_shaped {h tag a : Nat} {data : List Byte} {mask : List Bool} {y : Sys} (hy : Shaped y) :
    Shaped (wrUc h tag a data mask y) := by
  unfold wrUc
  refine hy.branch ?_
  split
  · dsimp only
    split
    · exact refuseHost_shaped hy
    · exact hostRequest_shaped hy
  · dsimp only
    split
    · exact sendAck_shaped (csrWrite_shaped hy)
    · exact hostRequest_shaped hy

theorem staleData_shaped {y : Sys} {tag a : Nat} (hy : Shaped y) : Shaped (staleData y tag a) := by
  unfold staleData
  exact event_shaped (sendErr_shaped hy)

theorem refuseDirty_shaped {y : Sys} {tag a cause : Nat} (hy : Shaped y) : Shaped (refuseDirty y tag a cause) := by
  unfold refuseDirty
  exact refuseHost_shaped (hy.onHost rfl)

theorem writeBack_shaped {y : Sys} {tag a : Nat} {data : List Byte} (hy : Shaped y) : Shaped (writeBack y tag a data) := by
  unfold writeBack
  exact (sendErr_shaped (hostWrite_shaped (hy.onHost rfl))).branch (sendAck_shaped (hostWrite_shaped (hy.onHost rfl)))

theorem wbDirty_shaped {h tag a : Nat} {data : List Byte} {y : Sys} (hy : Shaped y) : Shaped (wbDirty h tag a data y) := by
  unfold wbDirty
  refine hy.branch ((staleData_shaped hy).branch ?_)
  split
  · exact refuseDirty_shaped hy
  · exact (hy.onHost rfl).branch (writeBack_shaped hy)

theorem evictClean_shaped {h tag a : Nat} {y : Sys} (hy : Shaped y) : Shaped (evictClean h tag a y) := by
  unfold evictClean
  exact hy.branch (sendAck_shaped (hy.onHost rfl))

theorem snoopData_shaped {y : Sys} {tag a : Nat} {b : List Byte} (hy : Shaped y) : Shaped (snoopData y tag a b) := by
  unfold snoopData
  refine (staleData_shaped hy).branch ?_
  split
  · exact recordAccess_shaped hy
  · exact hostWrite_shaped hy

theorem snpRsp_shaped {h tag a st : Nat} {data : Option (List Byte)} {y : Sys} (hy : Shaped y) : Shaped (snpRsp h tag a st data y) := by
  unfold snpRsp
  refine hy.branch (Shaped.branch ?_ (homeComplete_shaped (Shaped.onHost ?_ rfl)))
  · split
    · exact hy
    · exact snoopData_shaped hy
  · split
    · exact hy
    · exact snoopData_shaped hy

theorem takeAcc_shaped {y : Sys} {tag : Nat} (hy : Shaped y) : Shaped (takeAcc y tag).2 := by
  unfold takeAcc
  split
  · exact hy
  · exact hy.onHost rfl

theorem hostData_shaped {tag : Nat} {data : List Byte} {y : Sys} (hy : Shaped y) : Shaped (hostData tag data y) := by
  unfold hostData
  dsimp only
  split
  · exact hy
  · refine (takeAcc_shaped hy).branch ?_
    split
    · split
      · exact movePieceArrives_shaped (takeAcc_shaped hy)
      · exact takeAcc_shaped hy
    · exact refArrived_shaped (takeAcc_shaped hy)
    · exact memArrived_shaped (takeAcc_shaped hy)
    · exact fwArrived_shaped (takeAcc_shaped hy)
    · exact fwArrived_shaped (takeAcc_shaped hy)
    · exact defectsArrived_shaped (takeAcc_shaped hy)
    · exact takeAcc_shaped hy

theorem evtPerformed_shaped {y : Sys} (hy : Shaped y) : Shaped (evtPerformed y) := by
  unfold evtPerformed
  exact hy.branch (dwrRange_shaped (hy.onHost rfl))

theorem stsPerformed_shaped {y : Sys} {q : Nat} (hy : Shaped y) : Shaped (stsPerformed y q) := by
  unfold stsPerformed
  exact hy.branch (dwrRange_shaped (hy.onSched rfl (by simp)))

theorem hostAck_shaped {tag : Nat} {y : Sys} (hy : Shaped y) : Shaped (hostAck tag y) := by
  unfold hostAck
  dsimp only
  split
  · exact hy
  · split
    · exact destAnswered_shaped (takeAcc_shaped hy)
    · exact evtPerformed_shaped (takeAcc_shaped hy)
    · exact stsPerformed_shaped (takeAcc_shaped hy)
    · exact takeAcc_shaped hy

theorem hostErr_shaped {tag : Nat} {y : Sys} (hy : Shaped y) : Shaped (hostErr tag y) := by
  unfold hostErr
  dsimp only
  split
  · exact hy
  · exact accFailed_shaped (takeAcc_shaped hy)

theorem homeResume_shaped {y : Sys} {line : Nat} (hy : Shaped y) : Shaped (homeResume y line) := by
  unfold homeResume
  refine hy.branch ?_
  split
  · exact hy
  · exact beginHome_shaped (hy.onHost rfl)

theorem snoopTimeout_shaped {line : Nat} {y : Sys} (hy : Shaped y) : Shaped (snoopTimeout line y) := by
  unfold snoopTimeout
  exact (dropLine_shaped hy).branch hy

theorem doneEvent_shaped {y : Sys} {m status seq group verb : Nat} {result : List Byte} (hy : Shaped y) :
    Shaped (doneEvent y m status seq group verb result) := by
  unfold doneEvent
  exact event_shaped hy

theorem commandDone_shaped {m : Nat} {y : Sys} (hy : Shaped y) : Shaped (commandDone m y) := by
  unfold commandDone
  split
  · exact hy
  · exact doneEvent_shaped (hy.onHost rfl)

theorem commandUnknown_shaped {m : Nat} {y : Sys} (hy : Shaped y) : Shaped (commandUnknown m y) := by
  unfold commandUnknown
  split
  · exact hy
  · exact hy.branch (finish_shaped hy)

theorem whenOn_shaped {f : Sys → Sys} {y : Sys} (hy : Shaped y) (hf : ∀ x0, Shaped x0 → Shaped (f x0)) : Shaped (whenOn f y) := by
  unfold whenOn
  exact hy.branch (hf _ hy)

theorem command_shaped {group verb need m : Nat} {body : CmdRun → Sys → Sys} {y : Sys} (hy : Shaped y)
    (hf : ∀ x0 x1, Shaped x1 → Shaped (body x0 x1)) : Shaped (command group verb need m body y) := by
  unfold command
  split
  · exact hy
  · exact hy.branch ((finish_shaped hy).branch ((finish_shaped hy).branch ((finish_shaped hy).branch (hf _ _ hy))))

theorem bootInfo_shaped {m : Nat} {y : Sys} (hy : Shaped y) : Shaped (bootInfo m y) := by
  unfold bootInfo
  exact command_shaped hy (fun _ _ => finish_shaped)

theorem finishDest_shaped {y : Sys} {m dest : Nat} {data : List Byte} {status : Nat} {result : List Byte} (hy : Shaped y) :
    Shaped (finishDest y m dest data status result) := by
  unfold finishDest
  exact (finish_shaped hy).branch (dwrRange_shaped (onOpen_shaped hy))

theorem bootResourceMap_shaped {m : Nat} {y : Sys} (hy : Shaped y) : Shaped (bootResourceMap m y) := by
  unfold bootResourceMap
  exact command_shaped hy (fun _ _ hz => (finish_shaped hz).branch (finishDest_shaped hz))

theorem bootDefects_shaped {m : Nat} {y : Sys} (hy : Shaped y) : Shaped (bootDefects m y) := by
  unfold bootDefects
  refine command_shaped hy (fun _ _ hz => ?_)
  split
  · exact finish_shaped hz
  · exact finish_shaped (hz.onBoot rfl rfl)

theorem progress_shaped {y : Sys} {m : Nat} {result : List Byte} (hy : Shaped y) : Shaped (progress y m result) := by
  unfold progress
  exact writeResult_shaped (onOpen_shaped hy)

theorem bootCores_shaped {m : Nat} {y : Sys} (hy : Shaped y) : Shaped (bootCores m y) := by
  unfold bootCores
  exact command_shaped hy (fun _ _ hz => (finish_shaped hz).branch (progress_shaped (hz.onBoot rfl rfl)))

theorem resetCommand_shaped {level m : Nat} {body : Nat → Sys → Sys} {y : Sys} (hy : Shaped y)
    (hf : ∀ x0 x1, Shaped x1 → Shaped (body x0 x1)) : Shaped (resetCommand level m body y) := by
  unfold resetCommand
  exact command_shaped hy (fun _ _ hz => (finish_shaped hz).branch (hz.branch (hf _ _ hz)))

theorem resetBegins_shaped {level target m : Nat} {sites : List Nat} {test : Bool} {y : Sys} (hy : Shaped y) :
    Shaped (resetBegins level target m sites test y) := by
  unfold resetBegins
  exact progress_shaped (hy.onBoot rfl rfl)

theorem startDelivery_shaped {y : Sys} {site : Nat} (hy : Shaped y) : Shaped (startDelivery y site) := by
  unfold startDelivery
  exact hy.onFw

theorem railOn_shaped {y : Sys} {s : Nat} (hy : Shaped y) : Shaped (railOn y s) := by
  unfold railOn
  exact applySetPoint_shaped ((hy.onBoot rfl rfl).onSitePow)

theorem rampSite_shaped {y : Sys} {site : Nat} (hy : Shaped y) : Shaped (rampSite y site) := by
  unfold rampSite
  exact startDelivery_shaped (railOn_shaped hy)

theorem railsOff_shaped {y : Sys} {site : Nat} (hy : Shaped y) : Shaped (railsOff y site) := by
  unfold railsOff
  exact (hy.onBoot rfl rfl).onSitePow

theorem resetRails_shaped {again : Bool} {y : Sys} {site : Nat} (hy : Shaped y) : Shaped (resetRails again y site) := by
  unfold resetRails
  exact ((rampSite_shaped (railsOff_shaped hy)).branch hy).branch (hy.branch (rampSite_shaped hy))

theorem resetSite_shaped {y : Sys} {site : Nat} (hy : Shaped y) : Shaped (resetSite y site) := by
  unfold resetSite
  exact (hy.onNoc rfl).onSiteProt

theorem sitesReset_shaped {level target m : Nat} {sites : List Nat} {y : Sys} (hy : Shaped y) :
    Shaped (sitesReset level target m sites y) := by
  unfold sitesReset
  exact (finish_shaped hy).branch ((resetBegins_shaped hy).each (fun _ _ hz => resetRails_shaped (resetSite_shaped hz)))

theorem resetColumn_shaped {m : Nat} {x1 : Sys} (hy : Shaped x1) : Shaped (resetColumn m x1) := by
  unfold resetColumn
  exact resetCommand_shaped hy (fun _ _ hz => (finish_shaped hz).branch (sitesReset_shaped hz))

theorem resetCluster_shaped {m : Nat} {x1 : Sys} (hy : Shaped x1) : Shaped (resetCluster m x1) := by
  unfold resetCluster
  exact resetCommand_shaped hy (fun _ _ hz => (finish_shaped hz).branch (sitesReset_shaped hz))

theorem cutForReset_shaped {y : Sys} {q : Nat} (hy : Shaped y) : Shaped (cutForReset y q) := by
  unfold cutForReset
  refine hy.branch ?_
  dsimp only
  split
  · exact setPart_shaped (stopPart_shaped hy)
  · exact (stopPart_shaped hy).onBoot rfl (by simp)
  · exact stopPart_shaped hy

theorem resetPartition_shaped {m : Nat} {x1 : Sys} (hy : Shaped x1) : Shaped (resetPartition m x1) := by
  unfold resetPartition
  exact resetCommand_shaped hy (fun _ _ hz => (finish_shaped hz).branch ((finish_shaped hz).branch ((cutForReset_shaped
    (resetBegins_shaped hz)).each (fun _ _ => resetSite_shaped))))

theorem stopForFabric_shaped {y : Sys} (hy : Shaped y) : Shaped (stopForFabric y) := by
  unfold stopForFabric
  refine ((hy.each (fun _ _ hz1 => hz1.onCore)).each (fun _ _ => faultStop_shaped)).each (fun _ _ hz2 => ?_)
  dsimp only
  split
  · exact hz2.onCore.onSched (by simp) rfl
  · exact hz2.onCore

theorem endTransfers_shaped {y : Sys} (hy : Shaped y) : Shaped (endTransfers y) := by
  unfold endTransfers
  exact ((hy.each (fun _ _ => pathReset_shaped)).onNoc rfl).onHost rfl

theorem resetBanks_shaped {y : Sys} (hy : Shaped y) : Shaped (resetBanks y) := by
  unfold resetBanks
  exact hy.onProt rfl rfl

theorem refuseTxns_shaped {y : Sys} (hy : Shaped y) : Shaped (refuseTxns y) := by
  unfold refuseTxns
  exact (hy.onHost rfl).each (fun _ _ => sendErr_shaped)

theorem fabricDown_shaped {y : Sys} (hy : Shaped y) : Shaped (fabricDown y) := by
  unfold fabricDown
  extract_lets y1 y2 y3
  have hy1 : Shaped y1 := stopForFabric_shaped (endTransfers_shaped hy)
  have hy2 : Shaped y2 := requestHold_shaped hy1
  have hy3 : Shaped y3 := hy2.onNoc rfl
  exact (resetBanks_shaped (refuseTxns_shaped hy3)).onBoot rfl rfl

theorem resetFabric_shaped {m : Nat} {x1 : Sys} (hy : Shaped x1) : Shaped (resetFabric m x1) := by
  unfold resetFabric
  exact resetCommand_shaped hy (fun _ _ hz => (finish_shaped hz).branch (fabricDown_shaped (resetBegins_shaped hz)))

theorem resetDevice_shaped {m : Nat} {x1 : Sys} (hy : Shaped x1) : Shaped (resetDevice m x1) := by
  unfold resetDevice
  exact resetCommand_shaped hy (fun _ _ hz1 => (fabricDown_shaped ((resetBegins_shaped hz1).each (fun _ _ hz2 => setPart_shaped
    (stopPart_shaped hz2)))).each (fun _ _ hz3 => hz3.onHalf.branch hz3))

theorem cfgWrite_shaped {m : Nat} {y : Sys} (hy : Shaped y) : Shaped (cfgWrite m y) := by
  unfold cfgWrite
  exact command_shaped hy (fun _ _ hz => (finish_shaped hz).branch ((finish_shaped hz).branch (finish_shaped hz.put)))

theorem cfgRead_shaped {m : Nat} {y : Sys} (hy : Shaped y) : Shaped (cfgRead m y) := by
  unfold cfgRead
  exact command_shaped hy (fun _ _ hz => (finish_shaped hz).branch (finishDest_shaped hz))

theorem backInvalidate_shaped {y : Sys} {c g : Nat} (hy : Shaped y) : Shaped (backInvalidate y c g) := by
  unfold backInvalidate
  exact hy.each (fun _ _ => homeArrive_shaped)

theorem swapAccept_shaped {y : Sys} {at0 : Option Nat} (hy : Shaped y) : Shaped (swapAccept y at0) := by
  unfold swapAccept
  exact ((hy.onSched rfl rfl).onProt rfl rfl).each (fun _ _ => backInvalidate_shaped)

theorem swapCommand_shaped {immediate : Bool} {m : Nat} {y : Sys} (hy : Shaped y) : Shaped (swapCommand immediate m y) := by
  unfold swapCommand
  exact command_shaped hy (fun _ _ hz => hz.branch ((finish_shaped hz).branch ((finish_shaped hz).branch ((finish_shaped hz).branch
    (finish_shaped (swapAccept_shaped hz))))))

theorem swapCancel_shaped {m : Nat} {y : Sys} (hy : Shaped y) : Shaped (swapCancel m y) := by
  unfold swapCancel
  refine command_shaped hy (fun _ _ hz => hz.branch ((finish_shaped hz).branch ?_))
  split
  · exact finish_shaped hz
  · exact (finish_shaped hz).branch (finish_shaped ((hz.onSched rfl rfl).onProt rfl rfl))

theorem ccSnoop_shaped {y : Sys} {reads writes : List (Nat × Nat)} (hy : Shaped y) : Shaped (ccSnoop y reads writes).2 := by
  unfold ccSnoop
  exact (hy.each (fun _ _ hz1 => hz1.branch (homeArrive_shaped hz1))).each (fun _ _ hz2 => hz2.branch (homeArrive_shaped hz2))

theorem ccRead_shaped {y : Sys} {a n : Nat} (hy : Shaped y) : Shaped (ccRead y a n).2 := by
  unfold ccRead
  dsimp only
  split
  · exact readDev_shaped hy
  · exact firmwareRecord_shaped (readDev_shaped hy)

theorem noticePools_shaped {y : Sys} {i : Image} (hy : Shaped y) : Shaped (noticePools y i) := by
  unfold noticePools
  split
  · exact hy
  · exact hy.each (fun _ _ hz => hz.branch (updateFree_shaped hz))

theorem loadConstants_shaped {y : Sys} {i : Image} (hy : Shaped y) : Shaped (loadConstants y i) := by
  refine hy.each fun z s hz => ?_
  dsimp only
  split
  · exact firmwareRecord_shaped (refusedTwice_shaped hz)
  · exact deviceWrite_shaped hz

theorem newRing_shaped {y : Sys} {q addr records : Nat} (hy : Shaped y) : Shaped (newRing y q addr records) := by
  unfold newRing
  exact (hy.onSched rfl (by simp)).onHost rfl

theorem loadImage_shaped {y : Sys} {i : Image} {ring records : Nat} (hy : Shaped y) : Shaped (loadImage y i ring records) := by
  unfold loadImage
  exact noticePools_shaped (loadConstants_shaped (newRing_shaped (hy.onSched rfl rfl)))

theorem schedLoad_shaped {m : Nat} {y : Sys} (hy : Shaped y) : Shaped (schedLoad m y) := by
  unfold schedLoad
  refine command_shaped hy (fun _ _ hz => (finish_shaped hz).branch ((ccSnoop_shaped (ccSnoop_shaped hz)).branch ?_))
  split
  · rename_i hr
    extract_lets _ _ y11 _
    have hy11 : Shaped y11 := loadImage_shaped ((ccRead_shaped hz).branch_snd hz)
    exact (finish_shaped hy11).branch (finishDest_shaped hy11)
  · rename_i hr
    exact finish_shaped ((ccRead_shaped hz).branch_snd hz)
  · rename_i hr
    exact finish_shaped ((ccRead_shaped hz).branch_snd hz)

theorem schedUnload_shaped {m : Nat} {y : Sys} (hy : Shaped y) : Shaped (schedUnload m y) := by
  unfold schedUnload
  refine command_shaped hy (fun _ _ hz => (finish_shaped hz).branch ?_)
  split
  · exact finish_shaped hz
  · exact (finish_shaped hz).branch (finish_shaped (hz.onSched (by simp) rfl))

theorem schedStart_shaped {m : Nat} {y : Sys} (hy : Shaped y) : Shaped (schedStart m y) := by
  unfold schedStart
  refine command_shaped hy (fun _ _ hz => (finish_shaped hz).branch ?_)
  dsimp only
  split
  · exact finish_shaped hz
  · exact (finish_shaped hz).branch ((finish_shaped hz).branch ((finish_shaped hz).branch ((finish_shaped (ccRead_shaped hz)).branch
      ((finish_shaped (ccRead_shaped hz)).branch (finish_shaped ((ccRead_shaped hz).onSched (by simp) rfl))))))

theorem disableCommand_shaped {verb m : Nat} {start : Nat → Sys → Sys} {y : Sys} (hy : Shaped y)
    (hf : ∀ x0 x1, Shaped x1 → Shaped (start x0 x1)) : Shaped (disableCommand verb m start y) := by
  unfold disableCommand
  exact command_shaped hy (fun _ _ hz => (finish_shaped hz).branch ((finish_shaped hz).branch (progress_shaped (hf _ _ hz))))

theorem cutStart_shaped {q : Nat} {y : Sys} (hy : Shaped y) : Shaped (cutStart q y) := by
  unfold cutStart
  exact (stopPart_shaped (hy.onBoot rfl rfl)).onBoot rfl (by simp)

theorem drainStart_shaped {q : Nat} {y : Sys} (hy : Shaped y) : Shaped (drainStart q y) := by
  unfold drainStart
  exact hy.onBoot rfl (by simp)

theorem refuseAccess_shaped {y : Sys} {m cause addr : Nat} {write : Bool} (hy : Shaped y) :
    Shaped (refuseAccess y m cause addr write) := by
  unfold refuseAccess
  exact finish_shaped (firmwareRecord_shaped (recordAccess_shaped hy))

theorem readBlocks_shaped {y : Sys} {a len : Nat} (hy : Shaped y) : Shaped (readBlocks y a len).2 := by
  unfold readBlocks
  refine hy.foldl_snd (fun _ _ hz => ?_)
  split
  · exact hz
  · exact refusedTwice_shaped hz
  · dsimp only
    split
    · exact readBank_shaped hz
    · exact readBank_shaped hz

theorem memCopy_shaped {m : Nat} {y : Sys} (hy : Shaped y) : Shaped (memCopy m y) := by
  unfold memCopy
  refine command_shaped hy (fun _ _ hz => (finish_shaped hz).branch ?_)
  split
  · dsimp only
    split
    · exact refuseAccess_shaped hz
    · exact refuseAccess_shaped hz
    · exact (ccSnoop_shaped hz).branch ((storeData_shaped (readBlocks_shaped hz)).branch (finish_shaped hz))
  · dsimp only
    split
    · exact refuseAccess_shaped hz
    · exact refuseAccess_shaped hz
    · exact (ccSnoop_shaped hz).branch ((storeData_shaped (readBlocks_shaped hz)).branch (drdRange_shaped (onOpen_shaped hz)))

theorem memFill_shaped {m : Nat} {y : Sys} (hy : Shaped y) : Shaped (memFill m y) := by
  unfold memFill
  refine command_shaped hy (fun _ _ hz => (finish_shaped hz).branch ?_)
  dsimp only
  split
  · exact refuseAccess_shaped hz
  · exact (ccSnoop_shaped hz).branch (storeData_shaped hz)

theorem fillBuffer_shaped {y : Sys} {s : Nat} (hy : Shaped y) : Shaped (fillBuffer y s) := by
  unfold fillBuffer
  exact hy.zero.onProt rfl rfl

theorem memMigrate_shaped {m : Nat} {y : Sys} (hy : Shaped y) : Shaped (memMigrate m y) := by
  unfold memMigrate
  exact command_shaped hy (fun _ _ hz => (finish_shaped hz).branch ((finish_shaped hz).branch (progress_shaped ((fillBuffer_shaped
    (hz.onNoc rfl)).onMap (by simp)))))

theorem KvWork_y_shaped {self : KvWork} (hy : Shaped (self).y) : Shaped (KvWork.y self) := by
  unfold KvWork.y
  exact hy

theorem kvPut_shaped {w : KvWork} {a : Nat} {data : List Byte} (hy : Shaped (w).y) : Shaped (kvPut w a data).y := by
  unfold kvPut
  exact writeBlocks_shaped hy

theorem kvRead_shaped {w : KvWork} {a len : Nat} (hw : Shaped w.y) : Shaped (kvRead w a len).2.y := by
  unfold kvRead
  dsimp only
  split
  · exact readBlocks_shaped hw
  · exact readBlocks_shaped hw

theorem kvFinish_shaped {w : KvWork} {m : Nat} (hw : Shaped w.y) : Shaped (kvFinish w m) := finish_shaped hw

theorem kvWrite_shaped {m : Nat} {y : Sys} (hy : Shaped y) : Shaped (kvWrite m y) := by
  unfold kvWrite
  exact command_shaped hy (fun _ _ hz => (finish_shaped hz).branch ((finish_shaped hz).branch (hz.branch (kvFinish_shaped ((kvPut_shaped
    hz).each (fun _ _ => noticePools_shaped))))))

theorem KvWork_each_shaped {α : Type} {w : KvWork} {l : List α} {f : KvWork → α → KvWork} (hw : Shaped w.y)
    (hf : ∀ w a, Shaped w.y → Shaped (f w a).y) : Shaped (w.each l f).y :=
  List.foldlRecOn (motive := fun w : KvWork => Shaped w.y) l f hw fun w hw a _ => hf w a hw

theorem bindEntry_shaped {p : Pw} {w : KvWork} {x : ListHdr × ListHdr × Nat} (hw : Shaped w.y) : Shaped (bindEntry p w x).y := by
  have hentry := kvRead_shaped (a := x.1.pl + 16 * x.2.2) (len := 16) hw
  unfold bindEntry
  dsimp only
  split
  · exact hentry
  have hsketch := kvRead_shaped (a := x.1.sk + 32 * x.2.2) (len := 32) hentry
  split
  · exact hsketch
  split
  · exact kvRead_shaped (kvPut_shaped (kvPut_shaped hsketch))
  · exact kvPut_shaped (kvRead_shaped (kvPut_shaped (kvPut_shaped hsketch)))

theorem kvBind_shaped {m : Nat} {y : Sys} (hy : Shaped y) : Shaped (kvBind m y) := by
  unfold kvBind
  refine command_shaped hy (fun _ _ hz => ?_)
  dsimp only
  split
  · exact finish_shaped hz
  · exact (finish_shaped hz).branch (hz.branch ((finish_shaped hz).branch (kvFinish_shaped (KvWork_each_shaped hz (fun _ _ =>
      bindEntry_shaped)))))

theorem giveFrame_shaped {y : Sys} {q : Pool} {f : Nat} (hy : Shaped y) : Shaped (giveFrame y q f) := by
  unfold giveFrame
  exact ccWrite_shaped (ccWrite_shaped hy)

theorem lowerCount_shaped {p : Pw} {col frame : Nat} {w : KvWork} (hw : Shaped w.y) : Shaped (lowerCount p col frame w).y := by
  have hcount := kvRead_shaped (a := recordAddr (readPool w.y p col) frame) (len := 4) hw
  unfold lowerCount
  dsimp only
  split
  · exact hcount
  split
  · dsimp only
    exact updateFree_shaped (giveFrame_shaped (kvPut_shaped hcount))
  · exact kvPut_shaped hcount

theorem releaseEntry_shaped {p : Pw} {h : ListHdr} {w : KvWork} {n : Nat} (hw : Shaped w.y) : Shaped (releaseEntry p h w n).y := by
  have hentry := kvRead_shaped (a := h.pl + 16 * n) (len := 16) hw
  unfold releaseEntry
  dsimp only
  split
  · exact hentry
  split
  · exact hentry
  · exact lowerCount_shaped (kvPut_shaped (kvPut_shaped hentry))

theorem releaseSeq_shaped {y : Sys} {p : Pw} {seq fromPage : Nat} (hy : Shaped y) : Shaped (releaseSeq y p seq fromPage).y := by
  unfold releaseSeq
  exact KvWork_each_shaped hy (fun _ _ hz => KvWork_each_shaped hz (fun _ _ => releaseEntry_shaped))

theorem kvRelease_shaped {m : Nat} {y : Sys} (hy : Shaped y) : Shaped (kvRelease m y) := by
  unfold kvRelease
  refine command_shaped hy (fun _ _ hz => ?_)
  dsimp only
  split
  · exact finish_shaped hz
  · exact (finish_shaped hz).branch ((progress_shaped (onOpen_shaped hz)).branch (hz.branch (kvFinish_shaped (releaseSeq_shaped hz))))

theorem kvFree_shaped {m : Nat} {y : Sys} (hy : Shaped y) : Shaped (kvFree m y) := by
  refine command_shaped hy fun r z hz => ?_
  dsimp only
  split
  · exact finish_shaped hz
  refine .branch (finish_shaped hz) (hz.branch (.branch (finish_shaped hz) (kvFinish_shaped (updateFree_shaped (.each ?_ ?_)))))
  · exact List.foldlRecOn (motive := fun s : List Nat × KvWork => Shaped s.2.y) _ _ hz fun s hs f _ => kvRead_shaped hs
  · exact fun _ _ => giveFrame_shaped

theorem kvStatus_shaped {m : Nat} {y : Sys} (hy : Shaped y) : Shaped (kvStatus m y) := by
  unfold kvStatus
  exact command_shaped hy (fun _ _ => finish_shaped)

theorem pwrGrant_shaped {m : Nat} {x1 : Sys} (hy : Shaped x1) : Shaped (pwrGrant m x1) := by
  unfold pwrGrant
  exact command_shaped hy (fun _ _ hz => (finish_shaped hz).branch ((finish_shaped hz).branch (finish_shaped (hz.onPower rfl rfl))))

theorem setFlow_shaped {y : Sys} {flow : Option Nat} (hy : Shaped y) : Shaped (setFlow y flow) := by
  unfold setFlow
  exact (hy.onPower rfl rfl).branch (event_shaped (hy.onPower rfl rfl))

theorem useReport_shaped {y : Sys} {r : CmdRun} (hy : Shaped y) : Shaped (useReport y r) := by
  unfold useReport
  dsimp only
  split
  · exact setFlow_shaped (hy.onPower rfl rfl)
  · exact (coolantLost_shaped (setFlow_shaped (hy.onPower rfl rfl))).branch (setFlow_shaped (hy.onPower rfl rfl))

theorem pwrEnv_shaped {m : Nat} {x1 : Sys} (hy : Shaped x1) : Shaped (pwrEnv m x1) := by
  unfold pwrEnv
  exact command_shaped hy (fun _ _ hz => (finish_shaped hz).branch ((finish_shaped hz).branch (finish_shaped (useReport_shaped hz))))

theorem pwrHint_shaped {m : Nat} {x1 : Sys} (hy : Shaped x1) : Shaped (pwrHint m x1) := by
  unfold pwrHint
  exact command_shaped hy (fun _ _ hz => finish_shaped (hz.onPower rfl rfl))

theorem pwrCoolant_shaped {action m : Nat} {act : Sys → Sys} {x3 : Sys} (hy : Shaped x3) (hf : ∀ x0, Shaped x0 → Shaped (act x0)) :
    Shaped (pwrCoolant action m act x3) := by
  unfold pwrCoolant
  exact command_shaped hy (fun _ _ hz => (finish_shaped hz).branch (hz.branch ((finish_shaped hz).branch (finish_shaped (hf _ hz)))))

theorem coolantOver_shaped {y : Sys} (hy : Shaped y) : Shaped (coolantOver y) := by
  unfold coolantOver
  exact hy.onPower rfl rfl

theorem allRailsOff_shaped {y : Sys} (hy : Shaped y) : Shaped (allRailsOff y) := by
  unfold allRailsOff
  exact hy.each (fun _ _ => railsOff_shaped)

theorem coolantStop_shaped {y : Sys} (hy : Shaped y) : Shaped (coolantStop y) := by
  unfold coolantStop
  exact coolantOver_shaped (allRailsOff_shaped (faultStopAll_shaped hy))

theorem flushOne_shaped {y : Sys} (hy : Shaped y) : Shaped (flushOne y) := by
  unfold flushOne
  dsimp only
  split
  · exact hy
  · exact hy.branch (dwrRange_shaped (hy.onHost rfl))

theorem faultRing_shaped {m : Nat} {y : Sys} (hy : Shaped y) : Shaped (faultRing m y) := by
  unfold faultRing
  exact command_shaped hy (fun _ _ hz => (finish_shaped hz).branch (finish_shaped ((hz.onHost rfl).each (fun _ _ => flushOne_shaped))))

theorem faultFence_shaped {m : Nat} {y : Sys} (hy : Shaped y) : Shaped (faultFence m y) := by
  unfold faultFence
  exact command_shaped hy (fun _ _ hz => (finish_shaped hz).branch (finish_shaped (hz.onNoc rfl)))

theorem faultAdmit_shaped {m : Nat} {y : Sys} (hy : Shaped y) : Shaped (faultAdmit m y) := by
  unfold faultAdmit
  exact command_shaped hy (fun _ _ hz => (finish_shaped hz).branch ((finish_shaped hz).branch (progress_shaped (hz.onNoc rfl))))

theorem sendGroup0_shaped {y : Sys} {t : Nat} {f : Flit} (hy : Shaped y) : Shaped (sendGroup0 y t f) := by
  unfold sendGroup0
  split
  · exact hy
  · exact hy.each (fun _ _ hz => hz.onPort.branch (transitEvent_shaped hz))

theorem chunkToAll_shaped {y : Sys} {c : Nat} (hy : Shaped y) : Shaped (chunkToAll y c) := by
  unfold chunkToAll
  exact hy.each (fun _ _ => sendGroup0_shaped)

theorem sendUnicast_shaped {y : Sys} {f : Flit} (hy : Shaped y) : Shaped (sendUnicast y f) := by
  unfold sendUnicast
  exact (sendGroup0_shaped hy).branch ((toMgmt_shaped hy).branch hy)

theorem chunkTo_shaped {y : Sys} {id c : Nat} (hy : Shaped y) : Shaped (chunkTo y id c) := by
  unfold chunkTo
  exact hy.each (fun _ _ => sendUnicast_shaped)

theorem sendEndMarkers_shaped {y : Sys} (hy : Shaped y) : Shaped (sendEndMarkers y) := by
  unfold sendEndMarkers
  exact (hy.each (fun _ _ => sendGroup0_shaped)).onFw

theorem sendRound_shaped {y : Sys} {r : Nat} (hy : Shaped y) : Shaped (sendRound y r) := by
  unfold sendRound
  extract_lets y1 _ y2
  have hy1 : Shaped y1 := hy.onFw
  have hy2 : Shaped y2 := hy1.each (fun _ _ hz => (chunkToAll_shaped hz).branch (hz.branch ((chunkToAll_shaped hz).branch (hz.each (fun _
    _ => chunkTo_shaped)))))
  exact sendEndMarkers_shaped hy2

theorem openSession_shaped {y : Sys} {m : Nat} {man img : List Byte} {received : Nat} (hy : Shaped y) :
    Shaped (openSession y m man img received) := by
  unfold openSession
  split
  · exact finish_shaped hy
  · exact (sendRound_shaped ((progress_shaped hy).onFw)).branch (sendRound_shaped ((progress_shaped hy).onFw))

theorem fwSend_shaped {m : Nat} {x1 : Sys} (hy : Shaped x1) : Shaped (fwSend m x1) := by
  unfold fwSend
  exact command_shaped hy (fun _ _ hz => (finish_shaped hz).branch ((openSession_shaped (onOpen_shaped hz)).branch ((finish_shaped
    hz).branch ((finish_shaped hz).branch (drdRange_shaped (drdRange_shaped ((onOpen_shaped hz).onHost rfl)))))))

theorem fwStatus_shaped {m : Nat} {x1 : Sys} (hy : Shaped x1) : Shaped (fwStatus m x1) := by
  unfold fwStatus
  exact command_shaped hy (fun _ _ hz => (finish_shaped hz).branch (finishDest_shaped hz))

theorem fwIdentity_shaped {m : Nat} {x1 : Sys} (hy : Shaped x1) : Shaped (fwIdentity m x1) := by
  unfold fwIdentity
  exact command_shaped hy (fun _ _ hz => (finish_shaped hz).branch ((finish_shaped hz).branch (finishDest_shaped hz)))

theorem signReport_shaped {y : Sys} {body : List Byte} (hy : Shaped y) : Shaped (signReport y body).2 := by
  unfold signReport
  exact hy.onFw

theorem attestWith_shaped {y : Sys} {m dest : Nat} {body : List Byte} (hy : Shaped y) : Shaped (attestWith y m dest body) := by
  unfold attestWith
  exact (finishDest_shaped (signReport_shaped hy)).branch ((progress_shaped hy).onFw)

theorem fwAttest_shaped {m : Nat} {readBack : List Bool} {x2 : Sys} (hy : Shaped x2) : Shaped (fwAttest m readBack x2) := by
  unfold fwAttest
  exact command_shaped hy (fun _ _ hz => (finish_shaped hz).branch ((finish_shaped hz).branch ((attestWith_shaped hz).branch
    ((finish_shaped hz).branch ((attestWith_shaped hz.onFw).branch (finish_shaped (event_shaped hz.onFw.onFw)))))))

theorem spanPlace_shaped {m : Nat} {y : Sys} (hy : Shaped y) : Shaped (spanPlace m y) := by
  unfold spanPlace
  exact command_shaped hy (fun _ _ hz => (finish_shaped hz).branch ((finish_shaped hz).branch ((finish_shaped (applyPlace_shaped
    hz)).branch (drdRange_shaped (onOpen_shaped hz)))))

theorem spanRole_shaped {m : Nat} {y : Sys} (hy : Shaped y) : Shaped (spanRole m y) := by
  unfold spanRole
  refine command_shaped hy (fun _ _ hz => ?_)
  split
  · dsimp only
    split
    · exact finish_shaped hz
    · exact finish_shaped hz
  · dsimp only
    split
    · exact finish_shaped hz
    · exact finish_shaped hz.onBeat

theorem spanBeatLoad_shaped {m : Nat} {y : Sys} (hy : Shaped y) : Shaped (spanBeatLoad m y) := by
  unfold spanBeatLoad
  exact command_shaped hy (fun _ _ hz => (finish_shaped hz).branch ((finish_shaped hz).branch ((finish_shaped hz).branch (finish_shaped
    hz.onBeat))))

theorem sendAdmit_shaped {y : Sys} {kind target inc : Nat} (hy : Shaped y) : Shaped (sendAdmit y kind target inc) := by
  unfold sendAdmit
  exact takeAdmit_shaped hy.onBeat

theorem spanAdmit_shaped {m : Nat} {y : Sys} (hy : Shaped y) : Shaped (spanAdmit m y) := by
  unfold spanAdmit
  exact command_shaped hy (fun _ _ hz => (finish_shaped hz).branch ((finish_shaped hz).branch (finish_shaped (sendAdmit_shaped hz))))

theorem spanDismiss_shaped {m : Nat} {y : Sys} (hy : Shaped y) : Shaped (spanDismiss m y) := by
  unfold spanDismiss
  exact command_shaped hy (fun _ _ hz => (finish_shaped hz).branch ((finish_shaped hz).branch (finish_shaped (sendAdmit_shaped hz))))

theorem spanHold_shaped {m : Nat} {y : Sys} (hy : Shaped y) : Shaped (spanHold m y) := by
  unfold spanHold
  exact command_shaped hy (fun _ _ hz => finish_shaped (requestHold_shaped hz))

theorem spanRelease_shaped {m : Nat} {y : Sys} (hy : Shaped y) : Shaped (spanRelease m y) := by
  unfold spanRelease
  exact command_shaped hy (fun _ _ hz => (finish_shaped hz).branch ((finish_shaped hz).branch (finish_shaped (applyRelease_shaped
    (floodRec_shaped (remember_shaped hz))))))

theorem spanLedger_shaped {m : Nat} {y : Sys} (hy : Shaped y) : Shaped (spanLedger m y) := by
  unfold spanLedger
  exact command_shaped hy (fun _ _ hz => (finish_shaped hz).branch ((finish_shaped hz).branch (finishDest_shaped hz)))

theorem spanRoutes_shaped {m : Nat} {y : Sys} (hy : Shaped y) : Shaped (spanRoutes m y) := by
  unfold spanRoutes
  exact command_shaped hy (fun _ _ hz => (finish_shaped hz).branch (finish_shaped (bootMcastWrite_shaped hz)))

theorem addFindings_shaped {y : Sys} {found : List BadUnit} (hy : Shaped y) : Shaped (addFindings y found) := by
  unfold addFindings
  exact hy.each (fun _ _ hz => event_shaped (hz.onBoot rfl rfl))

theorem stepDone_shaped {y : Sys} (hy : Shaped y) : Shaped (stepDone y) := by
  unfold stepDone
  exact hy.onBoot rfl rfl

theorem selftestComplete_shaped {found : List BadUnit} {baseFailed : Bool} {y : Sys} (hy : Shaped y) :
    Shaped (selftestComplete found baseFailed y) := by
  unfold selftestComplete
  extract_lets y1 _ y2 y3
  have hy1 : Shaped y1 := addFindings_shaped hy
  have hy2 : Shaped y2 := hy1.onNoc rfl
  have hy3 : Shaped y3 := hy2.each (fun _ _ hz => hz.branch hz.onHalf)
  exact hy.branch ((stepFail_shaped hy3).branch ((stepFail_shaped (event_shaped hy3)).branch (stepDone_shaped hy3)))

theorem dramInitComplete_shaped {found : List BadUnit} {y : Sys} (hy : Shaped y) : Shaped (dramInitComplete found y) := by
  unfold dramInitComplete
  extract_lets y1 y2
  have hy1 : Shaped y1 := addFindings_shaped hy
  have hy2 : Shaped y2 := hy1.onBoot rfl rfl
  exact hy.branch ((stepDone_shaped hy2).branch (stepFail_shaped hy2))

theorem fillDram_shaped {y : Sys} {s : Nat} (hy : Shaped y) : Shaped (fillDram y s) := by
  unfold fillDram
  exact hy.zero.onProt rfl rfl

theorem fillComplete_shaped {beats : Nat} {expired : Bool} {y : Sys} (hy : Shaped y) : Shaped (fillComplete beats expired y) := by
  unfold fillComplete
  extract_lets _ _ y1
  have hy1 : Shaped y1 := hy.each (fun _ _ hz => fillBuffer_shaped (hz.branch (fillDram_shaped hz)))
  exact hy.branch ((stepFail_shaped hy).branch (stepDone_shaped (hy1.onProt rfl rfl)))

theorem renumberSpares_shaped {y : Sys} {except : List Nat} (hy : Shaped y) : Shaped (renumberSpares y except) := by
  unfold renumberSpares
  exact hy.onMap rfl

theorem markCores_shaped {y : Sys} (hy : Shaped y) : Shaped (markCores y) := by
  unfold markCores
  exact hy.each (fun _ _ hz => hz.onCore)

theorem keepMap_shaped {y : Sys} (hy : Shaped y) : Shaped (keepMap y) := by
  unfold keepMap
  exact renumberSpares_shaped (markCores_shaped ((hy.onBoot rfl rfl).each (fun _ _ => event_shaped)))

theorem assignCols_shaped {y : Sys} {sites : List Nat} (hy : Shaped y) : Shaped (assignCols y sites) := by
  unfold assignCols
  exact renumberSpares_shaped (markCores_shaped (hy.onMap (by simp [hy.cols])))

theorem provisionalMap_shaped {y : Sys} (hy : Shaped y) : Shaped (provisionalMap y) := by
  unfold provisionalMap
  exact assignCols_shaped (hy.onBoot rfl rfl)

theorem writeMap_shaped {y : Sys} (hy : Shaped y) : Shaped (writeMap y) := by
  unfold writeMap
  exact dwrRange_shaped hy

theorem checkerComplete_shaped {failed : List Nat} {y : Sys} (hy : Shaped y) : Shaped (checkerComplete failed y) := by
  unfold checkerComplete
  extract_lets y1 y2 y3 y4 y5
  have hy1 : Shaped y1 := addFindings_shaped hy
  have hy2 : Shaped y2 := hy1.onProt rfl rfl
  have hy3 : Shaped y3 := hy2.onBoot rfl rfl
  have hy4 : Shaped y4 := (keepMap_shaped hy3).branch (provisionalMap_shaped hy3)
  have hy5 : Shaped y5 := stepDone_shaped (writeMap_shaped hy4)
  exact hy.branch ((stepFail_shaped hy4).branch (enterPower_shaped (hy5.onBoot rfl rfl)))

theorem meetSession_shaped {y : Sys} {session : Nat} (hy : Shaped y) : Shaped (meetSession y session) := by
  unfold meetSession
  exact ((dropObject_shaped hy).onFw).branch hy

theorem ownReport_shaped {y : Sys} {kind page total bitsV : Nat} (hy : Shaped y) : Shaped (ownReport y kind page total bitsV) := by
  unfold ownReport
  exact passReport_shaped hy

theorem receiveWhole_shaped {y : Sys} (hy : Shaped y) : Shaped (receiveWhole y) := by
  unfold receiveWhole
  exact (ownReport_shaped hy.onFw).branch hy

theorem fwPiece_shaped {p : Nat} {f : Flit} {y : Sys} (hy : Shaped y) : Shaped (fwPiece p f y) := by
  unfold fwPiece
  exact hy.branch ((meetSession_shaped hy.onFw).branch (receiveWhole_shaped (((meetSession_shaped hy.onFw).put).onFw)))

theorem sendMissing_shaped {y : Sys} (hy : Shaped y) : Shaped (sendMissing y) := by
  unfold sendMissing
  exact hy.each (fun _ _ hz => hz.branch (ownReport_shaped hz))

theorem reportRound_shaped {y : Sys} {round : Nat} (hy : Shaped y) : Shaped (reportRound y round) := by
  unfold reportRound
  extract_lets y1 y2 y3
  have hy1 : Shaped y1 := hy.onFw
  have hy2 : Shaped y2 := receiveWhole_shaped hy1
  have hy3 : Shaped y3 := sendMissing_shaped hy2
  exact hy.branch (hy2.branch ((fwRefuse_shaped hy3).branch hy3))

theorem endMarker_shaped {p : Nat} {f : Flit} {y : Sys} (hy : Shaped y) : Shaped (endMarker p f y) := by
  unfold endMarker
  exact hy.branch ((meetSession_shaped hy.onFw).branch (reportRound_shaped ((meetSession_shaped hy.onFw).onFw)))

theorem columnFailed_shaped {y : Sys} {c : Nat} (hy : Shaped y) : Shaped (columnFailed y c) := by
  unfold columnFailed
  exact event_shaped ((railsOff_shaped (fenceCore_shaped hy)).onBoot rfl rfl)

theorem waveFailed_shaped {y : Sys} {site : Nat} (hy : Shaped y) : Shaped (waveFailed y site) := by
  unfold waveFailed
  dsimp only
  split
  · exact (railsOff_shaped hy).onBoot rfl rfl
  · exact (columnFailed_shaped ((railsOff_shaped hy).onBoot rfl rfl)).branch (((railsOff_shaped hy).onBoot rfl rfl).onBoot rfl rfl)

theorem wavePassed_shaped {y : Sys} {site : Nat} (hy : Shaped y) : Shaped (wavePassed y site) := by
  unfold wavePassed
  exact (startDelivery_shaped hy.onCore).onBoot rfl rfl

theorem dropIdleFences_shaped {y : Sys} (hy : Shaped y) : Shaped (dropIdleFences y) := by
  unfold dropIdleFences
  exact hy.onNoc rfl

theorem wavesEnd_shaped {y : Sys} (hy : Shaped y) : Shaped (wavesEnd y) := by
  unfold wavesEnd
  extract_lets y1 _ y2 y3 y4
  have hy1 : Shaped y1 := (markCores_shaped hy).branch (assignCols_shaped hy)
  have hy2 : Shaped y2 := hy1.each (fun _ _ => railsOff_shaped)
  have hy3 : Shaped y3 := hy2.onBoot rfl rfl
  have hy4 : Shaped y4 := dropIdleFences_shaped (writeMap_shaped (hy3.onBoot rfl rfl))
  exact hy4.onNoc rfl

theorem waveTestDone_shaped {failed : List Nat} {found : List BadUnit} {y : Sys} (hy : Shaped y) :
    Shaped (waveTestDone failed found y) := by
  unfold waveTestDone
  extract_lets _ _ y1 y2
  have hy1 : Shaped y1 := addFindings_shaped hy
  have hy2 : Shaped y2 := hy1.each (fun _ _ hz => (waveFailed_shaped hz).branch (wavePassed_shaped hz))
  exact hy.branch ((hy2.onBoot rfl rfl).branch (wavesEnd_shaped hy2))

theorem segmentPiece_shaped {site piece : Nat} {data : List Byte} {parityError : Option Site} {y : Sys} (hy : Shaped y) :
    Shaped (segmentPiece site piece data parityError y) := by
  unfold segmentPiece
  split
  · exact hy
  · exact withParity_shaped (hy.branch hy.onFw) (fun _  => shuttleError_shaped hy)

theorem loadFailed_shaped {y : Sys} {site : Nat} (hy : Shaped y) : Shaped (loadFailed y site) := by
  unfold loadFailed
  exact event_shaped (((hy.onNoc rfl).onFw).onNoc rfl)

theorem deliveryEnd_shaped {site : Nat} {y : Sys} (hy : Shaped y) : Shaped (deliveryEnd site y) := by
  unfold deliveryEnd
  split
  · exact hy
  · refine hy.onFw.onFw.branch ((loadFailed_shaped hy.onFw).branch ?_)
    split
    · exact (columnFailed_shaped (loadFailed_shaped hy.onFw)).branch ((railsOff_shaped (loadFailed_shaped hy.onFw)).onBoot rfl rfl)
    · exact (railsOff_shaped (loadFailed_shaped hy.onFw)).onBoot rfl rfl

theorem siteReset_shaped {y : Sys} {site : Nat} (hy : Shaped y) : Shaped (siteReset y site) := by
  unfold siteReset
  exact (((fillBuffer_shaped hy).onCore).onSiteProt).onBoot rfl rfl

theorem complete_shaped {y : Sys} {group verb status : Nat} {result : List Byte} (hy : Shaped y) :
    Shaped (complete y group verb status result) := by
  unfold complete
  exact hy.onHost rfl

theorem resetEnds_shaped {y : Sys} {status : Nat} (hy : Shaped y) : Shaped (resetEnds y status) := by
  unfold resetEnds
  exact complete_shaped ((event_shaped hy).onBoot rfl rfl)

theorem sitesResetEnd_shaped {level : Nat} {testFailed : Bool} {y : Sys} (hy : Shaped y) : Shaped (sitesResetEnd level testFailed y) := by
  unfold sitesResetEnd
  extract_lets _ _ y1 y2
  have hy1 : Shaped y1 := hy.each (fun _ _ => siteReset_shaped)
  have hy2 : Shaped y2 := hy1.each (fun _ _ => railsOff_shaped)
  exact hy.branch ((resetEnds_shaped (hy2.onBoot rfl rfl)).branch (resetEnds_shaped hy1))

theorem disableComplete_shaped {q : Nat} {y : Sys} (hy : Shaped y) : Shaped (disableComplete q y) := by
  unfold disableComplete
  split
  · exact hy
  · exact hy.branch (complete_shaped ((event_shaped (hy.branch (setPart_shaped (stopPart_shaped hy)))).onBoot rfl (by simp)))
  · exact complete_shaped ((event_shaped (hy.branch (setPart_shaped (stopPart_shaped hy)))).onBoot rfl (by simp))
  · exact complete_shaped ((event_shaped (hy.branch (setPart_shaped (stopPart_shaped hy)))).onBoot rfl (by simp))

theorem projectStep_shaped {site col now ratio : Nat} {y : Sys} {s : StepRun} (hy : Shaped y) :
    Shaped (projectStep site col now ratio y s) := by
  unfold projectStep
  split
  · exact shortfallHold_shaped hy.onSitePow
  · exact hy

theorem bubbleLoop_shaped {powerUw : List Nat} {cyc : Nat} {y : Sys} (hy : Shaped y) : Shaped (bubbleLoop powerUw cyc y) := by
  unfold bubbleLoop
  refine hy.each (fun _ _ hz => ?_)
  dsimp only
  split
  · exact (gateTo_shaped hz).onSitePow
  · exact ((gateTo_shaped hz).onSitePow).each (fun _ _ => projectStep_shaped)

theorem droopTrip_shaped {site cyc : Nat} {y : Sys} (hy : Shaped y) : Shaped (droopTrip site cyc y) := by
  unfold droopTrip
  exact hy.branch (hy.onSitePow.branch (event_shaped (applySetPoint_shaped hy.onSitePow.onSitePow)))

theorem heavyStart_shaped {col index : Nat} {y : Sys} (hy : Shaped y) : Shaped (heavyStart col index y) := by
  unfold heavyStart
  split
  · exact hy
  · dsimp only
    split
    · exact hy
    · exact hy.branch (applySetPoint_shaped hy.onSitePow)

theorem heavyEnd_shaped {col index : Nat} {y : Sys} (hy : Shaped y) : Shaped (heavyEnd col index y) := by
  unfold heavyEnd
  exact (applySetPoint_shaped hy.onSitePow).branch hy

theorem thermalTrip_shaped {sensor : Nat} {m : Module} {y : Sys} (hy : Shaped y) : Shaped (thermalTrip sensor m y).2 := by
  have hoff : Shaped (allRailsOff y) := allRailsOff_shaped hy
  unfold thermalTrip
  generalize allRailsOff y = z at hoff
  exact hy.branch_snd (event_shaped (requestHold_shaped (faultStopAll_shaped ((hoff.onPower rfl rfl).onBoot rfl rfl))))

theorem registerWrite_shaped {addr v : Nat} {y : Sys} (hy : Shaped y) : Shaped (registerWrite addr v y) := by
  unfold registerWrite
  split
  · exact (csrWrite_shaped hy).branch hy
  · exact hy

theorem pwrEnFall_shaped {m : Module} {y : Sys} (hy : Shaped y) : Shaped (pwrEnFall m y).2 := by
  unfold pwrEnFall
  exact powerLost_shaped hy

theorem baseOnReached_shaped {m : Module} {y : Sys} (hy : Shaped y) : Shaped (baseOnReached m y).2 := by
  unfold baseOnReached
  exact (enterPower_shaped ((hy.onBoot rfl rfl).onHost (by simp))).branch_snd hy

theorem spanRefclkLoss_shaped {m : Module} {y : Sys} (hy : Shaped y) : Shaped (spanRefclkLoss m y).2 := by
  unfold spanRefclkLoss
  exact hy.branch_snd ((lossOfAlignment_shaped hy).onBeat)

theorem endGating_shaped {y : Sys} {site : Nat} (hy : Shaped y) : Shaped (endGating y site) := by
  unfold endGating
  exact hy.branch hy.onSitePow

theorem coresToBeatEnd_shaped {y : Sys} (hy : Shaped y) : Shaped (coresToBeatEnd y) := by
  unfold coresToBeatEnd
  exact hy.each (fun _ _ hz => endGating_shaped (advanceCore_shaped hz))

theorem releaseHeld_shaped {y : Sys} (hy : Shaped y) : Shaped (releaseHeld y) := by
  unfold releaseHeld
  exact hy.branch (settlePower_shaped (hy.each (fun _ _ hz => (setPart_shaped hz).branch hz)))

theorem bareErrors_shaped {y : Sys} {c g : Nat} (hy : Shaped y) : Shaped (bareErrors y c g) := by
  unfold bareErrors
  exact (hy.each (fun _ _ hz1 => hz1.each (fun _ _ hz2 => (hz2.put.branch hz2).branch (hz2.takeFree.put.branch hz2)))).onProt rfl rfl

theorem followSet_shaped {y : Sys} {oldPrimary : Nat} (hy : Shaped y) : Shaped (followSet y oldPrimary) := by
  unfold followSet
  exact ((switchUpstream_shaped hy).branch hy.onBeat).branch hy

theorem switchImage_shaped {y : Sys} {q old : Nat} (hy : Shaped y) : Shaped (switchImage y q old) := by
  unfold switchImage
  extract_lets _ y1 y2 _ y3 y4
  have hy1 : Shaped (y1).2 := by
    subst y1
    split
    · exact ccRead_shaped hy
    · exact hy
  have hy2 : Shaped y2 := hy1
  have hy3 : Shaped y3 := hy1.onSched (by simp) rfl
  have hy4 : Shaped y4 := startCores_shaped hy3
  exact hy.branch (hy4.branch (requestHold_shaped (faultStop_shaped hy4)))

theorem configurationSwap_shaped {y : Sys} (hy : Shaped y) : Shaped (configurationSwap y) := by
  unfold configurationSwap
  split
  · exact hy
  split
  · exact hy
  extract_lets opened olds primary routed y1 y2 y3 y4 y5 y6 y7
  have h1 : Shaped y1 := hy.each fun _ _ => bareErrors_shaped
  clear_value y1
  have h4 : Shaped y4 := followSet_shaped ((h1.onSched rfl rfl).onBeat.each fun _ _ => switchImage_shaped)
  clear_value y4
  have h6 : Shaped y6 := ((h4.each fun _ _ => noticePools_shaped).onProt rfl rfl).onNoc rfl
  clear_value y6
  have h7 : Shaped y7 := h6.each fun _ _ => budgetTest_shaped
  exact (settlePower_shaped (enterPower_shaped h7)).branch (settlePower_shaped h7)

theorem atBoundary_shaped {y : Sys} (hy : Shaped y) : Shaped (atBoundary y) := by
  unfold atBoundary
  exact (configurationSwap_shaped hy).each (fun _ _ hz => imageFinish_shaped (imageRunRepeat_shaped (partitionStart_shaped hz)))

theorem portBoundary_shaped {y : Sys} {p : Nat} (hy : Shaped y) : Shaped (portBoundary y p) := by
  unfold portBoundary
  refine ((((setPort_shaped hy.onPort).branch hy).each (fun _ _ hz => ?_)).onPort).branch ((setPort_shaped hy.onPort).branch hy)
  split
  · exact (faultStop_shaped hz).branch hz
  · exact hz

theorem sendAccs_shaped {y : Sys} (hy : Shaped y) : Shaped (sendAccs y) := by
  unfold sendAccs
  exact hy.each (fun _ _ hz => hz.branch (sendHost_shaped (hz.onHost rfl)))

theorem takeSent_shaped {y : Sys} {p flow : Nat} (hy : Shaped y) : Shaped (takeSent y p flow).2 := by
  unfold takeSent
  split
  · exact hy.onPort
  · split
    · exact hy
    · split
      · exact hy
      · exact hy.onCore

theorem fillSlot_shaped {v y : Sys} {p s : Nat} (hy : Shaped y) : Shaped (fillSlot v y p s) := by
  unfold fillSlot
  refine hy.onPort.branch ?_
  split
  · refine Shaped.branch ?_ ?_
    · split
      · dsimp only
        split
        · exact ((takeSent_shaped hy).onPort).onPort
        · exact hy.onPort
      · dsimp only
        split
        · exact (takeSent_shaped hy).onPort
        · exact hy.onPort
    · split
      · exact hy.onPort.onPort.onPort.branch hy.onPort.onPort
      · exact hy.onPort.onPort
  · split
    · exact (((hy.onPort.onFw.branch hy.onPort).onPort).onPort).branch ((hy.onPort.onFw.branch hy.onPort).onPort)
    · exact hy.onPort

theorem portBeat_shaped {v y : Sys} {p : Nat} (hy : Shaped y) : Shaped (portBeat v y p) := by
  unfold portBeat
  extract_lets _ y1 _ _ _ _ y2 _
  have hy1 : Shaped y1 := hy.onPort
  have hy2 : Shaped y2 := hy1.onPort
  exact hy1.onPort.branch (((hy2.each (fun _ _ => fillSlot_shaped)).branch hy2).branch (hy1.onPort.branch hy1))

theorem halfBeat_shaped {y : Sys} {h : Nat} (hy : Shaped y) : Shaped (halfBeat y h) := by
  unfold halfBeat
  exact hy.onHalf.branch hy.onHalf.onHalf

theorem beatBoundary_shaped {y : Sys} (hy : Shaped y) : Shaped (beatBoundary y) := by
  unfold beatBoundary
  split
  · exact hy
  extract_lets y1 y2 y3 v y4 y5 y6 y7 y8
  have h3 : Shaped y3 := releaseHeld_shaped (coresToBeatEnd_shaped hy).onBeat.onBeat
  clear_value y3
  have h4 : Shaped y4 := h3.onLayers
  have h5 : Shaped y5 := h4.onPower (List.length_map _) rfl
  have h7 : Shaped y7 := sendAccs_shaped (h5.each fun _ _ => portBoundary_shaped)
  exact (h7.each fun _ _ => portBeat_shaped).each fun _ _ => halfBeat_shaped

theorem epochBoundary_shaped {y : Sys} (hy : Shaped y) : Shaped (epochBoundary y) := by
  unfold epochBoundary
  exact hy.branch (hy.onBeat.onBeat.onPort.branch hy.onBeat)

theorem memberAligned_shaped {y : Sys} (hy : Shaped y) : Shaped (memberAligned y) := by
  unfold memberAligned
  exact hy.onBeat.branch hy

theorem markersMissing_shaped {y : Sys} (hy : Shaped y) : Shaped (markersMissing y) := by
  unfold markersMissing
  refine Shaped.branch ?_ hy
  dsimp only
  split
  · exact switchUpstream_shaped hy
  · exact event_shaped hy.onBeat

theorem holdoverExpiry_shaped {y : Sys} (hy : Shaped y) : Shaped (holdoverExpiry y) := by
  unfold holdoverExpiry
  exact (lossOfAlignment_shaped hy).branch hy

theorem phaseErrorExcess_shaped {y : Sys} (hy : Shaped y) : Shaped (phaseErrorExcess y) := by
  unfold phaseErrorExcess
  exact (lossOfAlignment_shaped hy).branch hy

theorem standbyTakeover_shaped {y : Sys} (hy : Shaped y) : Shaped (standbyTakeover y) := by
  unfold standbyTakeover
  exact (event_shaped hy.onBeat).branch hy

theorem kvDeferred_shaped {y : Sys} (hy : Shaped y) : Shaped (kvDeferred y) := by
  unfold kvDeferred
  split
  · exact hy
  · refine hy.branch ?_
    split
    · exact complete_shaped hy
    · exact complete_shaped (releaseSeq_shaped hy)

theorem advanceInc_shaped {y : Sys} {c : Nat} (hy : Shaped y) : Shaped (advanceInc y c) := by
  unfold advanceInc
  exact hy.onMap (by simp)

theorem compareImages_shaped {y : Sys} {cols : List Nat} (hy : Shaped y) : Shaped (compareImages y cols) := by
  unfold compareImages
  exact hy.onSched rfl rfl

theorem migrationSwitch_shaped {y : Sys} (hy : Shaped y) : Shaped (migrationSwitch y) := by
  unfold migrationSwitch
  extract_lets _ y1 y2 y3 y4
  have hy1 : Shaped y1 := hy.onMap (by simp)
  have hy2 : Shaped y2 := advanceInc_shaped hy1
  have hy3 : Shaped y3 := hy2.onCore.onCore
  have hy4 : Shaped y4 := hy3.onBoot rfl rfl
  exact hy.branch (renumberSpares_shaped (compareImages_shaped hy4))

theorem oldSiteIdle_shaped {y : Sys} (hy : Shaped y) : Shaped (oldSiteIdle y) := by
  unfold oldSiteIdle
  exact hy.branch (complete_shaped (event_shaped (renumberSpares_shaped (hy.onMap (by simp)))))

theorem backInvDone_shaped {y : Sys} (hy : Shaped y) : Shaped (backInvDone y) := by
  unfold backInvDone
  exact hy.onSched rfl rfl

theorem admitWrite_shaped {y : Sys} (hy : Shaped y) : Shaped (admitWrite y) := by
  unfold admitWrite
  split
  · exact hy
  · exact (compareImages_shaped (hy.each (fun _ _ => advanceInc_shaped))).onNoc rfl

theorem liftFence_shaped {y : Sys} {c : Nat} (hy : Shaped y) : Shaped (liftFence y c) := by
  unfold liftFence
  exact event_shaped ((hy.onNoc rfl).onCore)

theorem fenceLift_shaped {y : Sys} (hy : Shaped y) : Shaped (fenceLift y) := by
  unfold fenceLift
  split
  · exact hy
  · extract_lets y11 y12 y13 y14
    have hy11 : Shaped y11 := hy.onNoc rfl
    have hy12 : Shaped y12 := hy11.each (fun _ _ => liftFence_shaped)
    have hy13 : Shaped y13 := (complete_shaped hy12).branch hy12
    have hy14 : Shaped y14 := hy13.branch (enterPower_shaped hy13)
    exact (complete_shaped (hy14.onBoot rfl rfl)).branch hy13

theorem applyAdmit_shaped {y : Sys} {r : AdmitRec} (hy : Shaped y) : Shaped (applyAdmit y r) := by
  unfold applyAdmit
  extract_lets _ _ y1 y2
  have hy1 : Shaped y1 := hy.onSpan rfl
  have hy2 : Shaped y2 := hy.onSpan rfl
  exact ((faultStopAll_shaped (hy1.onSpan rfl)).branch hy1).branch (hy.branch ((event_shaped hy).branch (((hy2.onSpan rfl).onBeat).branch
    hy2)))

theorem admitEffect_shaped {y : Sys} (hy : Shaped y) : Shaped (admitEffect y) := by
  unfold admitEffect
  exact (hy.onSpan rfl).each (fun _ _ => applyAdmit_shaped)

theorem mailboxTake_shaped {y : Sys} (hy : Shaped y) : Shaped (mailboxTake y) := by
  unfold mailboxTake
  split
  · exact hy
  · extract_lets y11 _ _ _ _ _ _ _ y12 _ y13
    have hy11 : Shaped y11 := hy.onHost rfl
    have hy12 : Shaped y12 := hy11.onHost rfl
    have hy13 : Shaped y13 := mbxWrite_shaped hy12
    exact hy.branch ((drdRange_shaped hy13).branch hy13)

theorem programFuses_shaped {y : Sys} {man : List Byte} {slot : Bool} (hy : Shaped y) : Shaped (programFuses y man slot) := by
  unfold programFuses
  exact hy.branch (event_shaped hy.onFw)

theorem firmwareRuns_shaped {y : Sys} (hy : Shaped y) : Shaped (firmwareRuns y) := by
  unfold firmwareRuns
  refine Shaped.onHost ?_ rfl
  split
  · exact doneEvent_shaped ((hy.onHost rfl).each (fun _ _ => doneEvent_shaped))
  · exact (hy.onHost rfl).each (fun _ _ => doneEvent_shaped)

theorem fwAccept_shaped {y : Sys} {slot : Bool} (hy : Shaped y) : Shaped (fwAccept y slot) := by
  unfold fwAccept
  extract_lets _ y1 _ y2 y3 y4
  have hy1 : Shaped y1 := programFuses_shaped hy
  have hy2 : Shaped y2 := hy1.onFw
  have hy3 : Shaped y3 := event_shaped hy2
  have hy4 : Shaped y4 := enterPower_shaped (stepDone_shaped hy3)
  exact settleLinks_shaped (firmwareRuns_shaped hy4.onFw)

theorem fwVerdict_shaped {y : Sys} {step : Nat} {r : Except Nat Bool} (hy : Shaped y) : Shaped (fwVerdict y step r) := by
  unfold fwVerdict
  split
  · exact fwRefuse_shaped hy
  · exact fwAccept_shaped hy

theorem fwLoadComplete_shaped {y : Sys} (hy : Shaped y) : Shaped (fwLoadComplete y) := by
  unfold fwLoadComplete
  exact hy.branch ((fwVerdict_shaped hy).branch (fwVerdict_shaped hy))

theorem reportWindowClose_shaped {y : Sys} (hy : Shaped y) : Shaped (reportWindowClose y) := by
  unfold reportWindowClose
  split
  · exact hy
  · exact hy.branch ((sendRound_shaped (event_shaped hy)).branch (complete_shaped ((event_shaped hy).onFw)))

theorem endMarkerTimeout_shaped {y : Sys} (hy : Shaped y) : Shaped (endMarkerTimeout y) := by
  unfold endMarkerTimeout
  exact (reportRound_shaped hy.onFw).branch hy

theorem receiveTimeout_shaped {y : Sys} (hy : Shaped y) : Shaped (receiveTimeout y) := by
  unfold receiveTimeout
  exact (fwRefuse_shaped hy).branch hy

theorem objectCheckDone_shaped {y : Sys} (hy : Shaped y) : Shaped (objectCheckDone y) := by
  unfold objectCheckDone
  refine hy.branch ?_
  dsimp only
  split
  · exact fwRefuse_shaped (ownReport_shaped hy)
  · exact fwAccept_shaped (ownReport_shaped hy)

theorem completeDest_shaped {y : Sys} {group verb dest : Nat} {data : List Byte} (hy : Shaped y) :
    Shaped (completeDest y group verb dest data) := by
  unfold completeDest
  split
  · exact hy
  · exact dwrRange_shaped (hy.onHost rfl)

theorem treeThere_shaped {y : Sys} (hy : Shaped y) : Shaped (treeThere y) := by
  unfold treeThere
  refine hy.branch ?_
  dsimp only
  split
  · exact hy.onFw
  · exact completeDest_shaped (signReport_shaped hy.onFw)

theorem waveRamp_shaped {y : Sys} (hy : Shaped y) : Shaped (waveRamp y) := by
  unfold waveRamp
  exact hy.branch ((hy.each (fun _ _ hz => (fenceCore_shaped hz).branch (railOn_shaped (fenceCore_shaped hz)))).onBoot rfl rfl)

theorem partitionResetEnd_shaped {y : Sys} (hy : Shaped y) : Shaped (partitionResetEnd y) := by
  unfold partitionResetEnd
  extract_lets _ _ y1 _ _ y2 y3
  have hy1 : Shaped y1 := hy.each (fun _ _ => siteReset_shaped)
  have hy2 : Shaped y2 := hy1.onNoc rfl
  have hy3 : Shaped y3 := (setPart_shaped hy2).branch hy2
  exact hy.branch (resetEnds_shaped hy3)

theorem reissue_shaped {y : Sys} {t : Transfer} (hy : Shaped y) : Shaped (reissue y t) := by
  unfold reissue
  split
  · exact hostAccess1_shaped hy
  · exact hy.onNoc rfl

theorem fabricResetEnd_shaped {y : Sys} (hy : Shaped y) : Shaped (fabricResetEnd y) := by
  unfold fabricResetEnd
  extract_lets _ _ y1 y2 y3 y4 y5
  have hy1 : Shaped y1 := hy.onNoc rfl
  have hy2 : Shaped y2 := hy1.onBoot rfl rfl
  have hy3 : Shaped y3 := hy2.onBeat
  have hy4 : Shaped y4 := hy3.onHost rfl
  have hy5 : Shaped y5 := hy4.each (fun _ _ => writeBack_shaped)
  exact hy.branch (resetEnds_shaped (hy5.each (fun _ _ => reissue_shaped)))

theorem bootRomRestart_shaped {m : Module} {y : Sys} (hy : Shaped y) : Shaped (bootRomRestart m y).2 := by
  unfold bootRomRestart
  split
  · exact hy
  extract_lets own old y1 src y2 y3 y4 y5
  have h2 : Shaped y2 := warmDev_shape hy.cols hy.ports
  exact enterPower_shaped (((h2.onBoot rfl rfl).onBoot rfl rfl).onHost (List.length_map _))

theorem grantTimeout_shaped {y : Sys} (hy : Shaped y) : Shaped (grantTimeout y) := by
  unfold grantTimeout
  dsimp only
  split
  · exact hy
  · exact hy.branch (event_shaped (hy.onPower rfl rfl))

theorem envStaleTimeout_shaped {y : Sys} (hy : Shaped y) : Shaped (envStaleTimeout y) := by
  unfold envStaleTimeout
  exact hy.branch (event_shaped (hy.onPower rfl rfl))

end Sys2Proof.Machine
end

section
/-! PROOF. Every command keeps the sizes of the tables (01_architecture.md). -/

-- One proof after another: elaborated in parallel, the text as a whole needs more memory than the check allows.
set_option Elab.async false

namespace Sys2Proof.Machine

theorem execVin54Lockout_next {mv : Nat} {s t : State} (h : execVin54Lockout mv s = .next t) : onAll (vin54Lockout mv) s = .next t := by
  unfold execVin54Lockout at h
  split at h
  · cases h
  · exact h

end Sys2Proof.Machine

namespace Sys2Proof

open Machine

variable {i : Instr} {s t : State}

theorem onSys_shape {f : Sys → Sys} (h : onSys f s = .next t) (hf : Shaped (f s.work)) : Shape t.dev := by
  cases h
  exact hf

theorem onAll_shape {f : Module → Sys → Module × Sys} (h : onAll f s = .next t) (hf : Shaped (f s.mod s.work).2) : Shape t.dev := by
  cases h
  exact hf

theorem onMod_shape {f : Module → Module} (h : onMod f s = .next t) (hs : Shape s.dev) : Shape t.dev := by
  cases h
  exact hs

/-- A command runs one operation of the stack, which keeps the sizes. -/
theorem exec_shape (hs : Shaped s.work) (h : exec i s = .next t) : Shape t.dev := by
  cases i with
  | resetNFall => exact onAll_shape h (resetNFall_shaped hs)
  | vin54Lockout mv =>
    exact onAll_shape (execVin54Lockout_next h) (vin54Lockout_shaped hs)
  | stageStatusCondition => exact onAll_shape h (stageStatusCondition_shaped hs)
  | windowBoundary => exact onSys_shape h (windowBoundary_shaped hs)
  | beatMarker => exact onSys_shape h (beatMarker_shaped hs)
  | beatLoadCtrlWrite => exact onSys_shape h (beatLoadCtrl_shaped hs)
  | beatCountLoRead => dsimp only [exec] at h; exact onSys_shape h (hs.onBeat)
  | holdRequest => exact onSys_shape h (holdRequest_shaped hs)
  | holdConfirmation => exact onSys_shape h (holdConfirmation_shaped hs)
  | holdRelease => exact onSys_shape h (holdRelease_shaped hs)
  | holdPointClose => exact onSys_shape h (holdPointClose_shaped hs)
  | holdPointStart => exact onSys_shape h (holdPointStart_shaped hs)
  | confirmMissing => exact onSys_shape h (confirmMissing_shaped hs)
  | mirror => exact onSys_shape h (mirrorArrive_shaped hs)
  | partitionStart => exact onSys_shape h (partitionStart_shaped hs)
  | imageRunRepeat => exact onSys_shape h (imageRunRepeat_shaped hs)
  | imageFinish => exact onSys_shape h (imageFinish_shaped hs)
  | stepDescriptorFetch => exact onSys_shape h (stepDescriptorFetch_shaped hs)
  | matmul => exact onSys_shape h (issueStep_shaped hs fun _ _ => runMatmul_shaped)
  | attend => exact onSys_shape h (issueAny_shaped hs (fun _ _ hz => issuePrepared_shaped hz (fun _ _ => runAttend_shaped)))
  | lane => exact onSys_shape h (issueStep_shaped hs fun _ _ => startLane_shaped)
  | dmaMove => exact onSys_shape h (issueStep_shaped hs fun _ _ => runMove_shaped)
  | dmaGather => exact onSys_shape h (issueStep_shaped hs fun _ _ => runGather_shaped)
  | dmaScatter => exact onSys_shape h (issueStep_shaped hs fun _ _ => runScatter_shaped)
  | spanSend => exact onSys_shape h (issueStep_shaped hs fun _ _ => armFlow_shaped)
  | spanRecv => exact onSys_shape h (issueStep_shaped hs fun _ _ => armFlow_shaped)
  | reduce => exact onSys_shape h (issueStep_shaped hs fun _ _ => armFlow_shaped)
  | rowop => exact onSys_shape h (issueAny_shaped hs fun _ _ => runRowop_shaped)
  | sketch => exact onSys_shape h (issueAny_shaped hs (fun _ _ hz => issuePrepared_shaped hz (fun _ _ => runSketch_shaped)))
  | wait => exact onSys_shape h (issueStep_shaped hs (fun _ _ hz => hz))
  | hint => exact onSys_shape h (issueStep_shaped hs fun _ _ => runHint_shaped)
  | append => exact onSys_shape h (issueAny_shaped hs (fun _ _ hz => issuePrepared_shaped hz (fun _ _ => runAppend_shaped)))
  | stepEnd => exact onSys_shape h (stepEnd_shaped hs)
  | flowLastBeatExpiry => exact onSys_shape h (flowExpiry_shaped hs)
  | stepComplete => exact onSys_shape h (stepComplete_shaped hs)
  | stepStatusRecord => exact onSys_shape h (stepStatusRecord_shaped hs)
  | faultRecord => exact onSys_shape h (faultRecord_shaped hs)
  | feederLineRequest => exact onSys_shape h (feederLineRequest_shaped hs)
  | bufferBankReadGrant => exact onSys_shape h (bufferBankReadGrant_shaped hs)
  | bufferLineWrite => exact onSys_shape h (bufferLineWrite_shaped hs)
  | bufferWriteBack => exact onSys_shape h (bufferWriteBack_shaped hs)
  | tileDrain => exact onSys_shape h (tileDrain_shaped hs)
  | drainRowEnterStream => exact onSys_shape h (drainRowEnterStream_shaped hs)
  | arrayCheckCompare => exact onSys_shape h (arrayCheckCompare_shaped hs)
  | replayReissue => exact onSys_shape h (replayReissue_shaped hs)
  | replayEnd => exact onSys_shape h (replayEnd_shaped hs)
  | laneHalt => exact onSys_shape h (laneRun_shaped hs fun _ _ => runHalt_shaped)
  | laneLoop => exact onSys_shape h (laneRun_shaped hs fun _ _ => runLoop_shaped)
  | laneSeta => exact onSys_shape h (laneRun_shaped hs fun _ _ => onVec_shaped)
  | laneAdda => exact onSys_shape h (laneRun_shaped hs fun _ _ => onVec_shaped)
  | laneLd => dsimp only [exec] at h; exact onSys_shape h (laneRun_shaped (advanceCore_shaped hs) fun _ _ => runLd_shaped)
  | laneSt => dsimp only [exec] at h; exact onSys_shape h (laneRun_shaped (advanceCore_shaped hs) fun _ _ => runSt_shaped)
  | laneIn => exact onSys_shape h (laneInCmd_shaped hs)
  | laneSplat => exact onSys_shape h (laneRun_shaped hs fun _ _ => onVec_shaped)
  | laneAdd => exact onSys_shape h (laneRun_shaped hs fun _ _ => lane2_shaped)
  | laneSub => exact onSys_shape h (laneRun_shaped hs fun _ _ => lane2_shaped)
  | laneMul => exact onSys_shape h (laneRun_shaped hs fun _ _ => lane2_shaped)
  | laneFma => exact onSys_shape h (laneRun_shaped hs fun _ _ => lane3_shaped)
  | laneMax => exact onSys_shape h (laneRun_shaped hs fun _ _ => lane2_shaped)
  | laneMin => exact onSys_shape h (laneRun_shaped hs fun _ _ => lane2_shaped)
  | laneAbs => exact onSys_shape h (laneRun_shaped hs fun _ _ => lane1_shaped)
  | laneNeg => exact onSys_shape h (laneRun_shaped hs fun _ _ => lane1_shaped)
  | laneScale => exact onSys_shape h (laneRun_shaped hs fun _ _ => lane1_shaped)
  | laneCmpgt => exact onSys_shape h (laneRun_shaped hs fun _ _ => lane2_shaped)
  | laneSel => exact onSys_shape h (laneRun_shaped hs fun _ _ => lane3_shaped)
  | laneExp2 => exact onSys_shape h (laneRun_shaped hs fun _ _ => lane1_shaped)
  | laneLog2 => exact onSys_shape h (laneRun_shaped hs fun _ _ => lane1_shaped)
  | laneRcp => exact onSys_shape h (laneRun_shaped hs fun _ _ => lane1_shaped)
  | laneRsq => exact onSys_shape h (laneRun_shaped hs fun _ _ => lane1_shaped)
  | laneRsum => exact onSys_shape h (laneRun_shaped hs fun _ _ => laneArith_shaped)
  | laneRmax => exact onSys_shape h (laneRun_shaped hs fun _ _ => laneArith_shaped)
  | rowAnd => exact onSys_shape h (rowCommand_shaped hs)
  | rowOr => exact onSys_shape h (rowCommand_shaped hs)
  | rowXor => exact onSys_shape h (rowCommand_shaped hs)
  | rowXnor => exact onSys_shape h (rowCommand_shaped hs)
  | rowNot => exact onSys_shape h (rowCommand_shaped hs)
  | rowMaj3 => exact onSys_shape h (rowCommand_shaped hs)
  | rowCopy => exact onSys_shape h (rowCommand_shaped hs)
  | rowZero => exact onSys_shape h (rowCommand_shaped hs)
  | rowOnes => exact onSys_shape h (rowCommand_shaped hs)
  | rowNand => exact onSys_shape h (rowCommand_shaped hs)
  | rowNor => exact onSys_shape h (rowCommand_shaped hs)
  | rowAndn => exact onSys_shape h (rowCommand_shaped hs)
  | rowOrn => exact onSys_shape h (rowCommand_shaped hs)
  | rowAnd3 => exact onSys_shape h (rowCommand_shaped hs)
  | rowOr3 => exact onSys_shape h (rowCommand_shaped hs)
  | rowXor3 => exact onSys_shape h (rowCommand_shaped hs)
  | rowMux => exact onSys_shape h (rowCommand_shaped hs)
  | rowFullAdd => exact onSys_shape h (rowCommand_shaped hs)
  | rowOpThrottleRelease => exact onSys_shape h (throttleRelease_shaped hs)
  | bankBusTransferDone => exact onSys_shape h (busDone_shaped hs)
  | bankRequestArrive => exact onSys_shape h (bankRequest_shaped hs)
  | bankRequestAfterRowOp => exact onSys_shape h (requestAfter_shaped hs)
  | bankRefresh => exact onSys_shape h (bankRefresh_shaped hs)
  | granuleEncodeDone => exact onSys_shape h (encodeDone_shaped hs)
  | patrolRowDue => exact onSys_shape h (patrolDue_shaped hs)
  | patrolRowPresent => exact onSys_shape h (patrolPresent_shaped hs)
  | idleScrubRead => exact onSys_shape h (idleScrub_shaped hs)
  | bufferLapAlarm => exact onSys_shape h (lapAlarm_shaped hs)
  | preparationBegin => exact onSys_shape h (preparationBegin_shaped hs)
  | preparationDone => exact onSys_shape h (preparationDone_shaped hs)
  | pageDescriptor => exact onSys_shape h (pageDescriptor_shaped hs)
  | attendPageWindow => exact onSys_shape h (attendWindow_shaped hs)
  | migrationBlockCopy => exact onSys_shape h (blockCopy_shaped hs)
  | meshRead => exact onSys_shape h (packetAt_shaped hs fun _ => serveRead_shaped)
  | meshWrite => exact onSys_shape h (packetAt_shaped hs (fun _ hz => payloadChecked_shaped hz (fun _ => serveWrite_shaped)))
  | meshReadData => exact onSys_shape h (packetAt_shaped hs fun _ => serveReadData_shaped)
  | meshWriteAck => exact onSys_shape h (packetAt_shaped hs fun _ => serveWriteAck_shaped)
  | meshSpanIn => exact onSys_shape h (packetAt_shaped hs (fun _ hz => payloadChecked_shaped hz (fun _ => serveSpanIn_shaped)))
  | meshSpanOut => exact onSys_shape h (packetAt_shaped hs (fun _ hz => payloadChecked_shaped hz (fun _ => serveSpanOut_shaped)))
  | meshError => exact onSys_shape h (packetAt_shaped hs fun _ => serveError_shaped)
  | meshRequestTimeout => exact onSys_shape h (meshTimeout_shaped hs)
  | vcLineRetransfer => exact onSys_shape h (vcRetransfer_shaped hs)
  | fenceOrder => exact onSys_shape h (fenceOrder_shaped hs)
  | shuttleCtrlTimeout => exact onSys_shape h (shuttleCtrlTimeout_shaped hs)
  | dataFlit => exact onSys_shape h (dataFlit_shaped hs)
  | spanFlitRead => exact onSys_shape h (spanFlitRead_shaped hs)
  | mgmtFlit => exact onSys_shape h (mgmtFlit_shaped hs)
  | holdIdleFlit => exact onSys_shape h (holdIdleFlit_shaped hs)
  | linkHello => exact onSys_shape h (linkHello_shaped hs)
  | laneState => exact onSys_shape h (laneState_shaped hs)
  | admitRecord => exact onSys_shape h (admitRecord_shaped hs)
  | firmwareReport => dsimp only [exec] at h; exact onSys_shape h (passReport_shaped (wakePort_shaped hs))
  | spanPortRetrain => exact onSys_shape h (placeWrite_shaped hs)
  | spanPortUseClear => exact onSys_shape h (placeWrite_shaped hs)
  | trainingLock => exact onSys_shape h (trainingLock_shaped hs)
  | trainingTimeout => exact onSys_shape h (trainingTimeout_shaped hs)
  | qualificationEnd => exact onSys_shape h (qualificationEnd_shaped hs)
  | laneFailure => exact onSys_shape h (laneFailure_shaped hs)
  | laneSwitch => exact onSys_shape h (laneSwitch_shaped hs)
  | codewordLockLoss => exact onSys_shape h (codewordLockLoss_shaped hs)
  | holdIdleTimeout => exact onSys_shape h (holdIdleTimeout_shaped hs)
  | spanSelfWrite => exact onSys_shape h (spanSelfWrite_shaped hs)
  | halfTrained => exact onSys_shape h (halfTrained_shaped hs)
  | hostFlit => exact onSys_shape h (hostFlit_shaped hs)
  | hostFlitResend => exact onSys_shape h (hostFlitResend_shaped hs)
  | halfNoProgress => dsimp only [exec] at h; exact onSys_shape h (halfDown_shaped hs)
  | rdShared => exact onSys_shape h (rdShared_shaped hs)
  | rdOwn => exact onSys_shape h (rdOwn_shaped hs)
  | rdUc => exact onSys_shape h (rdUc_shaped hs)
  | wrUc => exact onSys_shape h (wrUc_shaped hs)
  | wbDirty => exact onSys_shape h (wbDirty_shaped hs)
  | evictClean => exact onSys_shape h (evictClean_shaped hs)
  | snpRsp => exact onSys_shape h (snpRsp_shaped hs)
  | hdata => exact onSys_shape h (hostData_shaped hs)
  | hack => exact onSys_shape h (hostAck_shaped hs)
  | herr => exact onSys_shape h (hostErr_shaped hs)
  | halfState => dsimp only [exec] at h; exact onSys_shape h (hs.each (fun _ _ hz => hz.branch (halfDown_shaped hz)))
  | homeTransactionResume => dsimp only [exec] at h; exact onSys_shape h (homeResume_shaped hs)
  | snoopTimeout => exact onSys_shape h (snoopTimeout_shaped hs)
  | commandDone => exact onSys_shape h (commandDone_shaped hs)
  | commandUnknown => exact onSys_shape h (commandUnknown_shaped hs)
  | hlEvtConsumerWrite => exact onSys_shape h (whenOn_shaped hs fun _ => evtConsumerWrite_shaped)
  | hlStsConsumerWrite => exact onSys_shape h (whenOn_shaped hs fun _ => stsConsumerWrite_shaped)
  | bootInfo => exact onSys_shape h (bootInfo_shaped hs)
  | bootResourceMap => exact onSys_shape h (bootResourceMap_shaped hs)
  | bootDefects => exact onSys_shape h (bootDefects_shaped hs)
  | bootCores => exact onSys_shape h (bootCores_shaped hs)
  | bootResetColumn => exact onSys_shape h (resetColumn_shaped hs)
  | bootResetCluster => exact onSys_shape h (resetCluster_shaped hs)
  | bootResetPartition => exact onSys_shape h (resetPartition_shaped hs)
  | bootResetFabric => exact onSys_shape h (resetFabric_shaped hs)
  | bootResetDevice => exact onSys_shape h (resetDevice_shaped hs)
  | cfgWrite => exact onSys_shape h (cfgWrite_shaped hs)
  | cfgRead => exact onSys_shape h (cfgRead_shaped hs)
  | cfgSwap => exact onSys_shape h (swapCommand_shaped hs)
  | cfgSwapImmediate => exact onSys_shape h (swapCommand_shaped hs)
  | cfgSwapCancel => exact onSys_shape h (swapCancel_shaped hs)
  | schedLoad => exact onSys_shape h (schedLoad_shaped hs)
  | schedUnload => exact onSys_shape h (schedUnload_shaped hs)
  | schedStart => exact onSys_shape h (schedStart_shaped hs)
  | schedStop => exact onSys_shape h (disableCommand_shaped hs fun _ _ => cutStart_shaped)
  | schedDrain => exact onSys_shape h (disableCommand_shaped hs fun _ _ => drainStart_shaped)
  | memCopy => exact onSys_shape h (memCopy_shaped hs)
  | memFill => exact onSys_shape h (memFill_shaped hs)
  | memMigrate => exact onSys_shape h (memMigrate_shaped hs)
  | kvWrite => exact onSys_shape h (kvWrite_shaped hs)
  | kvBind => exact onSys_shape h (kvBind_shaped hs)
  | kvRelease => exact onSys_shape h (kvRelease_shaped hs)
  | kvFree => exact onSys_shape h (kvFree_shaped hs)
  | kvStatus => exact onSys_shape h (kvStatus_shaped hs)
  | pwrGrant => exact onSys_shape h (pwrGrant_shaped hs)
  | pwrEnv => exact onSys_shape h (pwrEnv_shaped hs)
  | pwrHint => exact onSys_shape h (pwrHint_shaped hs)
  | pwrCoolantStay => exact onSys_shape h (pwrCoolant_shaped hs fun _ => id)
  | pwrCoolantResume => exact onSys_shape h (pwrCoolant_shaped hs fun _ => coolantOver_shaped)
  | pwrCoolantStop => exact onSys_shape h (pwrCoolant_shaped hs fun _ => coolantStop_shaped)
  | faultRing => exact onSys_shape h (faultRing_shaped hs)
  | faultFence => exact onSys_shape h (faultFence_shaped hs)
  | faultAdmit => exact onSys_shape h (faultAdmit_shaped hs)
  | fwSend => exact onSys_shape h (fwSend_shaped hs)
  | fwStatus => exact onSys_shape h (fwStatus_shaped hs)
  | fwIdentity => exact onSys_shape h (fwIdentity_shaped hs)
  | fwAttest => exact onSys_shape h (fwAttest_shaped hs)
  | spanPlace => exact onSys_shape h (spanPlace_shaped hs)
  | spanRole => exact onSys_shape h (spanRole_shaped hs)
  | spanBeatLoad => exact onSys_shape h (spanBeatLoad_shaped hs)
  | spanAdmit => exact onSys_shape h (spanAdmit_shaped hs)
  | spanDismiss => exact onSys_shape h (spanDismiss_shaped hs)
  | spanHold => exact onSys_shape h (spanHold_shaped hs)
  | spanRelease => exact onSys_shape h (spanRelease_shaped hs)
  | spanLedger => exact onSys_shape h (spanLedger_shaped hs)
  | spanRoutes => exact onSys_shape h (spanRoutes_shaped hs)
  | selftestComplete => exact onSys_shape h (selftestComplete_shaped hs)
  | dramInitComplete => exact onSys_shape h (dramInitComplete_shaped hs)
  | memoryFillComplete => exact onSys_shape h (fillComplete_shaped hs)
  | checkerComplete => exact onSys_shape h (checkerComplete_shaped hs)
  | fwPiece => exact onSys_shape h (fwPiece_shaped hs)
  | endMarker => exact onSys_shape h (endMarker_shaped hs)
  | coreWaveTestDone => exact onSys_shape h (waveTestDone_shaped hs)
  | columnSegmentPiece => exact onSys_shape h (segmentPiece_shaped hs)
  | columnSegmentDeliveryEnd => exact onSys_shape h (deliveryEnd_shaped hs)
  | columnResetEnd => exact onSys_shape h (sitesResetEnd_shaped hs)
  | clusterResetEnd => exact onSys_shape h (sitesResetEnd_shaped hs)
  | disableComplete => exact onSys_shape h (disableComplete_shaped hs)
  | bubbleLoopPeriod => exact onSys_shape h (bubbleLoop_shaped hs)
  | droopTrip => exact onSys_shape h (droopTrip_shaped hs)
  | heavyPhaseStart => exact onSys_shape h (heavyStart_shaped hs)
  | heavyPhaseEnd => exact onSys_shape h (heavyEnd_shaped hs)
  | thermalTrip => exact onAll_shape h (thermalTrip_shaped hs)
  | memMapCtrlWrite => exact onSys_shape h (whenOn_shaped hs fun _ => mapCtrlWrite_shaped)
  | dpInjCtrlWrite => exact onSys_shape h (whenOn_shaped hs fun _ => injCtrlWrite_shaped)
  | seqCountsWrite => exact onSys_shape h (whenOn_shaped hs fun _ => seqCountsWrite_shaped)
  | arrayCountCtrlClear => exact onSys_shape h (whenOn_shaped hs fun _ => arrayClear_shaped)
  | rlCountCtrlClear => exact onSys_shape h (whenOn_shaped hs fun _ => rowClear_shaped)
  | nocCountCtrlClear => exact onSys_shape h (whenOn_shaped hs fun _ => nocClear_shaped)
  | spanCountCtrlClear => exact onSys_shape h (whenOn_shaped hs fun _ => spanClear_shaped)
  | pwrCountCtrlClear => exact onSys_shape h (whenOn_shaped hs fun _ => powerClear_shaped)
  | seCountCtrlClear => exact onSys_shape h (whenOn_shaped hs fun _ => faultsClear_shaped)
  | registerWrite => exact onSys_shape h (registerWrite_shaped hs)
  | halfLaneFailure => dsimp only [exec] at h; exact onSys_shape h (halfDown_shaped hs)
  | pwrEnFall => exact onAll_shape h (pwrEnFall_shaped hs)
  | baseOnReached => exact onAll_shape h (baseOnReached_shaped hs)
  | spanRefclkLoss => exact onAll_shape h (spanRefclkLoss_shaped hs)
  | beatBoundary => exact onSys_shape h (beatBoundary_shaped hs)
  | epochBoundary => exact onSys_shape h (epochBoundary_shaped hs)
  | memberAligned => exact onSys_shape h (memberAligned_shaped hs)
  | markersMissing => exact onSys_shape h (markersMissing_shaped hs)
  | holdoverExpiry => exact onSys_shape h (holdoverExpiry_shaped hs)
  | phaseErrorExcess => exact onSys_shape h (phaseErrorExcess_shaped hs)
  | beatLoadEffect => dsimp only [exec] at h; exact onSys_shape h (hs.onBeat)
  | standbyMarkersMissing => dsimp only [exec] at h; exact onSys_shape h (hs.onBeat)
  | standbyTakeover => exact onSys_shape h (standbyTakeover_shaped hs)
  | configurationSwap => exact onSys_shape h (configurationSwap_shaped hs)
  | kvDeferredCommand => exact onSys_shape h (kvDeferred_shaped hs)
  | migrationSwitch => exact onSys_shape h (migrationSwitch_shaped hs)
  | migrationOldSiteIdle => exact onSys_shape h (oldSiteIdle_shaped hs)
  | backInvalidationDone => exact onSys_shape h (backInvDone_shaped hs)
  | admitIncarnationWrite => exact onSys_shape h (admitWrite_shaped hs)
  | fenceLift => exact onSys_shape h (fenceLift_shaped hs)
  | admitEffect => exact onSys_shape h (admitEffect_shaped hs)
  | mailboxTake => exact onSys_shape h (mailboxTake_shaped hs)
  | eventRingFlush => exact onSys_shape h (flushOne_shaped hs)
  | selftest => exact onSys_shape h (bootGo_shaped hs fun _ => startSelftest_shaped)
  | dramInit => exact onSys_shape h (bootGo_shaped hs fun _ => id)
  | fill => exact onSys_shape h (bootGo_shaped hs fun _ => id)
  | checker => exact onSys_shape h (bootGo_shaped hs fun _ => id)
  | fwLoad => exact onSys_shape h (bootGo_shaped hs fun _ => startFwLoad_shaped)
  | fwLoadComplete => exact onSys_shape h (fwLoadComplete_shaped hs)
  | fwReceive => exact onSys_shape h (bootGo_shaped hs fun _ => startReceive_shaped)
  | fwReportWindowClose => exact onSys_shape h (reportWindowClose_shaped hs)
  | fwEndMarkerTimeout => exact onSys_shape h (endMarkerTimeout_shaped hs)
  | fwReceiveTimeout => exact onSys_shape h (receiveTimeout_shaped hs)
  | fwObjectCheckDone => exact onSys_shape h (objectCheckDone_shaped hs)
  | lowerTreeComputed => exact onSys_shape h (treeThere_shaped hs)
  | coreWaveRamp => exact onSys_shape h (waveRamp_shaped hs)
  | partitionResetEnd => exact onSys_shape h (partitionResetEnd_shaped hs)
  | fabricResetEnd => exact onSys_shape h (fabricResetEnd_shaped hs)
  | bootRomRestart => exact onAll_shape h (bootRomRestart_shaped hs)
  | grantTimeout => exact onSys_shape h (grantTimeout_shaped hs)
  | envStaleTimeout => exact onSys_shape h (envStaleTimeout_shaped hs)
  | pwrEnRise | pmbusTelemetryUpdate | pmbusInvalidCommand | railsInRegulation | resetNRise | vin54Start | clearFaults | capability
  | voutMode | statusByte | statusWord | statusVout | statusIout | statusInput | statusTemperature | statusCml | readVin | readIin
  | readVout | readIout | readTemperature1 | readPout | readPin | pmbusRevision | mfrId | mfrModel | mfrSerial | baseDieResetRelease
  | pwrEnDeferredStart | vin54OvervoltageRestart => dsimp only [exec] at h; exact onMod_shape h hs

/-- Settles O57: the front command keeps the sizes by `exec_shape`. -/
theorem stepKeepsShape : Obligations.StepKeepsShape := by
  rintro ⟨mod, dev, mem, pending⟩ t hs hstep
  cases pending with
  | nil =>
    cases hstep
    exact hs
  | cons c rest => exact exec_shape (s := ⟨mod, dev, mem, rest⟩) hs hstep

end Sys2Proof
end

section
/-! PROOF. Pins, the 54 V stage and the starts of the device (R36 to R42, R397 to R405, R501, R507). -/

-- One proof after another: elaborated in parallel, the text as a whole needs more memory than the check allows.
set_option Elab.async false

namespace Sys2Proof.Machine

/- The rails fall. -/

/-- What the loss of every rail leaves: the stage off, the stack off, no byte in any memory (R38, R501). -/
theorem powerLost_mem_get (m : Module) (s : State) {k : Nat} (hk : k < 2 ^ 46) :
    (s.mem.applyLog (powerLost m s.work).2.log).get k = 0 := by
  rw [powerLost, Sys.zero, work_log, Store.applyLog, Store.applyLog, Store.change, Store.get_zero, Nat.zero_add, if_pos ⟨k.zero_le, hk⟩]

theorem vin54Lockout_eq_stageStop {mv : Nat} (m : Module) (y : Sys) (h : mv < 42500 ∨ 59500 < mv) :
    ∃ n : Module, n.vinOk = false ∧ vin54Lockout mv m y = stageStop n y := by
  by_cases hlow : mv < 42500
  · exact ⟨_, rfl, if_pos hlow⟩
  · have hhigh : 59500 < mv := h.resolve_left hlow
    refine ⟨{ stageCond m .vinOvFault true with vinOk := false, ovStop := true, pmbusResp := [] }, rfl, ?_⟩
    rw [vin54Lockout, if_neg hlow, if_pos hhigh]

/- RESET_N falls. -/

theorem resetNFall_eq_baseDieReset {ns : Nat} {m : Module} (y : Sys) (hreset : m.resetN = true) (hpwr : m.pwrEn = true)
    (hgood : m.pwrgood = true) (hns : 10000 ≤ ns) : resetNFall ns m y = baseDieReset { m with resetN := false } y := by
  simp [resetNFall, hreset, hpwr, hgood, Nat.not_lt.mpr hns]

theorem baseDieReset_of_on (m : Module) {y : Sys} (hon : y.dev.boot.power ≠ .off) :
    baseDieReset m y = ({ m with fusesRead := false }, { loseVolatile y with dev := warmDev (enterSelfRefresh m y.dev) }) := if_neg hon

/-- A reset of the base die loses the keys from 2^40 to 2^45 and keeps every other one (R405). -/
theorem loseVolatile_mem_get (s : State) (k : Nat) :
    (s.mem.applyLog (loseVolatile s.work).log).get k = if 2 ^ 40 ≤ k ∧ k < 2 ^ 45 then 0 else s.mem.get k := by
  rw [loseVolatile, Sys.zero, work_log, Store.applyLog, Store.applyLog, Store.change, Store.get_zero,
    Nat.add_sub_cancel' (Nat.pow_le_pow_right (by decide) (by decide))]

/- BASE_ON and the loss of the reference clock. -/

theorem enterPower_power (y : Sys) (p : PowerState) : (enterPower y p).dev.boot.power = p := by
  unfold enterPower
  split
  case isTrue h => exact h
  case isFalse => exact congrArg Boot.power (event_keeps (fun z => z.dev.boot) _ (fun _ _ => rfl) _ _)

/-- The halves of the host link stand apart from the rings, which a record enters. -/
@[simp] theorem ringPush_halves (y : Sys) (b : List Byte) (k : Bool) :
    (ringPush y b k).dev.host.halves = y.dev.host.halves := by
  simp only [ringPush, Sys.onHost_host]
  split
  · rfl
  · split <;> rfl

@[simp] theorem event_halves (y : Sys) (code : Nat) (data : List Byte) : (event y code data).dev.host.halves = y.dev.host.halves := by
  simp [event]

theorem enterPower_halves (y : Sys) (p : PowerState) : (enterPower y p).dev.host.halves = y.dev.host.halves := by
  unfold enterPower
  split
  · rfl
  · exact event_halves _ _ _

theorem enterPower_log (y : Sys) (p : PowerState) : (enterPower y p).log = y.log :=
  enterPower_keeps Sys.log y (fun _ _ => rfl) (fun _ _ => rfl) p

theorem lossOfAlignment_log (y : Sys) (cause : Nat) : (lossOfAlignment y cause).log = y.log :=
  lossOfAlignment_keeps Sys.log y (fun _ _ => rfl) (fun _ _ => rfl) (fun _ _ => rfl) (fun _ _ => rfl) (fun _ _ _ => rfl)
    (fun _ _ => rfl) (fun _ _ => rfl) (fun _ _ => rfl) (fun _ _ => rfl) cause

theorem spanRefclkLoss_of_on (m : Module) {y : Sys} (hon : y.dev.boot.power ≠ .off) :
    spanRefclkLoss m y = ({ m with refclk := false }, (lossOfAlignment y 2).onBeat fun b => { b with clockStopped := true }) :=
  if_neg hon

theorem stageStatusCondition_of_other {m : Module} {y : Sys} {c : StageCond} (hvin : m.vinOk = true) (hot : c ≠ .otFault)
    (huv : c = .voutUvFault → m.pwrEn = true) : stageStatusCondition c true m y = (stageCond m c true, y) := by
  have hen : ¬(c = .voutUvFault ∧ m.pwrEn = false) := fun h => by simp [huv h.1] at h
  simp [stageStatusCondition, hvin, hen, hot]

/-- The beat unit without its hold points and its ledger, which a hold request enters. -/
def clockOf (b : Beat) : Beat := { b with points := [], recent := [], ledger := [], reqSeq := 0, holdsIssued := 0 }

theorem addRequest_clock (b : Beat) (w : Nat) (r : HoldReq) : clockOf (addRequest b w r) = clockOf b := by
  unfold addRequest
  split <;> rfl

theorem reclose_clock (b : Beat) (w : Nat) : clockOf (reclose b w) = clockOf b := by
  unfold reclose
  dsimp only
  split <;> rfl

theorem requestHold_clock (y : Sys) (cause len : Nat) : clockOf (requestHold y cause len).dev.beat = clockOf y.dev.beat := by
  simp only [requestHold]
  split
  · rfl
  · refine (congrArg clockOf (floodRec_keeps (fun z => z.dev.beat) _ (fun _ _ => rfl) _ _)).trans ?_
    exact (reclose_clock _ _).trans (addRequest_clock _ _ _)

theorem faultStopAll_beat (y : Sys) : (faultStopAll y).dev.beat = y.dev.beat :=
  faultStopAll_keeps (fun z => z.dev.beat) y (fun _ _ => rfl) (fun _ _ => rfl) (fun _ _ => rfl) (fun _ _ => rfl) (fun _ _ _ => rfl)
    (fun _ _ => rfl) (fun _ _ => rfl)

theorem lossOfAlignment_clock (y : Sys) (cause : Nat) : clockOf (lossOfAlignment y cause).dev.beat = clockOf { y.dev.beat with
    aligned := false, alignLost := true, lossNow := true, holdover := false, matched := 0, phaseBad := 0 } := by
  unfold lossOfAlignment
  refine (Sys.when_keeps (fun z => clockOf z.dev.beat) _ _ _ ?_).trans ?_
  · exact requestHold_clock _ _ _
  · rw [← faultStopAll_beat y]
    exact congrArg clockOf (event_keeps (fun z => z.dev.beat) _ (fun _ _ => rfl) _ _)

end Sys2Proof.Machine

namespace Sys2Proof

open Machine

/-- A command on the pins, by what its function of the pins is worth. -/
theorem next_of_onMod {o : Host.Outcome State Fault Refusal} {s : State} {f : Module → Module} {m : Module} (h : o = onMod f s)
    (hf : f s.mod = m) : o = .next { s with mod := m } := by
  rw [h, onMod, hf]

/-- A command whose function leaves the stack and the memories alone. -/
theorem exec_eq_of_onAll {i : Instr} {s : State} {f : Module → Sys → Module × Sys} {m : Module} (h : exec i s = onAll f s)
    (hf : f s.mod s.work = (m, s.work)) : exec i s = .next { s with mod := m } := by
  rw [h, onAll, ← State.work, hf]
  rfl

/-- A command that stops the stage leaves every memory empty and the stack off. -/
theorem completes_powerLost {i : Instr} {s : State} {m : Module} {P : State → Prop} {f : Module → Sys → Module × Sys}
    (h : exec i s = onAll f s) (hf : f s.mod s.work = powerLost m s.work)
    (hp : ∀ t : State, t.mod = { m with stageOn := false, pwrgood := false, fusesRead := false } → t.pending = s.pending →
      t.dev.boot.power = .off → t.dev.boot.warmOk = false → (∀ k, k < 2 ^ 46 → t.mem.get k = 0) → P t) : Completes i s P := by
  refine completes_onAll h ?_
  rw [hf]
  exact hp _ rfl rfl rfl rfl fun k hk => powerLost_mem_get m s hk

/-- Settles O1: each of the three is `powerLost`, of which `powerLost_mem_get` gives the memories. -/
theorem railsFall : Obligations.RailsFall := by
  intro s i hi
  rcases hi with rfl | ⟨mv, rfl, hmv⟩ | ⟨rfl, hvin⟩
  · refine completes_powerLost (f := pwrEnFall) rfl (by rw [pwrEnFall]) fun t hmod hq hoff hwarm hmem => ?_
    rw [hmod]
    exact ⟨rfl, rfl, hoff, hwarm, hmem, hq, fun _ => ⟨rfl, rfl, rfl⟩, fun _ h => (by cases h)⟩
  · have hrange : mv < 42500 ∨ 59500 < mv := hmv.imp_right And.left
    obtain ⟨n, hn, hstop⟩ := vin54Lockout_eq_stageStop s.mod s.work hrange
    have hexec : exec (.vin54Lockout mv) s = onAll (vin54Lockout mv) s := if_neg (by omega)
    have htrip : n.tripLatched = (s.mod.tripLatched && decide (42500 ≤ mv)) := by
      rw [← vin54Lockout_tripLatched mv s.mod s.work, hstop]
      rfl
    refine completes_powerLost hexec hstop fun t hmod hq hoff hwarm hmem => ?_
    rw [hmod]
    refine ⟨rfl, rfl, hoff, hwarm, hmem, hq, fun h => (by cases h), fun mv' h => ?_⟩
    cases h
    exact ⟨hn, htrip⟩
  · have hstop : stageStatusCondition .otFault true s.mod s.work = powerLost (stageCond s.mod .otFault true) s.work := by
      simp [stageStatusCondition, hvin, stageStop]
    refine completes_powerLost (f := stageStatusCondition .otFault true) rfl hstop fun t hmod hq hoff hwarm hmem => ?_
    rw [hmod]
    exact ⟨rfl, rfl, hoff, hwarm, hmem, hq, fun h => (by cases h), fun _ h => (by cases h)⟩

/-- Settles O2: the reset is `warmDev` on the memories of `loseVolatile_mem_get`. -/
theorem resetKeepsDram : Obligations.ResetKeepsDram := by
  intro s ns hreset hpwr hgood hns hon
  refine completes_onAll (f := resetNFall ns) rfl ?_
  rw [resetNFall_eq_baseDieReset s.work hreset hpwr hgood hns, baseDieReset_of_on _ hon]
  refine ⟨rfl, rfl, rfl, rfl, rfl, rfl, rfl, rfl, rfl, fun k hk => ?_, fun k hlo hhi => ?_⟩
  · exact (loseVolatile_mem_get s k).trans (if_neg (by omega))
  · exact (loseVolatile_mem_get s k).trans (if_pos ⟨hlo, hhi⟩)

/-- The pins and the stage when power comes: each command is its function of the pins, on the branch that its premises pick. -/
theorem powerUpPins : PowerUpPinsClause := by
  intro s
  refine ⟨fun ms hen hms => ?_, fun ms hen hms => ?_, fun hdef hen => ?_, fun hon => ?_, fun hen hgood hreset hclk => ?_,
    fun hen hgood hreset => ?_, fun hvin hov => ?_, fun hov => ?_⟩
  · exact next_of_onMod rfl (by simp [pwrEnRise, hen, Nat.not_lt.mpr hms])
  · exact next_of_onMod rfl (by simp [pwrEnRise, hen, hms])
  · exact next_of_onMod rfl (by simp [pwrEnDeferredStart, hdef, hen])
  · exact next_of_onMod rfl (by simp [railsInRegulation, hon])
  · exact next_of_onMod rfl (by simp [baseDieResetRelease, bootStart, hen, hgood, hreset, hclk])
  · exact next_of_onMod rfl (by simp [resetNRise, bootStart, hen, hgood, hreset])
  · exact next_of_onMod rfl (by simp [vin54Start, stageRun, stageCond, hvin, hov])
  · exact next_of_onMod rfl (by simp [vin54OvervoltageRestart, stageRun, stageCond, hov])

theorem baseOnAndClockLoss : BaseOnAndClockLossClause := by
  intro s
  refine ⟨fun hfuses hen hgood hreset hoff => ?_, fun hon => ?_⟩
  · refine completes_onAll (f := baseOnReached) rfl ?_
    rw [baseOnReached, if_pos (by simp [hfuses, hen, hgood, hreset, hoff])]
    refine ⟨rfl, ?_, rfl, enterPower_power _ _, enterPower_halves _ _⟩
    rw [enterPower_log]
    rfl
  · refine completes_onAll (f := spanRefclkLoss) rfl ?_
    rw [spanRefclkLoss_of_on s.mod (y := s.work) hon]
    have hb := lossOfAlignment_clock s.work 2
    refine ⟨rfl, ?_, rfl, ?_, ?_, rfl⟩
    · rw [Sys.onBeat_log, lossOfAlignment_log]
      rfl
    · exact congrArg Beat.aligned hb
    · exact congrArg Beat.alignLost hb

theorem pmbusAnswer_of_vin {m : Module} (hvin : m.vinOk = true) (r : List Byte) : pmbusAnswer m r = { m with pmbusResp := r } := by
  rw [pmbusAnswer, if_pos hvin]

theorem pmbusReadsAnswer : PmbusReadsAnswerClause := by
  intro s hvin p hp
  simp only [pmbusReads, List.mem_cons, List.not_mem_nil, or_false] at hp
  rcases hp with rfl | rfl | rfl | rfl | rfl | rfl | rfl | rfl | rfl | rfl | rfl | rfl | rfl | rfl | rfl | rfl | rfl | rfl | rfl | rfl
  all_goals
    dsimp only [exec]
    refine next_of_onMod rfl ?_
    exact pmbusAnswer_of_vin hvin _

/-- The STATUS bit of a condition is set in the register that holds it. -/
theorem setStage_bit (m : Module) (c : StageCond) :
    (nth [(setStage m c).statVout, (setStage m c).statIout, (setStage m c).statInput, (setStage m c).statTemp]
      (stageBit c).1 0).getLsbD (stageBit c).2 = true := by
  cases c <;> simp [setStage, stageBit, nth]

theorem setStage_liveConds (m : Module) (c : StageCond) : (setStage m c).liveConds = m.liveConds := by
  cases c <;> rfl

theorem stageCond_mem (m : Module) (c : StageCond) : c ∈ (stageCond m c true).liveConds := by
  rw [stageCond, if_pos rfl, setStage_liveConds]
  split
  case isTrue h => exact List.contains_iff_mem.mp h
  case isFalse => simp

theorem stageStatus : StageStatusClause := by
  intro s hvin
  refine ⟨fun c hot huv => ?_, fun c => ?_, fun hnone => ?_, fun vin iin vout iout temp pout pin => ?_, fun code => ?_⟩
  · refine completes_onAll (f := stageStatusCondition c true) rfl ?_
    rw [stageStatusCondition_of_other hvin hot huv]
    exact ⟨rfl, stageCond_mem _ _, setStage_bit _ _⟩
  · refine (exec_eq_of_onAll (f := stageStatusCondition c false) rfl ?_)
    simp [stageStatusCondition, hvin, stageCond]
  · exact next_of_onMod (f := fun m => if m.vinOk then clearFaults { m with pmbusResp := [] } else m) rfl (by simp [hvin, clearFaults, hnone])
  · exact next_of_onMod (f := pmbusTelemetryUpdate vin iin vout iout temp pout pin) rfl (by simp [pmbusTelemetryUpdate, hvin])
  · exact next_of_onMod (f := pmbusInvalid code) rfl (by simp [pmbusInvalid, hvin])

/-- Settles O3: the pins by `powerUpPins`, BASE_ON and the clock by `baseOnAndClockLoss`. -/
theorem pinsAndStart : Obligations.PinsAndStart := ⟨powerUpPins, baseOnAndClockLoss⟩

/-- Settles O4: the reads by `pmbusReadsAnswer`, the STATUS bits by `stageStatus`. -/
theorem stageAndPmbus : Obligations.StageAndPmbus := ⟨pmbusReadsAnswer, stageStatus⟩

end Sys2Proof
end

section
/-! PROOF. Beat time: loads, markers, epochs and the loss of alignment (R44 to R56, R71 to R74). -/

-- One proof after another: elaborated in parallel, the text as a whole needs more memory than the check allows.
set_option Elab.async false

namespace Sys2Proof

open Machine

variable {o : Host.Outcome State Fault Refusal} {s : State}

/-- A command on stack and memories whose function changes registers only, by what that function is worth. -/
theorem next_of_onSys {f : Sys → Sys} {d : Dev} (h : o = onSys f s) (hf : f s.work = { s.work with dev := d }) :
    o = .next { s with dev := d } := by
  rw [h, onSys, ← State.work, hf]
  rfl

/-- A command whose function leaves the stack and the memories as they are. -/
theorem next_of_onSys_same {f : Sys → Sys} (h : o = onSys f s) (hf : f s.work = s.work) : o = .next s :=
  next_of_onSys h hf

/-- A command that writes no byte changes the stack only. -/
theorem completes_stackOnly {i : Instr} {f : Sys → Sys} {P : State → Prop} (h : exec i s = onSys f s) (hlog : (f s.work).log = [])
    (hp : ∀ t : State, StackOnly s t → t.dev = (f s.work).dev → P t) : Completes i s P := by
  refine completes_onSys h (hp _ ⟨rfl, ?_, rfl⟩ rfl)
  rw [hlog]
  rfl

/- Beat loads (R55, R56, R92). -/

theorem loadAllowed_of_live {d : Dev} (h : anyLive d = true) : loadAllowed d = false := by
  simp [loadAllowed, h]

theorem loadAllowed_of_leader {d : Dev} (hrole : d.beat.role = .lone ∨ d.beat.role = .master) (h : anyLive d = false) :
    loadAllowed d = true := by
  rcases hrole with hr | hr <;> simp [loadAllowed, hr, h]

theorem beatLoadCtrl_of_order {v : W32} {y : Sys} (h : v.getLsbD 0 = true) : beatLoadCtrl v y = if loadAllowed y.dev then
      y.onBeat fun b => { b with loadPending := some (b.loadLo + b.loadHi * 2 ^ 32), loadAt := b.wbc, loadRefused := b.loadRefused && !v.getLsbD 1 }
    else y.onBeat fun b => { b with loadRefused := true } := by
  rw [beatLoadCtrl, if_pos h]
  rfl

theorem beatLoadEffect_of_early {d : Dev} {b : Beat} {w : Nat} (hp : b.loadPending = some w) (h : b.wbc ≤ b.loadAt) :
    beatLoadEffect d b = b := by
  simp [beatLoadEffect, hp, h]

theorem beatLoadEffect_of_due {d : Dev} {b : Beat} {w : Nat} (hp : b.loadPending = some w) (h : b.loadAt < b.wbc) :
    beatLoadEffect d b = if loadAllowed d then { setWbc w b with holdAcc := 0, aligned := !b.lossNow, loadPending := none }
      else { b with loadPending := none, loadRefused := true } := by
  simp [beatLoadEffect, hp, Nat.not_le.mpr h]

/-- Settles O6: each clause is the branch of the beat load that its premises pick. -/
theorem beatLoad : Obligations.BeatLoad := by
  intro s
  refine ⟨fun v hset hrole hlive => ?_, fun v hset hlive => ?_, fun w hp hdue hrole hlive => ?_, fun w hp hearly => ?_,
    fun w hp hdue hlive => ?_, rfl, rfl, rfl⟩
  · refine next_of_onSys (f := beatLoadCtrl v) rfl ?_
    rw [beatLoadCtrl_of_order hset, work_dev, if_pos (loadAllowed_of_leader hrole hlive)]
    rfl
  · refine next_of_onSys (f := beatLoadCtrl v) rfl ?_
    rw [beatLoadCtrl_of_order hset, work_dev, if_neg (by simp [loadAllowed_of_live hlive])]
    rfl
  · refine completes_stackOnly (f := fun y => y.onBeat (beatLoadEffect y.dev)) rfl rfl fun t hstack hdev => ⟨hstack, ?_⟩
    have hallow := loadAllowed_of_leader hrole hlive
    rw [hdev]
    dsimp only [Sys.onBeat]
    rw [work_dev, beatLoadEffect_of_due hp hdue, if_pos hallow]
    exact ⟨rfl, rfl, by simp [setWbc, Function.comp_def]⟩
  · refine next_of_onSys_same (f := fun y => y.onBeat (beatLoadEffect y.dev)) rfl ?_
    dsimp only [Sys.onBeat]
    rw [work_dev, beatLoadEffect_of_early hp hearly]
    rfl
  · refine next_of_onSys (f := fun y => y.onBeat (beatLoadEffect y.dev)) rfl ?_
    dsimp only [Sys.onBeat]
    rw [work_dev, beatLoadEffect_of_due hp hdue, if_neg (by simp [loadAllowed_of_live hlive])]

/- Markers (R51 to R55). -/

end Sys2Proof

namespace Sys2Proof.Machine

variable {y : Sys} {p : Nat}

/-- What an update of a port keeps of each port, it keeps of every port. -/
theorem port_onPort_view {α : Type} (v : PortS → α) {f : PortS → PortS} (h : ∀ x, v (f x) = v x) (q : Nat) :
    v ((y.onPort p f).port q) = v (y.port q) := by
  simp only [Sys.port, Sys.onPort_ports, nth, upd, List.getElem?_modify]
  cases y.dev.span.ports[q]? with
  | none => rfl
  | some x =>
    by_cases hpq : p = q
    · simp [hpq, h]
    · simp [hpq]

theorem ne_paused_of_carries {x : PortS} (h : portCarries x = true) : x.state ≠ .paused := by
  intro hx
  simp [portCarries, hx] at h

theorem wakePort_of_not_paused (h : (y.port p).state ≠ .paused) :
    wakePort y p = y.onPort p fun x => { x with holdIdle := false } := if_neg h

/-- The device but for its beat unit, its span ports and its host link: what a marker leaves alone. -/
def besideBeat (d : Dev) : Dev := { d with beat := {}, span := {}, host := {} }

theorem eq_of_besideBeat {d e : Dev} (h : besideBeat d = besideBeat e) : d = { e with beat := d.beat, span := d.span, host := d.host } :=
  congrArg (fun x : Dev => { x with beat := d.beat, span := d.span, host := d.host }) h

theorem setMismatch_log (y : Sys) (m : Marker) : (setMismatch y m).log = y.log := by
  unfold setMismatch
  dsimp only
  split
  · exact (requestHold_keeps Sys.log _ (fun _ _ => rfl) (fun _ _ => rfl) _ _).trans (event_keeps Sys.log _ (fun _ _ => rfl) _ _)
  · rfl

theorem setMismatch_besideBeat (y : Sys) (m : Marker) : besideBeat (setMismatch y m).dev = besideBeat y.dev := by
  unfold setMismatch
  dsimp only
  split
  · refine (requestHold_keeps (fun z => besideBeat z.dev) _ (fun _ _ => rfl) (fun _ _ => rfl) _ _).trans ?_
    exact event_keeps (fun z => besideBeat z.dev) _ (fun _ _ => rfl) _ _
  · rfl

/-- The beat unit without its hold points and without the marks of the set mismatch and of the standby port. -/
def markersOf (b : Beat) : Beat := { clockOf b with setMismatch := false, lastStandbyMarker := none }

/-- A set mismatch flags itself and requests a hold; the counts of the beat unit stay. -/
theorem setMismatch_markers (y : Sys) (m : Marker) : markersOf (setMismatch y m).dev.beat = markersOf y.dev.beat := by
  unfold setMismatch
  dsimp only
  split
  · refine (congrArg (fun b : Beat => { b with setMismatch := false, lastStandbyMarker := none }) (requestHold_clock _ _ _)).trans ?_
    exact event_keeps (fun z => markersOf z.dev.beat) _ (fun _ _ => rfl) _ _
  · rfl

theorem termAhead_self (t : Nat) : termAhead t t = false := by
  have h : (t + 256 - t % 256) % 256 = 0 := by omega
  simp [termAhead, h]

/-- What differs between two work records of which one has noted that a marker came on a port. -/
def SameForMarker (p : Nat) (z y : Sys) : Prop :=
  besideBeat z.dev = besideBeat y.dev ∧ z.log = y.log ∧ (z.port p).delay = (y.port p).delay ∧
    markersOf z.dev.beat = markersOf y.dev.beat

theorem SameForMarker.onPort {f : PortS → PortS} (h : ∀ x, (f x).delay = x.delay) : SameForMarker p (y.onPort p f) y :=
  ⟨rfl, rfl, port_onPort_view PortS.delay h p, rfl⟩

theorem SameForMarker.trans {x z : Sys} (h : SameForMarker p x z) (h' : SameForMarker p z y) : SameForMarker p x y :=
  ⟨h.1.trans h'.1, h.2.1.trans h'.2.1, h.2.2.1.trans h'.2.2.1, h.2.2.2.trans h'.2.2.2⟩

/-- A marker of its own term on the active upstream port of a member is taken, once the port is awake and has noted it. -/
theorem beatMarker_of_member {m : Marker} (hrole : y.dev.beat.role = .member) (hover : y.dev.beat.holdover = false)
    (hup : y.dev.beat.upstream = p) (hcarry : portCarries (y.port p) = true) (hterm : m.term = y.dev.beat.term)
    (hstale : isStale y.dev m.srcId m.srcInc = false) :
    ∃ z : Sys, beatMarker p m y = setMismatch (takeMarker z p m) m ∧ SameForMarker p z y := by
  have hwake := wakePort_of_not_paused (ne_paused_of_carries hcarry)
  have hsame : SameForMarker p (wakePort y p) y := by rw [hwake]; exact .onPort fun _ => rfl
  have hcarry' : portCarries ((wakePort y p).port p) = true := by
    rw [hwake, port_onPort_view portCarries (f := fun x => { x with holdIdle := false }) (fun _ => rfl), hcarry]
  have hbeat : (wakePort y p).dev.beat = y.dev.beat := by rw [hwake]; rfl
  have hstale' : isStale (wakePort y p).dev m.srcId m.srcInc = false := by rw [hwake]; exact hstale
  have hahead : termAhead y.dev.beat.term m.term = false := by rw [hterm, termAhead_self]
  unfold beatMarker
  extract_lets z b lone noted standby other own after
  have hz : SameForMarker p z y ∧ portCarries (z.port p) = true ∧ z.dev.beat = y.dev.beat ∧ isStale z.dev m.srcId m.srcInc = false :=
    ⟨hsame, hcarry', hbeat, hstale'⟩
  have hb : b = y.dev.beat := hbeat
  clear_value b z
  obtain ⟨hz, hzcarry, hzbeat, hzstale⟩ := hz
  subst hb
  have hnoted : SameForMarker p noted y ∧ noted.dev.beat = y.dev.beat := ⟨.trans (by exact .onPort fun _ => rfl) hz, hzbeat⟩
  clear_value noted
  have hstandby : SameForMarker p standby y ∧ standby.dev.beat.term = y.dev.beat.term := by
    dsimp only [standby]
    split
    · exact ⟨.trans ⟨rfl, rfl, rfl, rfl⟩ hnoted.1, (congrArg Beat.term hnoted.2 :)⟩
    · exact ⟨hnoted.1, congrArg Beat.term hnoted.2⟩
  clear_value standby
  have hother : other = standby := if_neg (by simp [standbyRules, hstandby.2, hterm, termAhead_self])
  have hafter : after = standby := (if_neg (by simp [hover])).trans hother
  have hupstream : standby.dev.beat.upstream = p := (congrArg Beat.upstream hstandby.1.2.2.2).trans hup
  refine ⟨standby, ?_, hstandby.1⟩
  rw [if_neg (by simp [hzcarry]), if_neg (by simp [hzstale]), if_neg (by simp [hrole]), if_neg (by simp [hrole]),
    if_neg (by simp [hahead]), if_neg (by simp [hup]), hafter, if_pos hupstream]

/-- A member of which no configured port carries markers goes into holdover. -/
theorem markersMissing_of_silent (hfol : follows y.dev.beat = true) (hup : y.dev.beat.upstream ≠ 15) (hover : y.dev.beat.holdover = false)
    (hlate : (y.dev.beat.lastMarker.getD 0) + 4 ≤ y.dev.beat.wbc) (hnone : ∀ p, portCarries (y.port p) = false) :
    markersMissing y = event (y.onBeat fun b => { b with holdover := true, holdEpochs := 0 }) 0x0101 (leBytes 1 1) := by
  simp [markersMissing, hfol, hup, hover, hlate, hnone]

end Sys2Proof.Machine

namespace Sys2Proof

open Machine

variable {s : State}

/-- Settles O7: the marker by `beatMarker_of_member`, the other two on the branch that their premises pick. -/
theorem memberFollowsMarkers : Obligations.MemberFollowsMarkers := by
  intro s
  refine ⟨fun p m hrole hover hup hcarry hterm hinc hne => ?_, fun hfol hal hloss hmatch => ?_, fun hfol hup hover hlate hnone => ?_⟩
  · have hstale : isStale s.dev m.srcId m.srcInc = false := by simp [isStale, hinc, hne]
    obtain ⟨z, heq, hbeside, hlog, hdelay, hbeat⟩ := beatMarker_of_member (y := s.work) hrole hover hup hcarry hterm hstale
    refine completes_stackOnly (f := beatMarker p m) rfl ?_ fun t hstack hdev => ?_
    · rw [heq, setMismatch_log]
      exact hlog
    have hclock := setMismatch_markers (takeMarker z p m) m
    rw [hdev, heq]
    refine ⟨hstack, eq_of_besideBeat ((setMismatch_besideBeat _ _).trans hbeside), ?_, ?_, ?_, ?_, ?_⟩
    · exact (congrArg Beat.wbc hclock).trans (congrArg (m.wbc + ·) hdelay)
    · exact congrArg Beat.hop hclock
    · exact congrArg Beat.lastAcc hclock
    · exact (congrArg Beat.holdAcc hclock).trans (congrArg Beat.holdAcc hbeat :)
    · refine (congrArg Beat.matched hclock).trans ?_
      have hwbc : z.dev.beat.wbc = s.dev.beat.wbc := (congrArg Beat.wbc hbeat :)
      have hmatched : z.dev.beat.matched = s.dev.beat.matched := (congrArg Beat.matched hbeat :)
      simp only [← hwbc, ← hmatched, ← hdelay]
      rfl
  · refine next_of_onSys (f := memberAligned) rfl ?_
    rw [memberAligned, if_pos (by simp [hfol, hal, hloss, hmatch])]
    rfl
  · have heq := markersMissing_of_silent (y := s.work) hfol hup hover hlate hnone
    refine completes_stackOnly (f := markersMissing) rfl ?_ fun t hstack hdev => ⟨hstack, ?_⟩
    · rw [heq, event_keeps Sys.log _ (fun _ _ => rfl)]
      rfl
    · rw [hdev, heq]
      rfl

end Sys2Proof

namespace Sys2Proof.Machine

variable {y : Sys}

/- Stops: the states of the partitions (R396). -/

/-- A loop in which each round brings about its part of a claim and keeps the other parts and an invariant. -/
theorem Sys.each_establishes {β : Type} {l : List β} {f : Sys → β → Sys} (I : Sys → Prop) (P : β → Sys → Prop) (hI : I y)
    (hinv : ∀ z a, I z → I (f z a)) (hset : ∀ z a, I z → a ∈ l → P a (f z a)) (hkeep : ∀ z a b, I z → P b z → P b (f z a)) :
    I (y.each l f) ∧ ∀ a ∈ l, P a (y.each l f) := by
  suffices h : ∀ (m : List β) (z : Sys), (∀ a ∈ m, a ∈ l) → I z → I (m.foldl f z) ∧
      (∀ b, P b z → P b (m.foldl f z)) ∧ ∀ a ∈ m, P a (m.foldl f z) by
    exact ⟨(h l y (fun _ h => h) hI).1, (h l y (fun _ h => h) hI).2.2⟩
  intro m
  induction m with
  | nil => exact fun z _ hz => ⟨hz, fun _ h => h, fun _ h => absurd h List.not_mem_nil⟩
  | cons a m ih =>
    intro z hm hz
    obtain ⟨hi, hk, hs⟩ := ih (f z a) (fun b hb => hm b (List.mem_cons_of_mem a hb)) (hinv z a hz)
    refine ⟨hi, fun b hb => hk b (hkeep z a b hz hb), fun b hb => ?_⟩
    rcases List.mem_cons.mp hb with rfl | hb
    · exact hk b (hset z b hz (hm b List.mem_cons_self))
    · exact hs b hb

theorem enterPower_parts (y : Sys) (p : PowerState) : (enterPower y p).dev.boot.parts = y.dev.boot.parts := by
  unfold enterPower
  split
  · rfl
  · exact (event_keeps (fun z => z.dev.boot.parts) _ (fun _ _ => rfl) _ _)

theorem settlePower_parts (y : Sys) : (settlePower y).dev.boot.parts = y.dev.boot.parts := by
  unfold settlePower
  split
  · exact enterPower_parts y _
  · rfl

theorem setPart_parts (y : Sys) (q : Nat) (p : PartState) : (setPart y q p).dev.boot.parts = y.dev.boot.parts.set q p :=
  settlePower_parts _

theorem endStep_parts (y : Sys) (site i o w cyc : Nat) : (endStep y site i o w cyc).dev.boot.parts = y.dev.boot.parts := by
  simp only [endStep]
  split
  · rfl
  · exact recordStep_keeps (fun z => z.dev.boot.parts) _ (fun _ _ => rfl) (fun _ _ => rfl) (fun _ _ => rfl) _ _ _

theorem stopCore_parts (y : Sys) (site q : Nat) : (stopCore y site q).dev.boot.parts = y.dev.boot.parts := by
  refine (Sys.each_keeps (fun z => z.dev.boot.parts) _ _ _ fun z _ _ => endStep_parts z _ _ _ _ _).trans ?_
  exact abandonReplay_keeps (fun z => z.dev.boot.parts) y (fun _ _ => rfl) (fun _ _ => rfl) (fun _ _ _ => rfl) _ _

theorem stopPart_parts (y : Sys) (q k : Nat) : (stopPart y q k).dev.boot.parts = y.dev.boot.parts :=
  Sys.each_keeps (fun z => z.dev.boot.parts) y _ _ fun z _ _ => stopCore_parts z _ _

theorem faultStop_parts (y : Sys) (q : Nat) : (faultStop y q).dev.boot.parts = y.dev.boot.parts.set q .faultStop := by
  unfold faultStop
  split
  case isTrue h =>
    refine (List.ext_getElem? fun k => ?_)
    rw [List.getElem?_set]
    split
    · next hk =>
      subst hk
      split
      · next hlt => simpa [partState, nth, List.getElem?_eq_getElem hlt] using h
      · next hge => exact List.getElem?_eq_none (Nat.not_lt.mp hge)
    · rfl
  case isFalse => rw [setPart_parts, stopPart_parts]

theorem partState_faultStop {q r : Nat} (h : r < y.dev.boot.parts.length) :
    partState (faultStop y q).dev r = if q = r then .faultStop else partState y.dev r := by
  rw [partState, faultStop_parts, nth, List.getElem?_set]
  split
  · next hq => simp [hq, h]
  · rfl

/-- A stop of all partitions puts every one that has columns in FAULT_STOP. -/
theorem faultStopAll_stops (hlen : y.dev.boot.parts.length = 4) :
    ∀ q ∈ allParts y, partState (faultStopAll y).dev q = .faultStop := by
  have hlt : ∀ q ∈ allParts y, q < 4 := fun q hq => List.mem_range.mp ((List.mem_filter.mp hq).1)
  have h := Sys.each_establishes (y := y) (l := allParts y) (f := faultStop) (fun z => z.dev.boot.parts.length = 4)
    (fun q z => q < 4 ∧ partState z.dev q = .faultStop) hlen (fun z a hz => by rw [faultStop_parts, List.length_set, hz])
    (fun z a hz ha => ⟨hlt a ha, by rw [partState_faultStop (by rw [hz]; exact hlt a ha), if_pos rfl]⟩)
    (fun z a b hz hb => ⟨hb.1, by rw [partState_faultStop (by rw [hz]; exact hb.1), hb.2, ite_self]⟩)
  exact fun q hq => (h.2 q hq).2

theorem lossOfAlignment_stops (hlen : y.dev.boot.parts.length = 4) (cause : Nat) :
    ∀ q ∈ allParts y, partState (lossOfAlignment y cause).dev q = .faultStop := by
  intro q hq
  refine Eq.trans ?_ (faultStopAll_stops hlen q hq)
  unfold lossOfAlignment
  refine (Sys.when_keeps (fun z => partState z.dev q) _ _ _ ?_).trans ?_
  · exact requestHold_keeps (fun z => partState z.dev q) _ (fun _ _ => rfl) (fun _ _ => rfl) _ _
  · exact event_keeps (fun z => partState z.dev q) _ (fun _ _ => rfl) _ _

/- Epochs and the standby (R44, R71, R72). -/

theorem port_onPort_of_ne {p q : Nat} (y : Sys) (f : PortS → PortS) (h : p ≠ q) : (y.onPort p f).port q = y.port q := by
  simp [Sys.port, nth, upd, h]

theorem port_onPort_self {p : Nat} (y : Sys) (f : PortS → PortS) (h : p < y.dev.span.ports.length) :
    (y.onPort p f).port p = f (y.port p) := by
  simp [Sys.port, nth, upd, List.getElem?_eq_getElem h]

/-- At an epoch boundary the master counts a holdover and gives its mirror to the standby port. -/
theorem epochBoundary_of_master (hepoch : y.dev.beat.wbc % 2 ^ 20 = 0) (hrole : y.dev.beat.role = .master) (hport : beatPort y 3 < 12) :
    epochBoundary y = ((y.onBeat fun b => { b with
        holdEpochs := if b.holdover then b.holdEpochs + 1 else b.holdEpochs, mirrorOut := some (mirrorNow y) }).onPort (beatPort y 3)
      fun x => { x with mgmt := x.mgmt ++ (mirrorFlits y (beatPort y 3) (mirrorNow y)).map fun f => (y.dev.beat.wbc, f) }) := by
  unfold epochBoundary
  rw [if_neg (not_not_intro hepoch)]
  exact if_pos ⟨hrole, hport⟩

/-- A standby that has taken a mirror. -/
def withMirror (y : Sys) (m : MirrorData) : Sys :=
  (y.onBeat fun b => { b with mirror := some m }).onFw
    fun f => { f with sendSession := m.fwSession, sendRound := m.fwRound, progress := m.fwProgress }

theorem mirrorArrive_of_same {m : MirrorData} (hrole : y.dev.beat.role = .standby) (h : ledgerDiff y.dev.beat.ledger m.ledger = none) :
    mirrorArrive m y = withMirror y m := by
  rw [mirrorArrive, if_neg (not_not_intro hrole)]
  dsimp only [Sys.onFw_beat, Sys.onBeat_beat]
  rw [h]
  rfl

theorem mirrorArrive_of_diff {m : MirrorData} {w : Nat} (hrole : y.dev.beat.role = .standby)
    (h : ledgerDiff y.dev.beat.ledger m.ledger = some w) : mirrorArrive m y = ledgerMismatch (withMirror y m) w := by
  rw [mirrorArrive, if_neg (not_not_intro hrole)]
  dsimp only [Sys.onFw_beat, Sys.onBeat_beat]
  rw [h]
  rfl

end Sys2Proof.Machine

namespace Sys2Proof

open Machine

variable {s : State}

theorem alignmentLost : AlignmentLostClause := by
  intro s i hi hlen
  obtain ⟨cause, f, hexec, hf⟩ : ∃ (cause : Nat) (f : Sys → Sys), exec i s = onSys f s ∧ f s.work = lossOfAlignment s.work cause := by
    rcases hi with ⟨rfl, hover, hepochs⟩ | ⟨rfl, hfol, hbad⟩
    · exact ⟨1, holdoverExpiry, rfl, if_pos (by simp [hover, hepochs])⟩
    · exact ⟨3, phaseErrorExcess, rfl, if_pos (by simp [hfol, hbad])⟩
  refine completes_stackOnly hexec (by rw [hf, lossOfAlignment_log, work_log]) fun t hstack hdev => ⟨hstack, ?_⟩
  have hclock := lossOfAlignment_clock s.work cause
  rw [hdev, hf]
  exact ⟨(congrArg Beat.aligned hclock :), (congrArg Beat.alignLost hclock :), (congrArg Beat.holdover hclock :),
    (congrArg Beat.wbc hclock :), lossOfAlignment_stops hlen cause⟩

/-- The branch of each rule at an epoch boundary and on a standby that the premises pick. -/
theorem epochAndStandby : EpochAndStandbyClause := by
  intro s
  refine ⟨fun hepoch hrole hport => ?_, fun m hrole hsame => ?_, fun m w hrole hdiff => ?_, fun hrole hlate => ?_,
    fun hrole htake hepoch => ?_⟩
  · refine completes_stackOnly (f := epochBoundary) rfl ?_ fun t hstack hdev => ⟨hstack, ?_⟩
    · rw [epochBoundary_of_master hepoch hrole hport]
      rfl
    have heq := epochBoundary_of_master (y := s.work) hepoch hrole hport
    have hwork : ∀ p, t.work.port p = (epochBoundary s.work).port p := fun p => by rw [Sys.port, work_dev, hdev]; rfl
    simp only [hwork]
    rw [hdev, heq]
    refine ⟨rfl, ?_, _, rfl, rfl, rfl, rfl, rfl, fun hports => ?_, fun p hp => port_onPort_of_ne _ _ (Ne.symm hp)⟩
    · simp only [Sys.onPort_beat, Sys.onBeat_beat, work_dev]
      by_cases hover : s.dev.beat.holdover = true <;> simp [hover]
    · rw [port_onPort_self _ _ (by exact hports ▸ hport)]
      rfl
  · refine next_of_onSys (f := mirrorArrive m) rfl ?_
    rw [mirrorArrive_of_same hrole hsame]
    rfl
  · refine completes_stackOnly (f := mirrorArrive m) rfl ?_ fun t hstack hdev => ⟨hstack, ?_⟩
    · rw [mirrorArrive_of_diff hrole hdiff]
      exact event_keeps Sys.log _ (fun _ _ => rfl) _ _
    · rw [hdev, mirrorArrive_of_diff hrole hdiff]
      exact event_keeps (fun z => z.dev.beat) _ (fun _ _ => rfl) _ _
  · refine next_of_onSys (f := fun y => y.onBeat standbyMarkersMissing) rfl ?_
    simp [standbyMarkersMissing, hrole, hlate, Sys.onBeat]
  · have heq : standbyTakeover s.work = _ := if_pos ⟨hrole, htake, hepoch⟩
    refine completes_stackOnly (f := standbyTakeover) rfl ?_ fun t hstack hdev => ⟨hstack, ?_⟩
    · rw [heq]
      exact event_keeps Sys.log _ (fun _ _ => rfl) _ _
    · rw [hdev, heq]
      exact event_keeps (fun z => z.dev.beat) _ (fun _ _ => rfl) _ _

/-- Settles O8: the epochs and the standby by `epochAndStandby`, the alignment by `alignmentLost`. -/
theorem followingTime : Obligations.FollowingTime := ⟨epochAndStandby, alignmentLost⟩

end Sys2Proof
end

section
/-! PROOF. Holds: requests, closing points, confirmations, releases and starts (R58 to R67, R72). -/

-- One proof after another: elaborated in parallel, the text as a whole needs more memory than the check allows.
set_option Elab.async false

namespace Sys2Proof.Machine

variable {y : Sys} {w : Nat}

/- The combined length (R62). -/

theorem lenKey_pos (n : Nat) : 1 ≤ lenKey n := by
  unfold lenKey
  split <;> omega

theorem eq_one_of_lenKey_le {n : Nat} (h : lenKey n ≤ 1) : n = 1 := by
  unfold lenKey at h
  split at h <;> omega

/-- One step of the combination: the larger of two lengths. -/
def largerLen (m : Nat) (r : HoldReq) : Nat := if lenKey m < lenKey r.len then r.len else m

/-- A combination from m on is at least m and each request's length, and it is m or one of these. -/
theorem foldl_largerLen (reqs : List HoldReq) (m : Nat) :
    lenKey m ≤ lenKey (reqs.foldl largerLen m) ∧ (∀ r ∈ reqs, lenKey r.len ≤ lenKey (reqs.foldl largerLen m)) ∧
      (reqs.foldl largerLen m = m ∨ ∃ r ∈ reqs, r.len = reqs.foldl largerLen m) := by
  induction reqs generalizing m with
  | nil => exact ⟨Nat.le_refl _, by simp, .inl rfl⟩
  | cons a l ih =>
    obtain ⟨hle, hall, hone⟩ := ih (largerLen m a)
    have hstep : lenKey m ≤ lenKey (largerLen m a) ∧ lenKey a.len ≤ lenKey (largerLen m a) ∧
        (largerLen m a = m ∨ a.len = largerLen m a) := by
      unfold largerLen
      split
      · next h => exact ⟨Nat.le_of_lt h, Nat.le_refl _, .inr rfl⟩
      · next h => exact ⟨Nat.le_refl _, Nat.not_lt.mp h, .inl rfl⟩
    obtain ⟨hm, ha, hor⟩ := hstep
    refine ⟨Nat.le_trans hm hle, ?_, ?_⟩
    · rintro r (_ | ⟨_, hr⟩)
      · exact Nat.le_trans ha hle
      · exact hall r hr
    · rcases hone with h | ⟨r, hr, h⟩
      · rcases hor with h' | h'
        · exact .inl (h.trans h')
        · exact .inr ⟨a, List.mem_cons_self, h'.trans h.symm⟩
      · exact .inr ⟨r, List.mem_cons_of_mem a hr, h⟩

end Sys2Proof.Machine

namespace Sys2Proof

open Machine

variable {s : State}

theorem combinedIsLargest : CombinedIsLargestClause := by
  intro reqs hne _
  obtain ⟨_, hall, hone⟩ := foldl_largerLen reqs 1
  refine ⟨hall, hone.elim (fun h => ?_) id⟩
  obtain ⟨r, hr⟩ := List.exists_mem_of_ne_nil reqs hne
  have hlen : r.len = 1 := eq_one_of_lenKey_le (h ▸ hall r hr :)
  exact ⟨r, hr, hlen.trans h.symm⟩

end Sys2Proof

namespace Sys2Proof.Machine

variable {y : Sys} {w : Nat}

/- What a record of a hold leaves alone. -/

/-- The device but for its beat unit and its span ports: what a record of a hold leaves alone. -/
def besideSpan (d : Dev) : Dev := { d with beat := {}, span := {} }

theorem eq_of_besideSpan {d e : Dev} (h : besideSpan d = besideSpan e) : d = { e with beat := d.beat, span := d.span } :=
  congrArg (fun x : Dev => { x with beat := d.beat, span := d.span }) h

theorem wakePort_log (y : Sys) (p : Nat) : (wakePort y p).log = y.log :=
  wakePort_keeps Sys.log y (fun _ _ => rfl) (fun _ _ => rfl) (fun _ _ => rfl) p

theorem wakePort_beat (y : Sys) (p : Nat) : (wakePort y p).dev.beat = y.dev.beat :=
  wakePort_keeps (fun z => z.dev.beat) y (fun _ _ => rfl) (fun _ _ => rfl) (fun _ _ => rfl) p

theorem enterPower_span (y : Sys) (p : PowerState) : (enterPower y p).dev.span = y.dev.span :=
  enterPower_keeps (fun z => z.dev.span) y (fun _ _ => rfl) (fun _ _ => rfl) p

theorem setPort_incs (y : Sys) (p : Nat) (new : PortState) : (setPort y p new).dev.span.incs = y.dev.span.incs := by
  simp only [setPort]
  split
  · rfl
  · refine (settleLinks_keeps (fun z => z.dev.span.incs) _ (fun _ _ => rfl) (fun _ _ => rfl)).trans ?_
    exact event_keeps (fun z => z.dev.span.incs) _ (fun _ _ => rfl) _ _

/-- A port that wakes leaves the incarnation table alone. -/
theorem wakePort_isStale (y : Sys) (p id inc : Nat) : isStale (wakePort y p).dev id inc = isStale y.dev id inc := by
  have h : (wakePort y p).dev.span.incs = y.dev.span.incs := by
    simp only [wakePort]
    split
    · exact setPort_incs _ _ _
    · rfl
  simp only [isStale, incOf, h]

theorem floodRec_log (y : Sys) (e : Option Nat) (r : CtrlRec) : (floodRec y e r).log = y.log :=
  floodRec_keeps Sys.log y (fun _ _ => rfl) e r

theorem floodRec_beat (y : Sys) (e : Option Nat) (r : CtrlRec) : (floodRec y e r).dev.beat = y.dev.beat :=
  floodRec_keeps (fun z => z.dev.beat) y (fun _ _ => rfl) e r

theorem floodRec_besideSpan (y : Sys) (e : Option Nat) (r : CtrlRec) : besideSpan (floodRec y e r).dev = besideSpan y.dev :=
  floodRec_keeps (fun z => besideSpan z.dev) y (fun _ _ => rfl) e r

theorem sendRecNow_keeps {α : Type} (v : Sys → α) (y : Sys) (hSpan : ∀ z f, v (Sys.onSpan z f) = v z) (r : CtrlRec) :
    v (sendRecNow y r) = v y :=
  Sys.each_keeps v y _ _ fun z p _ => by
    split
    · unfold Sys.onPort; exact hSpan z _
    · rfl

theorem onBeat_besideSpan (y : Sys) (f : Beat → Beat) : besideSpan (y.onBeat f).dev = besideSpan y.dev := rfl

theorem remember_besideSpan (y : Sys) (kind id inc seq : Nat) : besideSpan (remember y kind id inc seq).dev = besideSpan y.dev := rfl

theorem remember_beat (y : Sys) (kind id inc seq : Nat) : (remember y kind id inc seq).dev.beat =
    { y.dev.beat with recent := (kind, id, inc, seq, y.dev.beat.wbc) :: y.dev.beat.recent } := rfl

/- Requests join their point (R61 to R63). -/

/-- The request of a record. -/
def holdReqOf (r : HoldRec) : HoldReq := ⟨r.reqId, r.reqInc, r.reqSeq, r.holdLen, r.cause⟩

theorem addRequest_mem (b : Beat) (w : Nat) (r : HoldReq) : ∃ h ∈ (addRequest b w r).points, h.w = w ∧ r ∈ h.reqs := by
  unfold addRequest
  split
  · next hany =>
    obtain ⟨p, hp, hw⟩ := List.any_eq_true.mp hany
    exact ⟨{ p with reqs := p.reqs ++ [r] }, List.mem_map.mpr ⟨p, hp, if_pos hw⟩, by simpa using hw, by simp⟩
  · exact ⟨{ w := w, reqs := [r] }, by simp, rfl, by simp⟩

/-- An update of the points of one beat leaves the points of the others. -/
theorem mem_map_points {l : List HoldPoint} {c : HoldPoint → Bool} {f : HoldPoint → HoldPoint} (hc : ∀ p, c p = true → p.w = w)
    (hf : ∀ p, (f p).w = p.w) {h : HoldPoint} (hw : h.w ≠ w) : h ∈ (l.map fun p => if c p then f p else p) ↔ h ∈ l := by
  rw [List.mem_map]
  constructor
  · rintro ⟨p, hp, rfl⟩
    by_cases hcp : c p = true
    · rw [if_pos hcp, hf] at hw
      exact absurd (hc p hcp) hw
    · rwa [if_neg hcp]
  · intro hh
    exact ⟨h, hh, if_neg fun hcp => hw (hc h hcp)⟩

theorem addRequest_other {b : Beat} {r : HoldReq} {h : HoldPoint} (hw : h.w ≠ w) : h ∈ (addRequest b w r).points ↔ h ∈ b.points := by
  unfold addRequest
  split
  · exact mem_map_points (c := fun p => p.w == w) (fun p hp => by simpa using hp) (fun _ => by rfl) hw
  · rw [List.mem_append, List.mem_singleton]
    exact or_iff_left fun heq => hw (by rw [heq])

theorem reclose_points (b : Beat) (w : Nat) :
    (reclose b w).points = b.points.map fun p => if p.w == w && p.closed then { p with len := combined p.reqs } else p := by
  unfold reclose
  dsimp only
  split <;> rfl

theorem reclose_other {b : Beat} {h : HoldPoint} (hw : h.w ≠ w) : h ∈ (reclose b w).points ↔ h ∈ b.points := by
  rw [reclose_points]
  exact mem_map_points (c := fun p => p.w == w && p.closed) (fun p hp => by simp at hp; exact hp.1) (fun _ => by rfl) hw

/-- A request that joins stands in its point, whose length follows when the point has closed. -/
theorem reclose_addRequest_mem (b : Beat) (w : Nat) (r : HoldReq) : ∃ h ∈ (reclose (addRequest b w r) w).points, h.w = w ∧ r ∈ h.reqs ∧
    (h.closed = true → h.len = combined h.reqs) := by
  obtain ⟨h, hmem, hw, hr⟩ := addRequest_mem b w r
  rw [reclose_points]
  by_cases hc : h.closed = true
  · exact ⟨{ h with len := combined h.reqs }, List.mem_map.mpr ⟨h, hmem, if_pos (by simp [hw, hc])⟩, hw, hr, fun _ => rfl⟩
  · exact ⟨h, List.mem_map.mpr ⟨h, hmem, if_neg (by simp [hc])⟩, hw, hr, fun hc' => absurd hc' hc⟩

theorem holdRequest_of_early {p : Nat} {r : HoldRec} (hstale : isStale y.dev r.reqId r.reqInc = false)
    (hdup : isDuplicate y.dev.beat 2 r.reqId r.reqInc r.reqSeq = false) (hw : y.dev.beat.wbc + 64 ≤ r.holdWbc) :
    holdRequest p r y = floodRec ((remember (wakePort y p) 2 r.reqId r.reqInc r.reqSeq).onBeat
      fun b => reclose (addRequest b r.holdWbc (holdReqOf r)) r.holdWbc) (some p) ⟨1, holdBytes 2 r⟩ := by
  unfold holdRequest
  dsimp only
  rw [wakePort_isStale, hstale, wakePort_beat, hdup, if_neg (by simp), if_neg (by simp), if_neg (Nat.not_lt.mpr hw)]
  rfl

theorem holdRequest_of_late {p : Nat} {r : HoldRec} (hstale : isStale y.dev r.reqId r.reqInc = false)
    (hdup : isDuplicate y.dev.beat 2 r.reqId r.reqInc r.reqSeq = false) (hw : r.holdWbc < y.dev.beat.wbc + 64) :
    holdRequest p r y = holdLate (wakePort y p) := by
  unfold holdRequest
  dsimp only
  rw [wakePort_isStale, hstale, wakePort_beat, hdup, if_neg (by simp), if_neg (by simp), if_pos hw]

theorem wakePort_besideSpan {p : Nat} (h : (y.port p).state ≠ .paused) : besideSpan (wakePort y p).dev = besideSpan y.dev := by
  rw [wakePort_of_not_paused h]
  rfl

end Sys2Proof.Machine

namespace Sys2Proof

open Machine

variable {s : State}

theorem holdRequestJoins : HoldRequestJoinsClause := by
  intro s p r hstale hdup hpaused
  refine ⟨fun hw => ?_, fun hw => ?_⟩
  · have heq := holdRequest_of_early (p := p) (y := s.work) hstale hdup hw
    refine completes_stackOnly (f := holdRequest p r) rfl ?_ fun t hstack hdev => ⟨hstack, ?_⟩
    · rw [heq, floodRec_log]
      exact wakePort_log _ _
    have hbeat : t.dev.beat = reclose (addRequest ({ s.dev.beat with
        recent := (2, r.reqId, r.reqInc, r.reqSeq, s.dev.beat.wbc) :: s.dev.beat.recent }) r.holdWbc (holdReqOf r)) r.holdWbc := by
      rw [hdev, heq, floodRec_beat, Sys.onBeat_beat, remember_beat, wakePort_beat, work_dev]
    have hclock := (reclose_clock _ r.holdWbc).trans (addRequest_clock { s.dev.beat with
        recent := (2, r.reqId, r.reqInc, r.reqSeq, s.dev.beat.wbc) :: s.dev.beat.recent } r.holdWbc (holdReqOf r))
    have hbeside : besideSpan t.dev = besideSpan s.dev := by
      rw [hdev, heq, floodRec_besideSpan, onBeat_besideSpan, remember_besideSpan, wakePort_besideSpan hpaused, work_dev]
    refine ⟨eq_of_besideSpan hbeside, ?_, fun h hne => ?_, ?_, ?_⟩
    · rw [hbeat]
      exact reclose_addRequest_mem _ _ _
    · rw [hbeat, reclose_other hne, addRequest_other hne]
    · rw [hbeat]
      exact (congrArg Beat.wbc hclock :)
    · rw [hbeat]
      exact (congrArg Beat.holdAcc hclock :)
  · have heq := holdRequest_of_late (p := p) (y := s.work) hstale hdup hw
    refine completes_stackOnly (f := holdRequest p r) rfl ?_ fun t hstack hdev => ⟨hstack, ?_⟩
    · rw [heq, holdLate, lossOfAlignment_log]
      exact wakePort_log _ _
    have hclock := lossOfAlignment_clock ((wakePort s.work p).onBeat fun b => { b with holdLate := true }) 4
    rw [Sys.onBeat_beat] at hclock
    have hlate := congrArg Beat.holdLate hclock
    have haligned := congrArg Beat.aligned hclock
    dsimp only [clockOf] at hlate haligned
    rw [hdev, heq, holdLate]
    exact ⟨hlate, haligned⟩

end Sys2Proof

namespace Sys2Proof.Machine

variable {y : Sys} {w : Nat}

/- Points close (R62, R65, R66, R72). -/

theorem mem_ledgerPut (b : Beat) (e : LedgerEntry) : e ∈ (ledgerPut b e).ledger := by
  unfold ledgerPut
  dsimp only
  rw [List.drop_append_of_le_length (by simp)]
  exact List.mem_append_right _ (List.mem_singleton.mpr rfl)

/-- The points of a beat unit as a point closes: the length of its requests, and on a master the confirmation. -/
def closePoint (b : Beat) (w : Nat) : Beat :=
  { b with points := b.points.map fun x => if x.w == w then
      { x with closed := true, len := combined x.reqs, confirmed := b.role == .master || x.confirmed,
               index := if b.role == .master then some b.ledgerNext else x.index }
    else x }

theorem closePoint_closed {b : Beat} {x : HoldPoint} (hx : x ∈ (closePoint b w).points) (hw : x.w = w) :
    x.closed = true ∧ x.len = combined x.reqs := by
  obtain ⟨p, _, rfl⟩ := List.mem_map.mp hx
  by_cases hp : (p.w == w) = true
  · rw [if_pos hp]
    exact ⟨rfl, rfl⟩
  · rw [if_neg hp] at hw
    exact absurd (beq_iff_eq.mpr hw) hp

theorem closePoint_other {b : Beat} {x : HoldPoint} (hw : x.w ≠ w) : x ∈ (closePoint b w).points ↔ x ∈ b.points :=
  mem_map_points (c := fun p => p.w == w) (fun p hp => by simpa using hp) (fun _ => by rfl) hw

/-- The beat unit after a close: the point closed, and on a master or a standby the ledger entry. -/
def closedBeat (b : Beat) (p : HoldPoint) : Beat :=
  if b.role == .master || b.role == .standby then ledgerPut (closePoint b p.w) (ledgerEntry b p b.ledgerNext) else closePoint b p.w

theorem closedBeat_points (b : Beat) (p : HoldPoint) : (closedBeat b p).points = (closePoint b p.w).points := by
  unfold closedBeat
  split <;> rfl

theorem ledgerEntry_mem_closedBeat {b : Beat} (p : HoldPoint) (hrole : b.role = .master ∨ b.role = .standby) :
    ledgerEntry b p b.ledgerNext ∈ (closedBeat b p).ledger := by
  rw [closedBeat, if_pos (by simpa using hrole)]
  exact mem_ledgerPut _ _

theorem closedBeat_ledger {b : Beat} (p : HoldPoint) (hm : b.role ≠ .master) (hs : b.role ≠ .standby) :
    (closedBeat b p).ledger = b.ledger := by
  rw [closedBeat, if_neg (by simp [hm, hs])]
  rfl

/-- A close leaves points and ledger as `closedBeat` says, and nothing but the beat unit and span ports changes. -/
theorem holdPointClose_of_open {p : HoldPoint} (hfind : y.dev.beat.points.find? (fun x => x.w == w && !x.closed) = some p)
    (hreqs : p.reqs ≠ []) (hw : w ≤ y.dev.beat.wbc + 64) :
    (holdPointClose w y).dev.beat.points = (closedBeat y.dev.beat p).points ∧
      (holdPointClose w y).dev.beat.ledger = (closedBeat y.dev.beat p).ledger ∧
      besideSpan (holdPointClose w y).dev = besideSpan y.dev ∧ (holdPointClose w y).log = y.log := by
  have hpw : p.w = w := by
    have h := List.find?_some hfind
    simp at h
    exact h.1
  subst hpw
  unfold holdPointClose
  extract_lets b master
  split
  case h_1 hnone => exact absurd (hnone.symm.trans hfind) (by simp)
  case h_2 q hq =>
    obtain rfl : q = p := Option.some.inj (hq.symm.trans hfind)
    rw [if_neg (by simp [hreqs, b]; omega)]
    extract_lets e z1 z2 r
    have hz2 : z2 = y.onBeat fun _ => closedBeat y.dev.beat q := by
      dsimp only [z2, closedBeat]
      split <;> rfl
    clear_value z2
    subst hz2
    split
    · refine ⟨?_, ?_, ?_, ?_⟩
      · exact sendRecNow_keeps (fun z => z.dev.beat.points) _ (fun _ _ => rfl) _
      · exact sendRecNow_keeps (fun z => z.dev.beat.ledger) _ (fun _ _ => rfl) _
      · exact sendRecNow_keeps (fun z => besideSpan z.dev) _ (fun _ _ => rfl) _
      · exact sendRecNow_keeps Sys.log _ (fun _ _ => rfl) _
    · exact ⟨rfl, rfl, rfl, rfl⟩

end Sys2Proof.Machine

namespace Sys2Proof

open Machine

variable {s : State}

theorem holdPointCloses : HoldPointClosesClause := by
  intro s w p hfind hreqs hw
  obtain ⟨hpoints, hledger, hbeside, hlog⟩ := holdPointClose_of_open (y := s.work) hfind hreqs hw
  have hpw : p.w = w := by
    have h := List.find?_some hfind
    simp at h
    exact h.1
  subst hpw
  refine completes_stackOnly (f := holdPointClose p.w) rfl hlog fun t hstack hdev => ⟨hstack, ?_⟩
  rw [← hdev] at hpoints hledger hbeside
  rw [closedBeat_points] at hpoints
  refine ⟨eq_of_besideSpan hbeside, fun x hx hxw => ?_, fun x hx => ?_, fun hrole => ?_, fun hm hst => ?_⟩
  · rw [hpoints] at hx
    exact closePoint_closed hx hxw
  · rw [hpoints]
    exact closePoint_other hx
  · rw [hledger]
    exact ⟨ledgerEntry s.dev.beat p s.dev.beat.ledgerNext, ledgerEntry_mem_closedBeat p hrole, rfl, rfl, rfl, rfl⟩
  · rw [hledger]
    exact closedBeat_ledger p hm hst

/-- Settles O9: the close by `holdPointCloses`, the combined length by `combinedIsLargest`. -/
theorem holdPointsClose : Obligations.HoldPointsClose := ⟨holdPointCloses, combinedIsLargest⟩

end Sys2Proof

namespace Sys2Proof.Machine

variable {y : Sys} {w : Nat}

/- Confirmations (R66). -/

theorem event_beat (y : Sys) (code : Nat) (data : List Byte) : (event y code data).dev.beat = y.dev.beat :=
  event_keeps (fun z => z.dev.beat) y (fun _ _ => rfl) code data

theorem event_log (y : Sys) (code : Nat) (data : List Byte) : (event y code data).log = y.log :=
  event_keeps Sys.log y (fun _ _ => rfl) code data

theorem requestHold_log (y : Sys) (cause len : Nat) : (requestHold y cause len).log = y.log :=
  requestHold_keeps Sys.log y (fun _ _ => rfl) (fun _ _ => rfl) cause len

/-- A device that takes a record remembers it and passes it on. -/
def passRecord (y : Sys) (p kind : Nat) (r : HoldRec) : Sys :=
  floodRec (remember (wakePort y p) kind r.reqId r.reqInc r.reqSeq) (some p) ⟨1, holdBytes kind r⟩

theorem passRecord_log (y : Sys) (p kind : Nat) (r : HoldRec) : (passRecord y p kind r).log = y.log :=
  (floodRec_log _ _ _).trans (wakePort_log y p)

theorem passRecord_beat (y : Sys) (p kind : Nat) (r : HoldRec) : (passRecord y p kind r).dev.beat =
    { y.dev.beat with recent := (kind, r.reqId, r.reqInc, r.reqSeq, y.dev.beat.wbc) :: y.dev.beat.recent } := by
  rw [passRecord, floodRec_beat, remember_beat, wakePort_beat]

theorem holdConfirmation_of_fresh {p : Nat} {r : HoldRec} (hstale : isStale y.dev r.reqId r.reqInc = false)
    (hdup : isDuplicate y.dev.beat 3 r.reqId r.reqInc r.reqSeq = false) :
    holdConfirmation p r y = takeConfirmation r (passRecord y p 3 r) := by
  unfold holdConfirmation
  dsimp only
  rw [wakePort_isStale, hstale, wakePort_beat, hdup, if_neg (by simp), if_neg (by simp), passRecord]

theorem ledgerPut_points (b : Beat) (e : LedgerEntry) : (ledgerPut b e).points = b.points := by
  rw [ledgerPut]

theorem ledgerPut_ledgerMismatch (b : Beat) (e : LedgerEntry) : (ledgerPut b e).ledgerMismatch = b.ledgerMismatch := by
  rw [ledgerPut]

theorem standbyLedger_points (r : HoldRec) (b : Beat) : (standbyLedger r b).points = b.points := by
  unfold standbyLedger
  split
  · split
    · exact ledgerPut_points _ _
    · rfl
  · rfl

theorem standbyLedger_ledgerMismatch (r : HoldRec) (b : Beat) : (standbyLedger r b).ledgerMismatch = b.ledgerMismatch := by
  unfold standbyLedger
  split
  · split
    · exact ledgerPut_ledgerMismatch _ _
    · rfl
  · rfl

theorem takeConfirmation_of_same {r : HoldRec} (h : ownLen y.dev.beat r.holdWbc = some r.holdLen) :
    takeConfirmation r y = y.onBeat fun b => standbyLedger r (confirmPoint r b) := if_pos h

theorem takeConfirmation_of_other {r : HoldRec} (h : ownLen y.dev.beat r.holdWbc ≠ some r.holdLen) :
    takeConfirmation r y = requestHold (ledgerMismatch (y.onBeat fun b => standbyLedger r (confirmPoint r b)) r.holdWbc) 7 0 := if_neg h

theorem confirmPoint_mem {b : Beat} {r : HoldRec} {x : HoldPoint} (hx : x ∈ (confirmPoint r b).points) (hw : x.w = r.holdWbc) :
    x.confirmed = true ∧ x.index = some r.ledgerIndex := by
  obtain ⟨p, _, rfl⟩ := List.mem_map.mp hx
  by_cases hp : (p.w == r.holdWbc) = true
  · rw [if_pos hp]
    exact ⟨rfl, rfl⟩
  · rw [if_neg hp] at hw
    exact absurd (beq_iff_eq.mpr hw) hp

/- Releases (R67). -/

theorem holdRelease_of_fresh {p : Nat} {r : HoldRec} (hstale : isStale y.dev r.reqId r.reqInc = false)
    (hdup : isDuplicate y.dev.beat 4 r.reqId r.reqInc r.reqSeq = false) (hw : y.dev.beat.wbc + 64 ≤ r.holdWbc) :
    holdRelease p r y = applyRelease (passRecord y p 4 r) r.ledgerIndex r.holdWbc := by
  unfold holdRelease
  dsimp only
  rw [wakePort_isStale, hstale, wakePort_beat, hdup, if_neg (by simp), if_neg (by simp), if_neg (Nat.not_lt.mpr hw), passRecord]

/-- A point takes its release, and so does its entry of the ledger. -/
def releasePoint (b : Beat) (v w : Nat) : Beat :=
  { b with points := b.points.map fun x => if x.w == v then { x with release := some w } else x
           ledger := b.ledger.map fun e => if e.holdWbc == v then { e with releaseWbc := w } else e }

theorem applyRelease_of_open {index : Nat} {h : HoldPoint} (hrel : releasedPoint y.dev.beat index = some h) :
    applyRelease y index w = y.onBeat fun b => releasePoint b h.w w := by
  unfold applyRelease
  rw [hrel]
  rfl

theorem releasePoint_points {b : Beat} {v : Nat} {x : HoldPoint} (hx : x ∈ (releasePoint b v w).points) (hv : x.w = v) :
    x.release = some w := by
  obtain ⟨p, _, rfl⟩ := List.mem_map.mp hx
  by_cases hp : (p.w == v) = true
  · rw [if_pos hp]
  · rw [if_neg hp] at hv
    exact absurd (beq_iff_eq.mpr hv) hp

theorem releasePoint_ledger {b : Beat} {v : Nat} {e : LedgerEntry} (he : e ∈ (releasePoint b v w).ledger) (hv : e.holdWbc = v) :
    e.releaseWbc = w := by
  obtain ⟨p, _, rfl⟩ := List.mem_map.mp he
  by_cases hp : (p.holdWbc == v) = true
  · rw [if_pos hp]
  · rw [if_neg hp] at hv
    exact absurd (beq_iff_eq.mpr hv) hp

end Sys2Proof.Machine

namespace Sys2Proof

open Machine

variable {s : State}

theorem confirmationActs : ∀ (s : State) (p : Port) (r : HoldRec), isStale s.dev r.reqId r.reqInc = false →
    isDuplicate s.dev.beat 3 r.reqId r.reqInc r.reqSeq = false → ownLen s.dev.beat r.holdWbc = some r.holdLen →
      Completes (.holdConfirmation p r) s fun t => StackOnly s t ∧
        (∀ x ∈ t.dev.beat.points, x.w = r.holdWbc → x.confirmed = true ∧ x.index = some r.ledgerIndex) ∧
        t.dev.beat.ledgerMismatch = s.dev.beat.ledgerMismatch := by
  intro s p r hstale hdup hown
  have hown' : ownLen (passRecord s.work p 3 r).dev.beat r.holdWbc = some r.holdLen := by rw [passRecord_beat]; exact hown
  have heq := (holdConfirmation_of_fresh (y := s.work) (p := p) hstale hdup).trans (takeConfirmation_of_same hown')
  refine completes_stackOnly (f := holdConfirmation p r) rfl ?_ fun t hstack hdev => ⟨hstack, ?_⟩
  · rw [heq, Sys.onBeat_log, passRecord_log, work_log]
  rw [hdev, heq, Sys.onBeat_beat, standbyLedger_points, standbyLedger_ledgerMismatch]
  refine ⟨fun x => confirmPoint_mem, ?_⟩
  rw [confirmPoint, passRecord_beat]
  rfl

theorem mismatchActs : ∀ (s : State) (p : Port) (r : HoldRec), isStale s.dev r.reqId r.reqInc = false →
    isDuplicate s.dev.beat 3 r.reqId r.reqInc r.reqSeq = false → ownLen s.dev.beat r.holdWbc ≠ some r.holdLen →
      Completes (.holdConfirmation p r) s fun t => StackOnly s t ∧ t.dev.beat.ledgerMismatch = true := by
  intro s p r hstale hdup hown
  have hown' : ownLen (passRecord s.work p 3 r).dev.beat r.holdWbc ≠ some r.holdLen := by rw [passRecord_beat]; exact hown
  have heq := (holdConfirmation_of_fresh (y := s.work) (p := p) hstale hdup).trans (takeConfirmation_of_other hown')
  refine completes_stackOnly (f := holdConfirmation p r) rfl ?_ fun t hstack hdev => ⟨hstack, ?_⟩
  · rw [heq, requestHold_log, ledgerMismatch, event_log, Sys.onBeat_log, Sys.onBeat_log, passRecord_log, work_log]
  have hflag := congrArg Beat.ledgerMismatch (requestHold_clock
    (ledgerMismatch ((passRecord s.work p 3 r).onBeat fun b => standbyLedger r (confirmPoint r b)) r.holdWbc) 7 0)
  dsimp only [clockOf] at hflag
  rw [hdev, heq, hflag, ledgerMismatch, event_beat, Sys.onBeat_beat]

theorem releaseActs : ∀ (s : State) (p : Port) (r : HoldRec) (h : HoldPoint), isStale s.dev r.reqId r.reqInc = false →
    isDuplicate s.dev.beat 4 r.reqId r.reqInc r.reqSeq = false → s.dev.beat.wbc + 64 ≤ r.holdWbc →
    releasedPoint s.dev.beat r.ledgerIndex = some h →
      Completes (.holdRelease p r) s fun t => StackOnly s t ∧
        (∀ x ∈ t.dev.beat.points, x.w = h.w → x.release = some r.holdWbc) ∧
        (∀ e ∈ t.dev.beat.ledger, e.holdWbc = h.w → e.releaseWbc = r.holdWbc) := by
  intro s p r h hstale hdup hw hrel
  have hrel' : releasedPoint (passRecord s.work p 4 r).dev.beat r.ledgerIndex = some h := by rw [passRecord_beat]; exact hrel
  have heq := (holdRelease_of_fresh (y := s.work) (p := p) hstale hdup hw).trans (applyRelease_of_open hrel')
  refine completes_stackOnly (f := holdRelease p r) rfl ?_ fun t hstack hdev => ⟨hstack, ?_⟩
  · rw [heq, Sys.onBeat_log, passRecord_log, work_log]
  rw [hdev, heq, Sys.onBeat_beat]
  exact ⟨fun x => releasePoint_points, fun e => releasePoint_ledger⟩

end Sys2Proof

namespace Sys2Proof.Machine

variable {y : Sys} {w : Nat}

/- Missing confirmations and starts (R62, R66, R67, R396). -/

theorem ringPush_evtSeq (y : Sys) (b : List Byte) (k : Bool) : (ringPush y b k).dev.host.evtSeq = y.dev.host.evtSeq := by
  simp only [ringPush, Sys.onHost_host]
  split
  · rfl
  · split <;> rfl

theorem event_evtSeq (y : Sys) (code : Nat) (data : List Byte) : (event y code data).dev.host.evtSeq = y.dev.host.evtSeq + 1 :=
  ringPush_evtSeq _ _ _

/-- The points of a beat unit whose confirmation is missing. -/
def missPoint (b : Beat) (w : Nat) : Beat :=
  { b with confirmMissing := true, points := b.points.map fun p => if p.w == w then { p with missing := true } else p }

theorem confirmMissing_of_late {h : HoldPoint} (hmem : h ∈ y.dev.beat.points) (hw : h.w = w) (hclosed : h.closed = true)
    (hconf : h.confirmed = false) (hmiss : h.missing = false) (hlate : w + propBeats y ≤ y.dev.beat.wbc) :
    confirmMissing w y = event (y.onBeat fun b => missPoint b w) 0x0104 (leBytes 8 w) :=
  if_pos (List.any_eq_true.mpr ⟨h, hmem, by simp [hw, hclosed, hconf, hmiss, hlate]⟩)

/-- The points of a beat unit as a point starts. -/
def startPoint (b : Beat) (w : Nat) : Beat :=
  { b with points := b.points.map fun p => if p.w == w && p.closed then { p with started := true } else p }

theorem startPoint_started {b : Beat} {x : HoldPoint} (hx : x ∈ (startPoint b w).points) (hw : x.w = w) (hc : x.closed = true) :
    x.started = true := by
  obtain ⟨p, _, rfl⟩ := List.mem_map.mp hx
  by_cases hp : (p.w == w && p.closed) = true
  · rw [if_pos hp]
  · rw [if_neg hp] at hw hc
    simp [hw, hc] at hp

/-- A point without length or release that has started is an open hold in force. -/
theorem openHold_startPoint {b : Beat} {h : HoldPoint} (hmem : h ∈ b.points) (hw : h.w = w) (hclosed : h.closed = true)
    (hlen : h.len = 0) (hrel : h.release = none) (hdue : w ≤ b.wbc) : openHold (startPoint b w) = true := by
  refine List.any_eq_true.mpr ⟨{ h with started := true }, List.mem_map.mpr ⟨h, hmem, if_pos (by simp [hw, hclosed])⟩, ?_⟩
  simp only [HoldPoint.covers, hlen, hrel, hclosed, hw, startPoint]
  simpa using hdue

/-- Every running partition goes to HELD. -/
def holdRunning (y : Sys) : Sys :=
  y.each (List.range 4) fun y q => if partState y.dev q = .running then setPart y q .held else y

theorem holdRunning_keeps {α : Type} (v : Sys → α) (hHost : ∀ z f, v (Sys.onHost z f) = v z) (hBoot : ∀ z f, v (Sys.onBoot z f) = v z) :
    v (holdRunning y) = v y :=
  Sys.each_keeps v y _ _ fun z a _ => by
    split
    · exact setPart_keeps v z hHost hBoot _ _
    · rfl

theorem holdPointStart_of_open {h : HoldPoint} (hmem : h ∈ y.dev.beat.points) (hw : h.w = w) (hclosed : h.closed = true)
    (hstart : h.started = false) (hlen : h.len = 0) (hrel : h.release = none) (hdue : w ≤ y.dev.beat.wbc) :
    holdPointStart w y = settlePower (holdRunning (y.onBeat fun b => startPoint b w)) := by
  have hany : (y.dev.beat.points.any fun p => p.w == w && p.closed && !p.started) = true :=
    List.any_eq_true.mpr ⟨h, hmem, by simp [hw, hclosed, hstart]⟩
  unfold holdPointStart
  rw [if_neg (by simp [hany, hdue])]
  exact if_pos (openHold_startPoint hmem hw hclosed hlen hrel hdue)

theorem partState_setPart {q r : Nat} {p : PartState} (h : r < y.dev.boot.parts.length) :
    partState (setPart y q p).dev r = if q = r then p else partState y.dev r := by
  rw [partState, setPart_parts, nth, List.getElem?_set]
  split
  · next hq => simp [hq, h]
  · rfl

theorem lt_length_of_running {q : Nat} (h : partState y.dev q = .running) : q < y.dev.boot.parts.length := by
  refine Nat.lt_of_not_le fun hge => ?_
  rw [partState, nth, List.getElem?_eq_none hge] at h
  cases h

theorem holdRunning_held {q : Nat} (hq : q < 4) (hrun : partState y.dev q = .running) : partState (holdRunning y).dev q = .held := by
  have hlt := lt_length_of_running hrun
  have h := Sys.each_establishes (y := y) (l := List.range 4)
    (f := fun y q => if partState y.dev q = .running then setPart y q .held else y)
    (fun z => z.dev.boot.parts.length = y.dev.boot.parts.length ∧ (partState z.dev q = .running ∨ partState z.dev q = .held))
    (fun a z => a = q → partState z.dev q = .held) ⟨rfl, .inl hrun⟩ ?_ ?_ ?_
  · exact h.2 q (List.mem_range.mpr hq) rfl
  · rintro z a ⟨hz, hor⟩
    split
    · refine ⟨by rw [setPart_parts, List.length_set, hz], ?_⟩
      rw [partState_setPart (by rw [hz]; exact hlt)]
      split
      · exact .inr rfl
      · exact hor
    · exact ⟨hz, hor⟩
  · rintro z a ⟨hz, hor⟩ - rfl
    split
    · rw [partState_setPart (by rw [hz]; exact hlt), if_pos rfl]
    · next hn => exact hor.resolve_left hn
  · rintro z a b ⟨hz, -⟩ hb rfl
    split
    · rw [partState_setPart (by rw [hz]; exact hlt), hb rfl, ite_self]
    · exact hb rfl

end Sys2Proof.Machine

namespace Sys2Proof

open Machine

variable {s : State}

theorem missingConfirmationFlags : ∀ (s : State) (w : Nat) (h : HoldPoint), h ∈ s.dev.beat.points → h.w = w → h.closed = true →
    h.confirmed = false → h.missing = false → w + propBeats s.work ≤ s.dev.beat.wbc →
      Completes (.confirmMissing w) s fun t => StackOnly s t ∧ t.dev.beat.confirmMissing = true ∧
        t.dev = { s.dev with beat := t.dev.beat, host := t.dev.host } ∧ t.dev.host.evtSeq = s.dev.host.evtSeq + 1 := by
  intro s w h hmem hw hclosed hconf hmiss hlate
  have heq := confirmMissing_of_late (y := s.work) hmem hw hclosed hconf hmiss hlate
  refine completes_stackOnly (f := confirmMissing w) rfl ?_ fun t hstack hdev => ⟨hstack, ?_⟩
  · rw [heq, event_log, Sys.onBeat_log, work_log]
  rw [hdev, heq]
  refine ⟨?_, rfl, event_evtSeq _ _ _⟩
  rw [event_beat, Sys.onBeat_beat, missPoint]

theorem startHolds : ∀ (s : State) (w : Nat) (h : HoldPoint), h ∈ s.dev.beat.points → h.w = w → h.closed = true → h.started = false →
    h.len = 0 → h.release = none → w ≤ s.dev.beat.wbc →
      Completes (.holdPointStart w) s fun t => StackOnly s t ∧
        (∀ x ∈ t.dev.beat.points, x.w = w → x.closed = true → x.started = true) ∧
        (∀ q : Part, partState s.dev q = .running → partState t.dev q = .held) := by
  intro s w h hmem hw hclosed hstart hlen hrel hdue
  have heq := holdPointStart_of_open (y := s.work) hmem hw hclosed hstart hlen hrel hdue
  refine completes_stackOnly (f := holdPointStart w) rfl ?_ fun t hstack hdev => ⟨hstack, ?_⟩
  · rw [heq, settlePower_keeps Sys.log _ (fun _ _ => rfl) (fun _ _ => rfl), holdRunning_keeps Sys.log (fun _ _ => rfl) (fun _ _ => rfl),
      Sys.onBeat_log, work_log]
  rw [hdev, heq]
  refine ⟨fun x hx => ?_, fun q hq => ?_⟩
  · rw [settlePower_keeps (fun z => z.dev.beat) _ (fun _ _ => rfl) (fun _ _ => rfl),
      holdRunning_keeps (fun z => z.dev.beat) (fun _ _ => rfl) (fun _ _ => rfl), Sys.onBeat_beat] at hx
    exact startPoint_started hx
  · rw [partState, settlePower_parts]
    exact holdRunning_held q.isLt hq

/-- Settles O10: the requests by `holdRequestJoins`, the other records and the start by the lemma of each. -/
theorem holdRequests : Obligations.HoldRequests :=
  ⟨holdRequestJoins, fun s => ⟨confirmationActs s, mismatchActs s, releaseActs s, missingConfirmationFlags s, startHolds s⟩⟩

end Sys2Proof
end

section
/-! PROOF. Register writes (R6, R56, R92, R122, R189, R227, R253, R272, R299, R323, R349, R366, R394, R477). -/

-- One proof after another: elaborated in parallel, the text as a whole needs more memory than the check allows.
set_option Elab.async false

namespace Sys2Proof

open Machine

variable {s t : State}

theorem getLsbD_eq_bitAt {n : Nat} (v : BitVec n) (i : Nat) : v.getLsbD i = bitAt v.toNat i := by
  rw [BitVec.getLsbD, Nat.testBit_eq_decide_div_mod_eq]
  rfl

theorem place_csr {n off : Nat} (h : off < 0x100000000) : place n (0x7F00000000 + off) = .csr off := by
  have hoff : 0x7F00000000 + off - 0x7F00000000 = off := by omega
  simp only [place]
  rw [if_neg (by omega), if_neg (by omega), if_neg (by omega), if_neg (by omega), if_neg (by omega), if_neg (by omega), if_neg (by omega),
    if_neg (by omega), if_neg (by omega), if_pos (by omega), hoff]

/-- A write to an aligned address of CSR space is a write of its register. -/
theorem registerWrite_csr {off v : Nat} {y : Sys} (h : off < 0x100000000) (h4 : off % 4 = 0) :
    registerWrite (0x7F00000000 + off) v y = csrWrite off v y := by
  simp only [registerWrite, place_csr h]
  exact if_pos h4

theorem whenOn_of_off {f : Sys → Sys} {y : Sys} (h : y.dev.boot.power = .off) : whenOn f y = y := if_pos h

theorem whenOn_of_ne {f : Sys → Sys} {y : Sys} (h : y.dev.boot.power ≠ .off) : whenOn f y = f y := if_neg h

/-- Two commands that do the same to the stack have the same outcome. -/
theorem onSys_congr {f g : Sys → Sys} (h : f s.work = g s.work) : onSys f s = onSys g s := by
  rw [onSys, onSys, ← State.work, h]

/-- A register write is the command of its row. -/
theorem exec_registerWrite {off : Nat} {v : W32} {i : Instr} {f : Sys → Sys} (hi : exec i s = onSys f s) (h : off < 0x100000000)
    (h4 : off % 4 = 0) (hf : csrWrite off v.toNat s.work = f s.work) : exec (.registerWrite (0x7F00000000 + off) v) s = exec i s := by
  rw [hi]
  refine onSys_congr (f := registerWrite (0x7F00000000 + off) v.toNat) ?_
  rw [registerWrite_csr h h4, hf]

/-- A register row that acts only while the stack runs. -/
theorem exec_whenOn {i : Instr} {f : Sys → Sys} {d : Dev} (hon : s.dev.boot.power ≠ .off) (hi : exec i s = onSys (whenOn f) s)
    (hf : f s.work = { s.work with dev := d }) : exec i s = .next { s with dev := d } :=
  next_of_onSys hi ((whenOn_of_ne hon).trans hf)

/-- A clear acts when its bit is set, and not else. -/
theorem exec_clear {i : Instr} {f : Sys → Sys} {v : W32} (hon : s.dev.boot.power ≠ .off)
    (hi : exec i s = onSys (whenOn fun y => y.when (bitAt v.toNat 0) f) s) :
    (v.getLsbD 0 = true → ∀ d, f s.work = { s.work with dev := d } → exec i s = .next { s with dev := d }) ∧
    (v.getLsbD 0 = false → exec i s = .next s) := by
  rw [getLsbD_eq_bitAt]
  refine ⟨fun hv d hf => exec_whenOn hon hi ?_, fun hv => next_of_onSys_same hi ((whenOn_of_ne hon).trans ?_)⟩
  · rw [Sys.when, if_pos hv, hf]
  · rw [Sys.when, if_neg (by rw [hv]; exact Bool.false_ne_true)]

/-- While the stack is off the register rows do nothing (R6, R400). -/
theorem exec_guardedRows {site : Site} {v : W32} {i : Instr} (hoff : s.dev.boot.power = .off) (hi : i ∈ guardedRows site v) :
    exec i s = .next s := by
  simp only [guardedRows, List.mem_cons, List.not_mem_nil, or_false] at hi
  obtain rfl | rfl | rfl | rfl | rfl | rfl | rfl | rfl | rfl | rfl := hi <;>
  exact next_of_onSys_same (f := whenOn _) rfl (whenOn_of_off hoff)

/-- The registers with a row of their own. -/
theorem exec_registerRows {v : W32} {e : Nat × Instr} (hon : s.dev.boot.power ≠ .off) (he : e ∈ registerRows v) :
    exec (.registerWrite (0x7F00000000 + e.1) v) s = exec e.2 s := by
  simp only [registerRows, List.mem_cons, List.not_mem_nil, or_false] at he
  obtain rfl | rfl | rfl | rfl | rfl | rfl | rfl | rfl | rfl | rfl := he <;>
  refine exec_registerWrite (f := _) rfl (by omega) (by omega) ?_ <;>
  simp [csrWrite, whenOn, hon, writeMapReg, writeProt, writeNoc, writeSpan, writeHost, writePower, writeBeat]

/-- The fault bits of the beat unit are cleared by ones (R92). -/
theorem exec_beatStatusWrite {v : W32} (hon : s.dev.boot.power ≠ .off) :
    exec (.registerWrite 0x7F00020024 v) s = .next { s with dev := { s.dev with beat := { s.dev.beat with
      alignLost := s.dev.beat.alignLost && !v.getLsbD 4, ledgerMismatch := s.dev.beat.ledgerMismatch && !v.getLsbD 5
      holdLate := s.dev.beat.holdLate && !v.getLsbD 6, confirmMissing := s.dev.beat.confirmMissing && !v.getLsbD 7
      setMismatch := s.dev.beat.setMismatch && !v.getLsbD 8 } } } := by
  simp only [getLsbD_eq_bitAt]
  refine next_of_onSys (f := registerWrite (0x7F00000000 + 0x20024) v.toNat) rfl ?_
  rw [registerWrite_csr (by omega) (by omega)]
  simp only [csrWrite, work_dev, if_neg hon]
  rfl

/-- ARM is refused where a partition is live or the address cannot take the error (R299). -/
theorem injCtrlWrite_arm {v : W32} {y : Sys} {refused : Bool} (hv : v.getLsbD 2 = true)
    (h : (anyLive y.dev || !injectable y y.dev.prot.injAddr (v.toNat % 4)) = refused) :
    injCtrlWrite v.toNat y = y.onProt fun p => { p with
      injCount := v.toNat % 4, injArm := !refused, injDone := p.injDone && !bitAt v.toNat 3
      injCancelled := refused || (p.injCancelled && !bitAt v.toNat 4) } := by
  have hcount : bits v.toNat 0 2 = v.toNat % 4 := by simp [bits]
  rw [getLsbD_eq_bitAt] at hv
  simp only [injCtrlWrite, hcount, hv, h, Bool.true_and, Bool.or_true]
  cases refused <;> rfl

theorem seqCountsWrite_toNat {site : Nat} {v : W32} {y : Sys} :
    seqCountsWrite site v.toNat y = y.onCore site fun c => { c with
      missed := if v.toNat % 2 ^ 16 = 0 then c.missed else 0, retViol := if v.toNat / 2 ^ 16 = 0 then c.retViol else 0 } := by
  have hlow : bits v.toNat 0 16 = v.toNat % 2 ^ 16 := by simp [bits]
  have hhigh : bits v.toNat 16 16 = v.toNat / 2 ^ 16 :=
    Nat.mod_eq_of_lt (Nat.div_lt_of_lt_mul (by have := v.isLt; omega))
  rw [seqCountsWrite, hlow, hhigh]

/-- Settles O37, from `exec_guardedRows`, `exec_registerRows` and what each register's write does. -/
theorem registerWrites : Obligations.RegisterWrites := by
  refine fun s site v => ⟨fun hoff i hi => exec_guardedRows hoff hi, fun hon => ⟨fun e he => exec_registerRows hon he,
    exec_beatStatusWrite hon, ?_, fun hv hlive => ?_, fun hv hlive hinj => ?_, ?_, fun hv => ?_, fun hv i hi => ?_⟩⟩
  · simp only [getLsbD_eq_bitAt]
    exact exec_whenOn (f := mapCtrlWrite v.toNat) hon rfl rfl
  · have hf : whenOn (injCtrlWrite v.toNat) s.work = _ := (whenOn_of_ne hon).trans (injCtrlWrite_arm (refused := true) hv (by simp [hlive]))
    refine completes_stackOnly (f := whenOn (injCtrlWrite v.toNat)) rfl (by rw [hf]; rfl) fun t ht hdev => ⟨ht, ?_⟩
    rw [hdev, hf]
    exact ⟨rfl, rfl, rfl⟩
  · have hf : whenOn (injCtrlWrite v.toNat) s.work = _ :=
      (whenOn_of_ne hon).trans (injCtrlWrite_arm (refused := false) hv (by simp [hlive, hinj]))
    refine completes_stackOnly (f := whenOn (injCtrlWrite v.toNat)) rfl (by rw [hf]; rfl) fun t ht hdev => ⟨ht, ?_⟩
    rw [hdev, hf]
    exact ⟨rfl, rfl, rfl⟩
  · exact exec_whenOn (f := seqCountsWrite site v.toNat) hon rfl seqCountsWrite_toNat
  · exact ⟨(exec_clear hon rfl).1 hv _ rfl, (exec_clear hon rfl).1 hv _ rfl, (exec_clear hon rfl).1 hv _ rfl,
      (exec_clear hon rfl).1 hv _ rfl, (exec_clear hon rfl).1 hv _ rfl, (exec_clear hon rfl).1 hv _ rfl⟩
  · simp only [List.mem_cons, List.not_mem_nil, or_false] at hi
    obtain rfl | rfl | rfl | rfl | rfl | rfl := hi <;> exact (exec_clear hon rfl).2 hv

end Sys2Proof
end

section
/-! PROOF. The boot-ROM window: GO (R401, R403, R405, R423). -/

-- One proof after another: elaborated in parallel, the text as a whole needs more memory than the check allows.
set_option Elab.async false

namespace Sys2Proof.Machine

variable {y : Sys} {code : Nat} {start : Sys → Sys}

/-- The boot unit with a step begun. -/
def begun (code : Nat) (y : Sys) : Sys :=
  y.onBoot fun b => { b with ctrlStep := code, stepCode := code, stepResult := 1, stepError := 0, busyStep := code }

theorem bootGo_starts (hon : y.dev.boot.power ≠ .off) (hidle : y.dev.boot.busyStep = 0) (hperm : stepPermitted y.dev code = true)
    (hwarm : code = 1 → y.dev.boot.ctrlWarm = true → y.dev.boot.warmOk = true) : bootGo code start y = start (begun code y) := by
  have hgo : ¬ (y.dev.boot.busyStep ≠ 0 ∨ stepPermitted y.dev code = false) := by simp [hidle, hperm]
  have hok : ¬ (code = 1 ∧ y.dev.boot.ctrlWarm = true ∧ y.dev.boot.warmOk = false) := fun ⟨h1, h2, h3⟩ => by simp [hwarm h1 h2] at h3
  exact (if_neg hon).trans ((if_neg hgo).trans (if_neg hok))

theorem bootGo_busy (hon : y.dev.boot.power ≠ .off) (h : y.dev.boot.busyStep ≠ 0 ∨ stepPermitted y.dev code = false) :
    bootGo code start y = stepRefuse (y.onBoot fun b => { b with ctrlStep := code }) code 1 :=
  (if_neg hon).trans (if_pos h)

theorem bootGo_noWarmStart (hon : y.dev.boot.power ≠ .off) (hidle : y.dev.boot.busyStep = 0) (hperm : stepPermitted y.dev 1 = true)
    (hwarm : y.dev.boot.ctrlWarm = true) (hno : y.dev.boot.warmOk = false) :
    bootGo 1 start y = stepRefuse (y.onBoot fun b => { b with ctrlStep := 1 }) 1 2 := by
  have hgo : ¬ (y.dev.boot.busyStep ≠ 0 ∨ stepPermitted y.dev 1 = false) := by simp [hidle, hperm]
  exact (if_neg hon).trans ((if_neg hgo).trans (if_pos ⟨rfl, hwarm, hno⟩))

/-- The record with every part but the host link. -/
def besideHost (y : Sys) : Sys := { y with dev := { y.dev with host := {} } }

theorem eq_of_besideHost {y z : Sys} (h : besideHost y = besideHost z) : y = { z with dev := { z.dev with host := y.dev.host } } :=
  congrArg (fun x : Sys => { x with dev := { x.dev with host := y.dev.host } }) h

theorem event_eq_onHost (y : Sys) (code : Nat) (data : List Byte) :
    event y code data = { y with dev := { y.dev with host := (event y code data).dev.host } } :=
  eq_of_besideHost (event_keeps besideHost y (fun _ _ => rfl) _ _)

theorem drdRange_eq_onHost (y : Sys) (addr len : Nat) (use : Nat → HostUse) :
    drdRange y addr len use = { y with dev := { y.dev with host := (drdRange y addr len use).dev.host } } :=
  eq_of_besideHost (drdRange_keeps besideHost y (fun _ _ => rfl) _ _ _)

/-- A refused step: result, error and event, and nothing else (R401). -/
theorem stepRefuse_eq (y : Sys) (code err : Nat) : stepRefuse y code err =
    { y with dev := { y.dev with boot := { y.dev.boot with stepResult := 3, stepError := err }, host := (stepRefuse y code err).dev.host } } :=
  event_eq_onHost _ _ _

theorem stepRefuse_evtSeq (y : Sys) (code err : Nat) : (stepRefuse y code err).dev.host.evtSeq = y.dev.host.evtSeq + 1 :=
  event_evtSeq _ _ _

/-- SELFTEST has begun: it took the kind of start, a cold one with no column fenced; besides it only the findings of the defect list
changed in the boot unit. -/
def SelftestBegun (y z : Sys) : Prop :=
  z.dev.boot = { y.dev.boot with warmStart := y.dev.boot.ctrlWarm, badUnits := z.dev.boot.badUnits } ∧
  z.dev.noc.fenced = (if y.dev.boot.ctrlWarm then y.dev.noc.fenced else []) ∧ z.log = y.log

theorem SelftestBegun.of_eq {y z w : Sys} (h : SelftestBegun y z) (hboot : w.dev.boot = z.dev.boot) (hnoc : w.dev.noc = z.dev.noc)
    (hlog : w.log = z.log) : SelftestBegun y w := by
  unfold SelftestBegun
  rw [hboot, hnoc, hlog]
  exact h

theorem startSelftest_begun (y : Sys) : SelftestBegun y (startSelftest y) := by
  unfold startSelftest
  extract_lets y1 y2 b
  have h : SelftestBegun y y2 := by
    by_cases h : y.dev.boot.ctrlWarm = true <;> simp [SelftestBegun, y2, y1, h, Sys.onBoot, Sys.onNoc]
  split
  · rw [drdRange_eq_onHost]
    exact h.of_eq rfl rfl rfl
  · split
    · obtain ⟨hboot, hnoc, hlog⟩ := h
      exact ⟨by rw [useDefects, Sys.onBoot, hboot], hnoc, hlog⟩
    · exact h

/-- A reception begins with nothing held (R432). -/
theorem startReceive_eq (y : Sys) : startReceive y = { y with dev := { y.dev with fw := (startReceive y).dev.fw } } := rfl

theorem hostPieces_of_ne {fuel off addr len : Nat} (h : len ≠ 0) :
    ∃ n l, hostPieces (fuel + 1) off addr len = (off, addr, n) :: l := ⟨_, _, if_neg h⟩

theorem mem_accs_drdRange {addr len : Nat} {use : Nat → HostUse} {a : HostAcc} {y : Sys} (h : a ∈ y.dev.host.accs) :
    a ∈ (drdRange y addr len use).dev.host.accs := by
  unfold drdRange Sys.each
  induction hostPieces (len / 128 + 2) 0 addr len generalizing y with
  | nil => exact h
  | cons p l ih => exact ih (List.mem_append_left _ h)

/-- A read of the host's memory has at least one access under way. -/
theorem drdRange_reads {y : Sys} {addr len : Nat} {use : Nat → HostUse} (h : len ≠ 0) :
    ∃ a ∈ (drdRange y addr len use).dev.host.accs, a.use = use 0 := by
  obtain ⟨n, l, hl⟩ := hostPieces_of_ne (fuel := len / 128 + 1) (off := 0) (addr := addr) h
  unfold drdRange Sys.each
  rw [hl, List.foldl_cons]
  generalize hz : drd y addr n (use 0) = z
  have hmem : ∃ a ∈ z.dev.host.accs, a.use = use 0 := by
    subst hz
    exact ⟨_, List.mem_append_right _ (List.mem_singleton_self _), rfl⟩
  obtain ⟨a, ha, huse⟩ := hmem
  refine ⟨a, ?_, huse⟩
  clear hl hz
  induction l generalizing z with
  | nil => exact ha
  | cons p l ih => exact ih _ (List.mem_append_left _ ha)

/-- FW_LOAD begins: the object held is dropped, and the reads of the new one are under way (R424, R429). -/
theorem startFwLoad_reads {y : Sys} (hre : reverifies y.dev = false) (hlen : y.dev.boot.manLen = 7380) :
    (startFwLoad y).dev.boot = y.dev.boot ∧ (startFwLoad y).dev.fw.state = 1 ∧ (startFwLoad y).dev.fw.retained = false ∧
    fwReadsLeft (startFwLoad y).dev = true ∧ (startFwLoad y).log = .zero (fwKey 0) (2 ^ 21) :: y.log := by
  have heq : startFwLoad y = drdRange (drdRange ((forgetReads (dropObject y) fwUse).onFw fun f => { f with state := 1, detail := 0 })
      y.dev.boot.manAddr manLen .fwManifest) y.dev.boot.imgAddr (min y.dev.boot.imgLen maxImage) .fwImage := by
    have hman : ¬ y.dev.boot.manLen ≠ manLen := by rw [hlen]; decide
    exact (if_neg (by rw [hre]; exact Bool.false_ne_true)).trans (if_neg hman)
  obtain ⟨a, ha, huse⟩ := drdRange_reads (y := (forgetReads (dropObject y) fwUse).onFw fun f => { f with state := 1, detail := 0 })
    (addr := y.dev.boot.manAddr) (len := manLen) (use := .fwManifest) (by decide)
  refine ⟨?_, ?_, ?_, ?_, ?_⟩
  · rw [heq, drdRange_eq_onHost, drdRange_eq_onHost]; rfl
  · rw [heq, drdRange_eq_onHost, drdRange_eq_onHost]; rfl
  · rw [heq, drdRange_eq_onHost, drdRange_eq_onHost]; rfl
  · rw [heq]
    exact List.any_eq_true.mpr ⟨a, mem_accs_drdRange ha, by rw [huse]; rfl⟩
  · rw [heq, drdRange_eq_onHost, drdRange_eq_onHost]; rfl

end Sys2Proof.Machine

namespace Sys2Proof

open Machine

variable {s : State}

/-- A boot step that is permitted begins. -/
theorem completes_bootGo {i : Instr} {code : Nat} {start : Sys → Sys} {P : State → Prop} (hi : exec i s = onSys (bootGo code start) s)
    (hon : s.dev.boot.power ≠ .off) (hidle : s.dev.boot.busyStep = 0) (hperm : stepPermitted s.dev code = true)
    (hwarm : code = 1 → s.dev.boot.ctrlWarm = true → s.dev.boot.warmOk = true) (hlog : (start (begun code s.work)).log = [])
    (hp : ∀ t, StackOnly s t → t.dev = (start (begun code s.work)).dev → P t) : Completes i s P := by
  have heq : bootGo code start s.work = start (begun code s.work) := bootGo_starts hon hidle hperm hwarm
  exact completes_stackOnly hi (by rw [heq, hlog]) fun t ht hdev => hp t ht (by rw [hdev, heq])

/-- A step that only takes the window's time begins as BOOT_CTRL says. -/
theorem completes_bootGo_id {i : Instr} {code : Nat} {P Q : State → Prop} (hi : exec i s = onSys (bootGo code id) s)
    (hon : s.dev.boot.power ≠ .off) (hidle : s.dev.boot.busyStep = 0) (hperm : stepPermitted s.dev code = true) (h1 : code ≠ 1)
    (h6 : code ≠ 6) :
    Completes i s fun t => StackOnly s t ∧ stepBusy t.dev code = true ∧ t.dev.boot.stepResult = 1 ∧ t.dev.boot.stepError = 0 ∧
      t.dev.boot.power = s.dev.boot.power ∧ t.dev.boot.lastDone = s.dev.boot.lastDone ∧ (code = 1 → P t) ∧ (code = 6 → Q t) := by
  refine completes_bootGo hi hon hidle hperm (fun h => absurd h h1) rfl fun t ht hdev => ⟨ht, ?_⟩
  rw [hdev]
  exact ⟨beq_self_eq_true code, rfl, rfl, rfl, rfl, fun h => absurd h h1, fun h => absurd h h6⟩

/-- The command that begins each step. -/
theorem exec_bootStep {e : Nat × Instr} (h : e ∈ (5, .fwLoad) :: plainBootSteps) : ∃ start, exec e.2 s = onSys (bootGo e.1 start) s := by
  simp only [plainBootSteps, List.mem_cons, List.not_mem_nil, or_false] at h
  obtain rfl | rfl | rfl | rfl | rfl | rfl := h <;> exact ⟨_, rfl⟩

/-- A step that is permitted begins (R401). -/
theorem completes_plainBootStep {e : Nat × Instr} (he : e ∈ plainBootSteps) (hon : s.dev.boot.power ≠ .off)
    (hidle : s.dev.boot.busyStep = 0) (hperm : stepPermitted s.dev e.1 = true)
    (hwarm : e.1 = 1 → s.dev.boot.ctrlWarm = true → s.dev.boot.warmOk = true) :
    Completes e.2 s fun t => StackOnly s t ∧ stepBusy t.dev e.1 = true ∧ t.dev.boot.stepResult = 1 ∧ t.dev.boot.stepError = 0 ∧
      t.dev.boot.power = s.dev.boot.power ∧ t.dev.boot.lastDone = s.dev.boot.lastDone ∧
      (e.1 = 1 → t.dev.boot.warmStart = s.dev.boot.ctrlWarm ∧ t.dev.noc.fenced = if s.dev.boot.ctrlWarm then s.dev.noc.fenced else []) ∧
      (e.1 = 6 → t.dev.fw.receiving = true ∧ t.dev.fw.pieces = [] ∧ t.dev.fw.session = 0) := by
  simp only [plainBootSteps, List.mem_cons, List.not_mem_nil, or_false] at he
  obtain rfl | rfl | rfl | rfl | rfl := he
  · obtain ⟨hboot, hnoc, hlog⟩ := startSelftest_begun (begun 1 s.work)
    refine completes_bootGo (start := startSelftest) rfl hon hidle hperm hwarm (hlog.trans rfl) fun t ht hdev => ⟨ht, ?_⟩
    rw [hdev, hnoc, stepBusy, hboot]
    exact ⟨rfl, rfl, rfl, rfl, rfl, fun _ => ⟨rfl, rfl⟩, fun h => (by cases h)⟩
  · exact completes_bootGo_id rfl hon hidle hperm (by decide) (by decide)
  · exact completes_bootGo_id rfl hon hidle hperm (by decide) (by decide)
  · exact completes_bootGo_id rfl hon hidle hperm (by decide) (by decide)
  · refine completes_bootGo (start := startReceive) rfl hon hidle hperm hwarm rfl fun t ht hdev => ⟨ht, ?_⟩
    rw [hdev]
    exact ⟨rfl, rfl, rfl, rfl, rfl, fun h => (by cases h), fun _ => ⟨rfl, rfl, rfl⟩⟩

/-- While a step is busy, or out of its order, a step is refused (R401). -/
theorem completes_bootStep_refused {e : Nat × Instr} (he : e ∈ (5, .fwLoad) :: plainBootSteps) (hon : s.dev.boot.power ≠ .off)
    (h : s.dev.boot.busyStep ≠ 0 ∨ stepPermitted s.dev e.1 = false) :
    Completes e.2 s fun t => StackOnly s t ∧ t.dev.host.evtSeq = s.dev.host.evtSeq + 1 ∧
      t.dev = { s.dev with boot := { s.dev.boot with ctrlStep := e.1, stepResult := 3, stepError := 1 }, host := t.dev.host } := by
  obtain ⟨start, hi⟩ := exec_bootStep (s := s) he
  have heq : bootGo e.1 start s.work = stepRefuse (s.work.onBoot fun b => { b with ctrlStep := e.1 }) e.1 1 := bootGo_busy hon h
  refine completes_stackOnly hi (by rw [heq, stepRefuse_eq]; rfl) fun t ht hdev => ⟨ht, ?_, ?_⟩
  · rw [hdev, heq, stepRefuse_evtSeq]; rfl
  · rw [hdev, heq]; exact congrArg Sys.dev (stepRefuse_eq _ _ _)

/-- Settles O38, with `bootGo_starts` for a permitted step, `bootGo_busy` and `bootGo_noWarmStart` for the refusals. -/
theorem bootStepsBegin : Obligations.BootStepsBegin := by
  refine fun s e hon => ⟨fun he hidle hperm hwarm => completes_plainBootStep he hon hidle hperm hwarm,
    fun he h => completes_bootStep_refused he hon h, fun hidle hperm hwarm hno => ?_, fun hidle hperm hre hlen => ?_⟩
  · have heq : bootGo 1 startSelftest s.work = stepRefuse (s.work.onBoot fun b => { b with ctrlStep := 1 }) 1 2 :=
      bootGo_noWarmStart hon hidle hperm hwarm hno
    refine completes_stackOnly (f := bootGo 1 startSelftest) rfl (by rw [heq, stepRefuse_eq]; rfl) fun t ht hdev => ⟨ht, ?_⟩
    rw [hdev, heq]; exact congrArg (fun z : Sys => z.dev.boot) (stepRefuse_eq _ _ _)
  · have heq : bootGo 5 startFwLoad s.work = startFwLoad (begun 5 s.work) := bootGo_starts hon hidle hperm (fun h => (by cases h))
    obtain ⟨hboot, hstate, hret, hreads, hlog⟩ := startFwLoad_reads (y := begun 5 s.work) hre hlen
    refine completes_onSys (f := bootGo 5 startFwLoad) rfl ?_
    rw [heq]
    refine ⟨⟨rfl, rfl⟩, ?_, hstate, hret, hreads, fun k hk => ?_⟩
    · rw [stepBusy, hboot]; rfl
    · rw [hlog]
      refine (Store.get_zero s.mem _ _ k).trans (if_neg ?_)
      rw [fwKey]
      omega

end Sys2Proof
end

section
/-! PROOF. Reading memory after a change (08 Address spaces), and what the reports of a command leave alone. -/

-- One proof after another: elaborated in parallel, the text as a whole needs more memory than the check allows.
set_option Elab.async false

namespace Sys2Proof.Machine

variable {y : Sys} {k j n : Nat}

/- Memory as the command sees it. -/

theorem Sys.get_zero : (y.zero k n).get j = if k ≤ j ∧ j < k + n then 0 else y.get j := by
  by_cases h : k ≤ j ∧ j < k + n <;> simp [Sys.get, Sys.zero, logGet, h]

theorem Sys.get_put1 (b : Byte) : Sys.get { y with log := .put k b :: y.log } j = if k = j then b else y.get j := by
  by_cases h : k = j <;> simp [Sys.get, logGet, h]

theorem Sys.get_put (bs : List Byte) : (y.put k bs).get j = if k ≤ j ∧ j < k + bs.length then nth bs (j - k) 0 else y.get j := by
  induction bs generalizing y k with
  | nil => rw [if_neg (by simp only [List.length_nil]; omega)]; rfl
  | cons b bs ih =>
    rw [Sys.put, ih, Sys.get_put1]
    by_cases hj : k = j
    · subst hj
      rw [if_neg (by omega), if_pos rfl, if_pos ⟨Nat.le_refl _, by simp only [List.length_cons]; omega⟩, Nat.sub_self]
      rfl
    · by_cases hin : k + 1 ≤ j ∧ j < k + 1 + bs.length
      · rw [if_pos hin, if_pos (by simp only [List.length_cons]; omega), show j - k = j - (k + 1) + 1 by omega]; rfl
      · rw [if_neg hin, if_neg hj, if_neg (by simp only [List.length_cons]; omega)]

theorem Sys.get_putMask (bs : List Byte) (ms : List Bool) : (y.putMask k bs ms).get j =
    if k ≤ j ∧ j < k + bs.length ∧ nth ms (j - k) false = true then nth bs (j - k) 0 else y.get j := by
  induction bs generalizing y k ms with
  | nil => rw [if_neg (by simp only [List.length_nil]; omega)]; rfl
  | cons b bs ih =>
    cases ms with
    | nil => rw [if_neg (by simp [nth])]; rfl
    | cons m ms =>
      have hfst : Sys.get (if m then { y with log := .put k b :: y.log } else y) j = if k = j ∧ m = true then b else y.get j := by
        cases m <;> simp [Sys.get_put1]
      rw [Sys.putMask, ih, hfst]
      by_cases hj : k = j
      · subst hj
        have hb : nth (b :: bs) 0 0 = b := rfl
        have hm : nth (m :: ms) 0 false = m := rfl
        rw [if_neg (by omega), Nat.sub_self, hb, hm]
        refine ite_congr (propext ⟨fun h => ⟨Nat.le_refl _, by simp only [List.length_cons]; omega, h.2⟩, fun h => ⟨rfl, h.2.2⟩⟩)
          (fun _ => rfl) fun _ => rfl
      · by_cases hle : k ≤ j
        · have hsub : j - k = j - (k + 1) + 1 := by omega
          have hb : nth (b :: bs) (j - k) 0 = nth bs (j - (k + 1)) 0 := by rw [hsub]; rfl
          have hm : nth (m :: ms) (j - k) false = nth ms (j - (k + 1)) false := by rw [hsub]; rfl
          rw [hb, hm, if_neg (c := k = j ∧ m = true) fun h => hj h.1]
          refine ite_congr (propext ?_) (fun _ => rfl) fun _ => rfl
          simp only [List.length_cons]
          constructor <;> rintro ⟨h1, h2, h3⟩ <;> exact ⟨by omega, by omega, h3⟩
        · rw [if_neg (by omega), if_neg fun h => hj h.1, if_neg (by omega)]

theorem Sys.put_dev (bs : List Byte) : (y.put k bs).dev = y.dev ∧ (y.put k bs).base = y.base := by
  induction bs generalizing y k with
  | nil => exact ⟨rfl, rfl⟩
  | cons b bs ih => rw [Sys.put]; exact ih

theorem Sys.get_of_log {z : Sys} (hbase : z.base = y.base) (hlog : z.log = y.log) : z.get k = y.get k := by
  rw [Sys.get, Sys.get, hbase, hlog]

theorem Sys.getN_of_get {z : Sys} (h : ∀ i, i < n → z.get (k + i) = y.get (k + i)) : z.getN k n = y.getN k n := by
  unfold Sys.getN
  exact List.map_congr_left fun i hi => h i (List.mem_range.mp hi)

/-- The memory a command leaves is the memory it last saw. -/
theorem Sys.get_applyLog {z : Sys} {m : Store} (hwf : m.wf = true) (hbase : z.base = m) : (m.applyLog z.log).get k = z.get k := by
  rw [Store.get_applyLog _ hwf, Sys.get, hbase]

/- Reports. -/

@[simp] theorem event_boot (y : Sys) (code : Nat) (data : List Byte) : (event y code data).dev.boot = y.dev.boot :=
  event_keeps (fun z => z.dev.boot) y (fun _ _ => rfl) _ _

@[simp] theorem event_noc (y : Sys) (code : Nat) (data : List Byte) : (event y code data).dev.noc = y.dev.noc :=
  event_keeps (fun z => z.dev.noc) y (fun _ _ => rfl) _ _

@[simp] theorem event_map (y : Sys) (code : Nat) (data : List Byte) : (event y code data).dev.map = y.dev.map :=
  event_keeps (fun z => z.dev.map) y (fun _ _ => rfl) _ _

@[simp] theorem event_prot (y : Sys) (code : Nat) (data : List Byte) : (event y code data).dev.prot = y.dev.prot :=
  event_keeps (fun z => z.dev.prot) y (fun _ _ => rfl) _ _

/-- A failed step: its result and its error, and an event (R401, R403). -/
theorem stepFail_boot (y : Sys) (code err : Nat) (fatal : Bool) : (stepFail y code err fatal).dev.boot =
    { y.dev.boot with busyStep := 0, stepResult := 3, stepError := err, fatal := y.dev.boot.fatal || fatal } := by
  rw [stepFail, event_boot]; rfl

theorem stepFail_keeps {α : Type} (v : Sys → α) (hHost : ∀ z f, v (Sys.onHost z f) = v z) (hBoot : ∀ z f, v (Sys.onBoot z f) = v z)
    (y : Sys) (code err : Nat) (fatal : Bool) : v (stepFail y code err fatal) = v y :=
  (event_keeps v _ hHost _ _).trans (hBoot y _)

/- Test findings (R406). -/

/-- The record with every part but the host link and the bad-unit map. -/
def besideFindings (y : Sys) : Sys := { y with dev := { y.dev with boot := { y.dev.boot with badUnits := [] }, host := {} } }

theorem eq_of_besideFindings {z : Sys} (h : besideFindings z = besideFindings y) : z = { y with dev := { y.dev with
    boot := { y.dev.boot with badUnits := z.dev.boot.badUnits }, host := z.dev.host } } :=
  congrArg (fun x : Sys => { x with dev := { x.dev with
    boot := { x.dev.boot with badUnits := z.dev.boot.badUnits }, host := z.dev.host } }) h

theorem addFindings_eq (y : Sys) (found : List BadUnit) : addFindings y found = { y with dev := { y.dev with
    boot := { y.dev.boot with badUnits := (addFindings y found).dev.boot.badUnits }, host := (addFindings y found).dev.host } } :=
  eq_of_besideFindings (Sys.each_keeps besideFindings y _ _ fun _ _ _ => event_keeps besideFindings _ (fun _ _ => rfl) _ _)

/-- What the bad-unit map holds of a unit. -/
def inMap (u : BadUnit) (d : Dev) : Prop := ∃ v ∈ d.boot.badUnits, sameUnit u v = true ∧ v.test = true ∧ v.thisStart = true

theorem sameUnit_iff {u v : BadUnit} : sameUnit u v = true ↔ u.kind = v.kind ∧ u.site = v.site ∧ u.index = v.index := by
  simp only [sameUnit, Bool.and_eq_true, beq_iff_eq, and_assoc]

/-- A finding of the test enters the map with its source. -/
theorem mergeUnit_testUnit (l : List BadUnit) (u : BadUnit) :
    ∃ v ∈ mergeUnit l (testUnit u), sameUnit u v = true ∧ v.test = true ∧ v.thisStart = true := by
  unfold mergeUnit
  split
  next h =>
    obtain ⟨w, hw, hsame⟩ := List.any_eq_true.mp h
    refine ⟨_, List.mem_map.mpr ⟨w, hw, if_pos hsame⟩, sameUnit_iff.mpr ?_, Bool.or_true _, Bool.or_true _⟩
    exact sameUnit_iff.mp hsame
  next => exact ⟨_, List.mem_append_right _ (List.mem_singleton_self _), sameUnit_iff.mpr ⟨rfl, rfl, rfl⟩, rfl, rfl⟩

/-- What the map holds stays in it as other findings enter. -/
theorem mergeUnit_keeps {l : List BadUnit} {u w : BadUnit}
    (h : ∃ v ∈ l, sameUnit u v = true ∧ v.test = true ∧ v.thisStart = true) :
    ∃ v ∈ mergeUnit l w, sameUnit u v = true ∧ v.test = true ∧ v.thisStart = true := by
  obtain ⟨v, hv, hsame, htest, hstart⟩ := h
  unfold mergeUnit
  split
  · refine ⟨_, List.mem_map.mpr ⟨v, hv, rfl⟩, ?_⟩
    split
    · exact ⟨hsame, by simp [htest], by simp [hstart]⟩
    · exact ⟨hsame, htest, hstart⟩
  · exact ⟨v, List.mem_append_left _ hv, hsame, htest, hstart⟩

theorem addFindings_inMap {found : List BadUnit} {u : BadUnit} (hu : u ∈ found) : inMap u (addFindings y found).dev := by
  refine (Sys.each_establishes (fun _ => True) (fun u z => inMap u z.dev) trivial (fun _ _ _ => trivial) (fun z u _ _ => ?_)
    (fun z a b _ hb => ?_)).2 u hu
  · unfold inMap
    rw [event_boot]
    exact mergeUnit_testUnit _ _
  · unfold inMap
    rw [event_boot]
    exact mergeUnit_keeps hb

end Sys2Proof.Machine
end

section
/-! PROOF. The boot steps that end the start-up of the memories (R284, R285, R287, R307, R397, R403, R408, R410). -/

-- One proof after another: elaborated in parallel, the text as a whole needs more memory than the check allows.
set_option Elab.async false

namespace Sys2Proof.Machine

variable {y : Sys}

/- SELFTEST and DRAM_INIT. -/

/-- The routers in service after the findings of a self-test. -/
def routersTested (y : Sys) : Sys :=
  y.onNoc fun n => { n with failed := badRouters y.dev, ccSingle := (badRouters y.dev).contains 8 || (badRouters y.dev).contains 9 }

/-- The halves that the bad-unit map leaves unusable are out of service. -/
def halvesTested (y : Sys) : Sys :=
  y.each [0, 1] fun y h => if halfUsable y.dev h then y else y.onHalf h fun x => { x with state := 0, idleElectric := true }

theorem halvesTested_keeps {α : Type} (v : Sys → α) (hHost : ∀ z f, v (Sys.onHost z f) = v z) (y : Sys) : v (halvesTested y) = v y :=
  Sys.each_keeps v y _ _ fun z h _ => by split <;> first | rfl | exact hHost z _

theorem selftestComplete_eq {found : List BadUnit} {bad : Bool} (hbusy : stepBusy y.dev 1 = true) (hleft : defectsLeft y.dev = false) :
    selftestComplete found bad y =
      let w := addFindings y found
      let z := halvesTested (routersTested w)
      if bad then stepFail z 1 3 true
      else if !meshUsable (badRouters w.dev) then stepFail (event z 0x0602 (leBytes 4 (maskOf (badRouters w.dev)))) 1 3 true
      else stepDone z := by
  unfold selftestComplete
  exact if_neg (by simp [hbusy, hleft])

theorem dramInitComplete_eq {found : List BadUnit} (hbusy : stepBusy y.dev 2 = true) :
    dramInitComplete found y =
      let z := (addFindings y found).onBoot fun b => { b with selfRefresh := false }
      if (List.range 18).any (memUsable z.dev) then stepDone z else stepFail z 2 4 true := by
  unfold dramInitComplete
  exact if_neg (by simp [hbusy])

/-- What the self-test leaves before it ends: the findings in the map, the failed routers, and the step still running. -/
theorem halvesTested_addFindings (y : Sys) (found : List BadUnit) :
    let w := addFindings y found
    let z := halvesTested (routersTested w)
    z.dev.noc.failed = badRouters w.dev ∧ z.dev.boot = w.dev.boot ∧ z.log = y.log ∧ z.dev.boot.busyStep = y.dev.boot.busyStep := by
  intro w z
  have hboot : z.dev.boot = w.dev.boot := halvesTested_keeps (fun z => z.dev.boot) (fun _ _ => rfl) _
  have hlog : z.log = w.log := halvesTested_keeps Sys.log (fun _ _ => rfl) _
  refine ⟨halvesTested_keeps (fun z => z.dev.noc.failed) (fun _ _ => rfl) _, hboot, hlog.trans ?_, ?_⟩
  · simp only [w]; rw [addFindings_eq]
  · rw [hboot]; simp only [w]; rw [addFindings_eq]

/- FILL. -/

/-- The keys that FILL makes zero for a site: its buffer, and at a cold start its DRAM (R284, R285). -/
def fills (warm : Bool) (site k : Nat) : Prop :=
  (bufKey site 0 ≤ k ∧ k < bufKey site 0 + bufBytes) ∨ (warm = false ∧ dramKey site 0 ≤ k ∧ k < dramKey site 0 + colBytes)

/-- One site is filled. -/
def fillSite (warm : Bool) (y : Sys) (site : Nat) : Sys := fillBuffer (if warm then y else fillDram y site) site

theorem get_fillSite (warm : Bool) (y : Sys) (site k : Nat) : (fills warm site k → (fillSite warm y site).get k = 0) ∧
    (¬ fills warm site k → (fillSite warm y site).get k = y.get k) := by
  have hbuf : (fillSite warm y site).get k = if bufKey site 0 ≤ k ∧ k < bufKey site 0 + bufBytes then 0
      else (if warm then y else fillDram y site).get k := Sys.get_zero
  have hdram : (if warm then y else fillDram y site).get k =
      if warm = false ∧ dramKey site 0 ≤ k ∧ k < dramKey site 0 + colBytes then 0 else y.get k := by
    cases warm
    · simp only [true_and]; exact Sys.get_zero
    · simp
  rw [hbuf, hdram]
  unfold fills
  constructor
  · rintro (h | h)
    · rw [if_pos h]
    · rw [if_pos h, ite_self]
  · intro h
    rw [if_neg fun hb => h (.inl hb), if_neg fun hd => h (.inr hd)]

theorem get_fillSites (warm : Bool) (l : List Nat) (y : Sys) (k : Nat) :
    ((∃ site ∈ l, fills warm site k) → (y.each l (fillSite warm)).get k = 0) ∧
    ((∀ site ∈ l, ¬ fills warm site k) → (y.each l (fillSite warm)).get k = y.get k) := by
  constructor
  · rintro ⟨site, hl, hs⟩
    refine (Sys.each_establishes (fun _ => True) (fun a z => fills warm a k → z.get k = 0) trivial (fun _ _ _ => trivial)
      (fun z a _ _ ha => (get_fillSite warm z a k).1 ha) (fun z a b _ hb hfb => ?_)).2 site hl hs
    by_cases ha : fills warm a k
    · exact (get_fillSite warm z a k).1 ha
    · rw [(get_fillSite warm z a k).2 ha, hb hfb]
  · exact fun h => Sys.each_keeps (fun z => z.get k) y l (fillSite warm) fun z a ha => (get_fillSite warm z a k).2 (h a ha)

theorem fillComplete_eq {beats : Nat} {expired : Bool} (hbusy : stepBusy y.dev 3 = true) :
    fillComplete beats expired y =
      if expired || decide (fillBound y.dev.boot.warmStart < beats) then stepFail y 3 5 true
      else stepDone ((y.each ((List.range 18).filter (memUsable y.dev)) (fillSite y.dev.boot.warmStart)).onProt fun p =>
        { p with fillDone := true, fillBeats := beats }) := by
  unfold fillComplete
  exact if_neg (by simp [hbusy])

/-- A loop of fills changes the protection unit and the memories only. -/
theorem fillSites_keeps {α : Type} (v : Sys → α) (hProt : ∀ z f, v (Sys.onProt z f) = v z) (hzero : ∀ z k n, v (Sys.zero z k n) = v z)
    (warm : Bool) (l : List Nat) (y : Sys) : v (y.each l (fillSite warm)) = v y := by
  refine Sys.each_keeps v y l (fillSite warm) fun z site _ => ?_
  have hbuf : ∀ z : Sys, v (fillBuffer z site) = v z := fun z => by unfold fillBuffer; rw [hProt, hzero]
  have hdram : v (fillDram z site) = v z := by unfold fillDram; rw [hProt, hzero]
  unfold fillSite
  rw [hbuf]
  cases warm
  · exact hdram
  · rfl

/-- The buffer and the DRAM of one site are another's nowhere. -/
theorem fills_bufKey {warm : Bool} {a site i : Nat} (ha : a < 18) (hs : site < 18) (hi : i < bufBytes) :
    fills warm a (bufKey site i) ↔ a = site := by
  unfold fills bufKey dramKey bufBytes colBytes
  unfold bufBytes at hi
  constructor
  · omega
  · rintro rfl; left; omega

theorem fills_dramKey {warm : Bool} {a site i : Nat} (ha : a < 18) (hs : site < 18) (hi : i < colBytes) :
    fills warm a (dramKey site i) ↔ a = site ∧ warm = false := by
  unfold fills bufKey dramKey bufBytes colBytes
  unfold colBytes at hi
  constructor
  · rintro (h | ⟨h, h'⟩)
    · omega
    · exact ⟨by omega, h⟩
  · rintro ⟨rfl, h⟩; right; exact ⟨h, by omega⟩

theorem not_fills_high {warm : Bool} {a k : Nat} (ha : a < 18) (hk : 2 ^ 42 ≤ k) : ¬ fills warm a k := by
  unfold fills bufKey dramKey bufBytes colBytes
  omega

/- CHECKER. -/

theorem enterPower_boot (y : Sys) (p : PowerState) : (enterPower y p).dev.boot = { y.dev.boot with power := p } := by
  unfold enterPower
  split
  next h => rw [← h]
  next => rw [event_boot]; rfl

/-- What the assignment of columns leaves alone. -/
def besideColumns (y : Sys) : Prot × Noc × List MemOp × PowerState × Nat × List Nat × List Nat :=
  (y.dev.prot, y.dev.noc, y.log, y.dev.boot.power, y.dev.boot.busyStep, y.dev.boot.coreOk, y.dev.boot.memOk)

theorem markCores_keeps {α : Type} (v : Sys → α) (hCore : ∀ z i f, v (Sys.onCore z i f) = v z) (y : Sys) : v (markCores y) = v y :=
  Sys.each_keeps v y _ _ fun z _ _ => hCore z _ _

theorem renumberSpares_keeps {α : Type} (v : Sys → α) (hMap : ∀ z f, v (Sys.onMap z f) = v z) (y : Sys) (l : List Nat) :
    v (renumberSpares y l) = v y := by
  unfold renumberSpares; exact hMap _ _

theorem assignCols_besideColumns (y : Sys) (sites : List Nat) : besideColumns (assignCols y sites) = besideColumns y := by
  unfold assignCols
  rw [renumberSpares_keeps besideColumns fun _ _ => rfl, markCores_keeps besideColumns fun _ _ _ => rfl]
  rfl

theorem provisionalMap_besideColumns (y : Sys) : besideColumns (provisionalMap y) = besideColumns y :=
  assignCols_besideColumns _ _

theorem keepMap_besideColumns (y : Sys) : besideColumns (keepMap y) = besideColumns y := by
  unfold keepMap
  rw [renumberSpares_keeps besideColumns fun _ _ => rfl, markCores_keeps besideColumns fun _ _ _ => rfl,
    Sys.each_keeps besideColumns _ _ _ fun z _ _ => event_keeps besideColumns z (fun _ _ => rfl) _ _]
  rfl

/-- The sites of a new assignment (R228, R410). -/
theorem assignCols_map (y : Sys) (sites : List Nat) : (assignCols y sites).dev.map.n = sites.length ∧
    ∀ c, c < 16 → siteOf (assignCols y sites).dev c = nth sites c 0 := by
  have hmap : ∀ z : Sys, (markCores z).dev.map = z.dev.map := markCores_keeps (fun z => z.dev.map) fun _ _ _ => rfl
  unfold assignCols renumberSpares
  refine ⟨?_, fun c hc => ?_⟩
  · simp only [Sys.onMap_map, hmap]
  · simp only [siteOf, Sys.onMap_map, hmap]
    simp [nth, hc]

/-- The sites that no finding excludes (R408, R410). -/
def soundSites (d : Dev) : List Nat := (List.range 18).filter fun k => memUsable d k && coreUsable d k

theorem mem_soundSites {d : Dev} {k : Nat} : k ∈ soundSites d ↔ k < 18 ∧ memUsable d k = true ∧ coreUsable d k = true := by
  simp [soundSites]

/-- Memory is usable at a site with its router in service and no failed checker. -/
theorem memUsable_parts {d : Dev} {k : Nat} (h : memUsable d k = true) :
    routerUsable d.noc.failed k = true ∧ (unitsOf d 7 k).isEmpty = true := by
  simp only [memUsable, Bool.and_eq_true] at h
  obtain ⟨⟨⟨⟨⟨⟨⟨hrouter, hchecker⟩, _⟩, _⟩, _⟩, _⟩, _⟩, _⟩ := h
  exact ⟨hrouter, hchecker⟩

theorem routerUsable_of_memUsable {d : Dev} {k : Nat} (h : memUsable d k = true) : routerUsable d.noc.failed k = true :=
  (memUsable_parts h).1

theorem not_mem_failed_of_memUsable {y : Sys} {failed : List Nat} {k : Nat}
    (h : memUsable (addFindings y (failed.map fun x => ⟨7, x, 0, false, false, false, false⟩)).dev k = true) : k ∉ failed := by
  intro hk
  obtain ⟨v, hv, hsame, _⟩ := addFindings_inMap (y := y) (List.mem_map_of_mem
    (f := fun x => (⟨7, x, 0, false, false, false, false⟩ : BadUnit)) hk)
  obtain ⟨hkind, hsite, _⟩ := sameUnit_iff.mp hsame
  have hempty := (memUsable_parts h).2
  rw [List.isEmpty_iff, unitsOf, List.map_eq_nil_iff, List.filter_eq_nil_iff] at hempty
  exact hempty v hv (by simp [← hkind, ← hsite])

/-- The answers to the vectors are taken: failed checkers are findings, and the sound sites are noted (R288, R289, R408). -/
def answersTaken (failed : List Nat) (y : Sys) : Sys :=
  let w := addFindings y (failed.map fun s => ⟨7, s, 0, false, false, false, false⟩)
  (w.onProt fun p => { p with selfDone := true, selfFail := !failed.isEmpty, selfSites := failed }).onBoot fun b => { b with
    memOk := (List.range 18).filter (memUsable w.dev), coreOk := (List.range 18).filter (coreUsable w.dev) }

/-- Columns have their sites: as the kept map says at a warm start, anew at a cold one (R410, R411). -/
def columnsGiven (y : Sys) : Sys := if y.dev.boot.warmStart then keepMap y else provisionalMap y

theorem columnsGiven_besideColumns (y : Sys) : besideColumns (columnsGiven y) = besideColumns y := by
  unfold columnsGiven
  split
  · exact keepMap_besideColumns y
  · exact provisionalMap_besideColumns y

theorem checkerComplete_eq {failed : List Nat} (hbusy : stepBusy y.dev 4 = true) :
    checkerComplete failed y =
      let z := columnsGiven (answersTaken failed y)
      if !(List.range 18).any (canCarry z.dev) then stepFail z 4 9 true
      else enterPower ((stepDone (writeMap z)).onBoot fun b => { b with reachedMem := true }) .memReady := by
  unfold checkerComplete
  exact if_neg (by simp [hbusy])

/-- After the answers a site can carry a column when its memory and its core are usable. -/
theorem canCarry_answersTaken {failed : List Nat} {z : Sys} (h : besideColumns z = besideColumns (answersTaken failed y)) {k : Nat}
    (hk : k < 18) : canCarry z.dev k =
      (memUsable (addFindings y (failed.map fun x => ⟨7, x, 0, false, false, false, false⟩)).dev k &&
        coreUsable (addFindings y (failed.map fun x => ⟨7, x, 0, false, false, false, false⟩)).dev k) := by
  have hnoc : z.dev.noc = (answersTaken failed y).dev.noc := congrArg (fun x => x.2.1) h
  have hcore : z.dev.boot.coreOk = (answersTaken failed y).dev.boot.coreOk := congrArg (fun x => x.2.2.2.2.2.1) h
  have hmem : z.dev.boot.memOk = (answersTaken failed y).dev.boot.memOk := congrArg (fun x => x.2.2.2.2.2.2) h
  rw [canCarry, hnoc, hcore, hmem]
  simp only [answersTaken, Sys.onBoot_boot, Sys.onBoot_noc, Sys.onProt_noc]
  generalize (addFindings y (failed.map fun x => ⟨7, x, 0, false, false, false, false⟩)).dev = d
  cases hm : memUsable d k
  · simp [hm]
  · rw [routerUsable_of_memUsable hm]
    simp [hk, hm, Bool.and_comm]

/-- At a cold start the first sixteen sound sites carry the columns, in increasing order (R410). -/
theorem siteOf_columnsGiven {failed : List Nat} (hcold : y.dev.boot.warmStart = false) :
    let d := (addFindings y (failed.map fun x => ⟨7, x, 0, false, false, false, false⟩)).dev
    let z := columnsGiven (answersTaken failed y)
    z.dev.map.n = ((soundSites d).take 16).length ∧ ∀ c, c < 16 → siteOf z.dev c = nth ((soundSites d).take 16) c 0 := by
  intro d z
  have hwarm : (answersTaken failed y).dev.boot.warmStart = false := by
    simp only [answersTaken, Sys.onBoot_boot, Sys.onProt_boot]
    rw [addFindings_eq, ← hcold]
  have hz : z = provisionalMap (answersTaken failed y) := if_neg (by rw [hwarm]; exact Bool.false_ne_true)
  have hok : (List.range 18).filter (canCarry (answersTaken failed y).dev) = soundSites d :=
    List.filter_congr fun k hk => canCarry_answersTaken rfl (List.mem_range.mp hk)
  rw [hz, provisionalMap, hok]
  exact assignCols_map _ _

theorem pairwise_soundSites (d : Dev) : (soundSites d).Pairwise (· < ·) := List.Pairwise.filter _ List.pairwise_lt_range

/-- Columns that have the sound sites in order: one to sixteen of them, each on a sound site above the one before (R408, R410). -/
theorem columns_sound {failed : List Nat} {d e : Dev}
    (hd : d = (addFindings y (failed.map fun x => ⟨7, x, 0, false, false, false, false⟩)).dev)
    (hn : e.map.n = ((soundSites d).take 16).length) (hof : ∀ c, c < 16 → siteOf e c = nth ((soundSites d).take 16) c 0)
    (hsome : ∃ k, k < 18 ∧ memUsable d k = true ∧ coreUsable d k = true) :
    1 ≤ e.map.n ∧ e.map.n ≤ 16 ∧ ∀ c, c < e.map.n → memUsable d (siteOf e c) = true ∧ coreUsable d (siteOf e c) = true ∧
      siteOf e c ∉ failed ∧ ∀ c', c' < c → siteOf e c' < siteOf e c := by
  obtain ⟨k, hsound⟩ := hsome
  have hlen : ((soundSites d).take 16).length ≤ 16 := List.length_take_le _ _
  have hat : ∀ c, c < e.map.n → ∃ h : c < ((soundSites d).take 16).length, siteOf e c = ((soundSites d).take 16)[c] := fun c hc => by
    refine ⟨by omega, ?_⟩
    rw [hof c (by omega), nth, List.getElem?_eq_getElem (by omega)]
    rfl
  refine ⟨?_, by omega, fun c hc => ?_⟩
  · have hpos : 0 < (soundSites d).length := List.length_pos_of_mem (mem_soundSites.mpr hsound)
    rw [hn, List.length_take]
    omega
  · obtain ⟨hlt, hsc⟩ := hat c hc
    have hin : siteOf e c ∈ soundSites d := by rw [hsc]; exact List.mem_of_mem_take (List.getElem_mem hlt)
    obtain ⟨_, hm, hcu⟩ := mem_soundSites.mp hin
    refine ⟨hm, hcu, not_mem_failed_of_memUsable (by rw [← hd]; exact hm), fun c' hc' => ?_⟩
    obtain ⟨hlt', hsc'⟩ := hat c' (by omega)
    rw [hsc, hsc']
    exact List.pairwise_iff_getElem.mp (List.Pairwise.sublist (List.take_sublist _ _) (pairwise_soundSites d)) _ _ _ _ hc'

theorem answersTaken_runs (failed : List Nat) (y : Sys) : (answersTaken failed y).log = y.log ∧
    (answersTaken failed y).dev.boot.power = y.dev.boot.power ∧ (answersTaken failed y).dev.boot.busyStep = y.dev.boot.busyStep := by
  unfold answersTaken
  rw [addFindings_eq]
  exact ⟨rfl, rfl, rfl⟩

end Sys2Proof.Machine

namespace Sys2Proof

open Machine

variable {s : State}

/-- SELFTEST ends with the routers that the findings leave in service, or is fatal (R307, R403). -/
theorem completes_selftestComplete {found : List BadUnit} (hbusy : stepBusy s.dev 1 = true) (hleft : defectsLeft s.dev = false) :
    let failed := badRouters (addFindings s.work found).dev
    (meshUsable failed = true → Completes (.selftestComplete found false) s fun t => StackOnly s t ∧
      t.dev.noc.failed = failed ∧ t.dev.boot.stepResult = 2 ∧ t.dev.boot.stepError = 0 ∧ t.dev.boot.lastDone = 1) ∧
    (meshUsable failed = false → Completes (.selftestComplete found false) s fun t => StackOnly s t ∧
      t.dev.noc.failed = failed ∧ t.dev.boot.fatal = true ∧ t.dev.boot.stepResult = 3 ∧ t.dev.boot.stepError = 3) ∧
    Completes (.selftestComplete found true) s fun t => StackOnly s t ∧ t.dev.boot.fatal = true ∧ t.dev.boot.stepResult = 3 ∧
      t.dev.boot.stepError = 3 ∧ ∀ u ∈ found, ∃ v ∈ t.dev.boot.badUnits, sameUnit u v = true ∧ v.test = true ∧ v.thisStart = true := by
  obtain ⟨hfailed, hboot, hlog, hstep⟩ := halvesTested_addFindings s.work found
  have heq := fun bad => selftestComplete_eq (y := s.work) (found := found) (bad := bad) hbusy hleft
  dsimp only at heq ⊢
  generalize halvesTested (routersTested (addFindings s.work found)) = z at heq hfailed hboot hlog hstep
  refine ⟨fun hmesh => ?_, fun hmesh => ?_, ?_⟩
  · have hz : selftestComplete found false s.work = stepDone z := by simp [heq, hmesh]
    refine completes_stackOnly (f := selftestComplete found false) rfl (by rw [hz]; exact hlog) fun t ht hdev => ⟨ht, ?_⟩
    rw [hdev, hz]
    exact ⟨hfailed, rfl, rfl, hstep.trans (beq_iff_eq.mp hbusy)⟩
  · have hz : selftestComplete found false s.work =
        stepFail (event z 0x0602 (leBytes 4 (maskOf (badRouters (addFindings s.work found).dev)))) 1 3 true := by simp [heq, hmesh]
    refine completes_stackOnly (f := selftestComplete found false) rfl ?_ fun t ht hdev => ⟨ht, ?_⟩
    · rw [hz, stepFail_keeps Sys.log (fun _ _ => rfl) (fun _ _ => rfl), event_log]; exact hlog
    · rw [hdev, hz, stepFail_boot, stepFail_keeps (fun z => z.dev.noc) (fun _ _ => rfl) (fun _ _ => rfl), event_noc]
      exact ⟨hfailed, Bool.or_true _, rfl, rfl⟩
  · have hz : selftestComplete found true s.work = stepFail z 1 3 true := by simp [heq]
    refine completes_stackOnly (f := selftestComplete found true) rfl ?_ fun t ht hdev => ⟨ht, ?_⟩
    · rw [hz, stepFail_keeps Sys.log (fun _ _ => rfl) (fun _ _ => rfl)]; exact hlog
    · rw [hdev, hz, stepFail_boot, hboot]
      exact ⟨Bool.or_true _, rfl, rfl, fun u hu => addFindings_inMap hu⟩

/-- DRAM_INIT ends well where some site has usable memory, and is fatal else (R403). -/
theorem completes_dramInitComplete {found : List BadUnit} (hbusy : stepBusy s.dev 2 = true) :
    ((∃ k, k < 18 ∧ memUsable (addFindings s.work found).dev k = true) → Completes (.dramInitComplete found) s fun t => StackOnly s t ∧
      t.dev.boot.selfRefresh = false ∧ t.dev.boot.stepResult = 2 ∧ t.dev.boot.lastDone = 2) ∧
    ((∀ k, k < 18 → memUsable (addFindings s.work found).dev k = false) → Completes (.dramInitComplete found) s fun t => StackOnly s t ∧
      t.dev.boot.fatal = true ∧ t.dev.boot.stepResult = 3 ∧ t.dev.boot.stepError = 4) := by
  have heq := dramInitComplete_eq (y := s.work) (found := found) hbusy
  have hfound := addFindings_eq s.work found
  dsimp only at heq
  have husable : ∀ k, memUsable ((addFindings s.work found).onBoot fun b => { b with selfRefresh := false }).dev k =
      memUsable (addFindings s.work found).dev k := fun _ => rfl
  constructor
  · rintro ⟨k, hk, hmem⟩
    rw [if_pos (List.any_eq_true.mpr ⟨k, List.mem_range.mpr hk, (husable k).trans hmem⟩)] at heq
    refine completes_stackOnly (f := dramInitComplete found) rfl ?_ fun t ht hdev => ⟨ht, ?_⟩
    · rw [heq, hfound]; rfl
    · rw [hdev, heq, hfound]
      exact ⟨rfl, rfl, beq_iff_eq.mp hbusy⟩
  · intro hnone
    rw [if_neg (by simpa [husable] using hnone)] at heq
    refine completes_stackOnly (f := dramInitComplete found) rfl ?_ fun t ht hdev => ⟨ht, ?_⟩
    · rw [heq, stepFail_keeps Sys.log (fun _ _ => rfl) (fun _ _ => rfl), hfound]; rfl
    · rw [hdev, heq, stepFail_boot]
      exact ⟨Bool.or_true _, rfl, rfl⟩

/-- FILL leaves zeros in every usable buffer and, at a cold start, in every usable DRAM (R284, R285). -/
theorem completes_memoryFillComplete {beats : Nat} (hbusy : stepBusy s.dev 3 = true) (hin : beats ≤ fillBound s.dev.boot.warmStart)
    (hwf : s.mem.wf = true) : Completes (.memoryFillComplete beats false) s fun t => KeepsPins s t ∧
      t.dev.prot.fillDone = true ∧ t.dev.prot.fillBeats = beats ∧ t.dev.boot.stepResult = 2 ∧ t.dev.boot.lastDone = 3 ∧
      (∀ site i, site < 18 → memUsable s.dev site = true →
        (i < bufBytes → t.mem.get (bufKey site i) = 0) ∧
        (i < colBytes → t.mem.get (dramKey site i) = if s.dev.boot.warmStart then s.mem.get (dramKey site i) else 0)) ∧
      (∀ site i, site < 18 → memUsable s.dev site = false →
        (i < bufBytes → t.mem.get (bufKey site i) = s.mem.get (bufKey site i)) ∧
        (i < colBytes → t.mem.get (dramKey site i) = s.mem.get (dramKey site i))) ∧
      ∀ k, 2 ^ 42 ≤ k → t.mem.get k = s.mem.get k := by
  have heq := fillComplete_eq (y := s.work) (beats := beats) (expired := false) hbusy
  rw [if_neg (by simp only [Bool.false_or, decide_eq_true_eq]; exact Nat.not_lt.mpr hin)] at heq
  have hsite : ∀ site, site ∈ (List.range 18).filter (memUsable s.work.dev) ↔ site < 18 ∧ memUsable s.dev site = true :=
    fun site => by simp
  have hboot := fillSites_keeps (fun z => z.dev.boot) (fun _ _ => rfl) (fun _ _ _ => rfl) s.work.dev.boot.warmStart
    ((List.range 18).filter (memUsable s.work.dev)) s.work
  have hbase := fillSites_keeps Sys.base (fun _ _ => rfl) (fun _ _ _ => rfl) s.work.dev.boot.warmStart
    ((List.range 18).filter (memUsable s.work.dev)) s.work
  have hget := get_fillSites s.work.dev.boot.warmStart ((List.range 18).filter (memUsable s.work.dev)) s.work
  generalize s.work.each ((List.range 18).filter (memUsable s.work.dev)) (fillSite s.work.dev.boot.warmStart) = z at heq hboot hbase hget
  have hmem : ∀ k, (s.mem.applyLog (fillComplete beats false s.work).log).get k = z.get k := fun k => by
    rw [heq]; exact Sys.get_applyLog hwf hbase
  refine completes_onSys (f := fillComplete beats false) rfl ⟨⟨rfl, rfl⟩, ?_, ?_, ?_, ?_, ?_, ?_, ?_⟩
  · rw [heq]; rfl
  · rw [heq]; rfl
  · rw [heq]; rfl
  · rw [heq]
    exact (congrArg Boot.busyStep hboot).trans (beq_iff_eq.mp hbusy)
  · refine fun site i hs husable => ⟨fun hi => ?_, fun hi => ?_⟩
    · rw [hmem]
      exact (hget _).1 ⟨site, (hsite site).mpr ⟨hs, husable⟩, (fills_bufKey hs hs hi).mpr rfl⟩
    · rw [hmem]
      cases hwarm : s.dev.boot.warmStart
      · exact (hget _).1 ⟨site, (hsite site).mpr ⟨hs, husable⟩, (fills_dramKey hs hs hi).mpr ⟨rfl, hwarm⟩⟩
      · refine (hget _).2 fun a ha hf => ?_
        have hcold := ((fills_dramKey ((hsite a).mp ha).1 hs hi).mp hf).2
        rw [work_dev, hwarm] at hcold
        cases hcold
  · refine fun site i hs hun => ⟨fun hi => ?_, fun hi => ?_⟩
    · rw [hmem]
      refine (hget _).2 fun a ha hf => ?_
      obtain ⟨ha18, hau⟩ := (hsite a).mp ha
      rw [(fills_bufKey ha18 hs hi).mp hf, hun] at hau
      cases hau
    · rw [hmem]
      refine (hget _).2 fun a ha hf => ?_
      obtain ⟨ha18, hau⟩ := (hsite a).mp ha
      rw [((fills_dramKey ha18 hs hi).mp hf).1, hun] at hau
      cases hau
  · intro k hk
    rw [hmem]
    exact (hget _).2 fun a ha => not_fills_high ((hsite a).mp ha).1 hk

/-- FILL past its bound is fatal (R403). -/
theorem completes_memoryFillComplete_late {beats : Nat} {expired : Bool} (hbusy : stepBusy s.dev 3 = true)
    (hlate : expired = true ∨ fillBound s.dev.boot.warmStart < beats) :
    Completes (.memoryFillComplete beats expired) s fun t => StackOnly s t ∧
      t.dev.boot.fatal = true ∧ t.dev.boot.stepError = 5 ∧ t.dev.prot.fillDone = s.dev.prot.fillDone := by
  have heq := fillComplete_eq (y := s.work) (beats := beats) (expired := expired) hbusy
  rw [if_pos (by simp only [Bool.or_eq_true, decide_eq_true_eq]; exact hlate)] at heq
  refine completes_stackOnly (f := fillComplete beats expired) rfl ?_ fun t ht hdev => ⟨ht, ?_⟩
  · rw [heq, stepFail_keeps Sys.log (fun _ _ => rfl) (fun _ _ => rfl)]; rfl
  · rw [hdev, heq, stepFail_boot, stepFail_keeps (fun z => z.dev.prot) (fun _ _ => rfl) (fun _ _ => rfl)]
    exact ⟨Bool.or_true _, rfl, rfl⟩

/-- CHECKER leads to MEM_READY where some site can carry a column, at a cold start with the columns on the sound sites (R397, R410). -/
theorem completes_checkerComplete {answers : List CheckerAnswer} (hbusy : stepBusy s.dev 4 = true)
    {d : Dev} (hd : d = (addFindings s.work ((failedSites answers).map fun x => ⟨7, x, 0, false, false, false, false⟩)).dev)
    (hsome : ∃ k, k < 18 ∧ memUsable d k = true ∧ coreUsable d k = true) :
    Completes (.checkerComplete answers) s fun t => StackOnly s t ∧ t.dev.boot.power = .memReady ∧ t.dev.boot.reachedMem = true ∧
      t.dev.boot.stepResult = 2 ∧ t.dev.boot.lastDone = 4 ∧ t.dev.prot.selfDone = true ∧
      t.dev.prot.selfFail = !(failedSites answers).isEmpty ∧ t.dev.prot.selfSites = failedSites answers ∧
      (s.dev.boot.warmStart = false → 1 ≤ t.dev.map.n ∧ t.dev.map.n ≤ 16 ∧
        ∀ c, c < t.dev.map.n → memUsable d (siteOf t.dev c) = true ∧ coreUsable d (siteOf t.dev c) = true ∧
          siteOf t.dev c ∉ failedSites answers ∧ ∀ c', c' < c → siteOf t.dev c' < siteOf t.dev c) := by
  have heq := checkerComplete_eq (y := s.work) (failed := failedSites answers) hbusy
  have hbeside := columnsGiven_besideColumns (answersTaken (failedSites answers) s.work)
  have hcold := siteOf_columnsGiven (y := s.work) (failed := failedSites answers)
  dsimp only at heq hcold
  generalize columnsGiven (answersTaken (failedSites answers) s.work) = z at heq hbeside hcold
  obtain ⟨k, hk, hmem, hcore⟩ := hsome
  have hcarry : canCarry z.dev k = true := by
    rw [canCarry_answersTaken hbeside hk, ← hd, hmem, hcore]; rfl
  rw [if_neg (by simpa using ⟨k, hk, hcarry⟩)] at heq
  have hwrite : ∀ {α : Type} (v : Sys → α), (∀ z f, v (Sys.onHost z f) = v z) → v (writeMap z) = v z :=
    fun v h => dwrRange_keeps v z h _ _ _
  have hprot : (checkerComplete (failedSites answers) s.work).dev.prot = (answersTaken (failedSites answers) s.work).dev.prot := by
    rw [heq, enterPower_keeps (fun z => z.dev.prot) _ (fun _ _ => rfl) fun _ _ => rfl]
    exact (hwrite (fun z => z.dev.prot) fun _ _ => rfl).trans (congrArg Prod.fst hbeside)
  have hmap : (checkerComplete (failedSites answers) s.work).dev.map = z.dev.map := by
    rw [heq, enterPower_keeps (fun z => z.dev.map) _ (fun _ _ => rfl) fun _ _ => rfl]
    exact hwrite (fun z => z.dev.map) fun _ _ => rfl
  obtain ⟨hlog0, _, hbusy0⟩ := answersTaken_runs (failedSites answers) s.work
  have hlog : (checkerComplete (failedSites answers) s.work).log = [] := by
    rw [heq, enterPower_log]
    exact (hwrite Sys.log fun _ _ => rfl).trans ((congrArg (fun x => x.2.2.1) hbeside).trans hlog0)
  have hbusy4 : z.dev.boot.busyStep = 4 :=
    ((congrArg (fun x => x.2.2.2.2.1) hbeside).trans hbusy0).trans (beq_iff_eq.mp hbusy)
  refine completes_stackOnly (f := checkerComplete (failedSites answers)) rfl hlog fun t ht hdev => ⟨ht, ?_⟩
  have hcols : s.dev.boot.warmStart = false → 1 ≤ t.dev.map.n ∧ t.dev.map.n ≤ 16 ∧
      ∀ c, c < t.dev.map.n → memUsable d (siteOf t.dev c) = true ∧ coreUsable d (siteOf t.dev c) = true ∧
        siteOf t.dev c ∉ failedSites answers ∧ ∀ c', c' < c → siteOf t.dev c' < siteOf t.dev c := fun hw => by
    have htmap : t.dev.map = z.dev.map := by rw [hdev, hmap]
    have hsite : ∀ c, siteOf t.dev c = siteOf z.dev c := fun c => by rw [siteOf, htmap, siteOf]
    obtain ⟨hn, hof⟩ := hcold hw
    rw [← hd] at hn hof
    exact columns_sound hd (by rw [htmap, hn]) (fun c hc => (hsite c).trans (hof c hc)) ⟨k, hk, hmem, hcore⟩
  have htprot : t.dev.prot = (answersTaken (failedSites answers) s.work).dev.prot := by rw [hdev, hprot]
  have htboot : t.dev.boot = { (stepDone (writeMap z)).dev.boot with reachedMem := true, power := .memReady } := by
    rw [hdev, heq, enterPower_boot]; rfl
  rw [htprot, htboot]
  exact ⟨rfl, rfl, rfl, (congrArg Boot.busyStep (hwrite (fun z => z.dev.boot) fun _ _ => rfl)).trans hbusy4, rfl, rfl, rfl, hcols⟩

/-- With no site left to carry a column, CHECKER is fatal (R403). -/
theorem completes_checkerComplete_none {answers : List CheckerAnswer} (hbusy : stepBusy s.dev 4 = true) (hpower : s.dev.boot.power = .baseOn)
    {d : Dev} (hd : d = (addFindings s.work ((failedSites answers).map fun x => ⟨7, x, 0, false, false, false, false⟩)).dev)
    (hnone : ∀ k, k < 18 → memUsable d k = false ∨ coreUsable d k = false) :
    Completes (.checkerComplete answers) s fun t => StackOnly s t ∧ t.dev.boot.fatal = true ∧ t.dev.boot.stepError = 9 ∧
      t.dev.boot.power = .baseOn ∧ t.dev.prot.selfSites = failedSites answers := by
  have heq := checkerComplete_eq (y := s.work) (failed := failedSites answers) hbusy
  have hbeside := columnsGiven_besideColumns (answersTaken (failedSites answers) s.work)
  dsimp only at heq
  generalize columnsGiven (answersTaken (failedSites answers) s.work) = z at heq hbeside
  have hcarry : ∀ k, k < 18 → canCarry z.dev k = false := fun k hk => by
    rw [canCarry_answersTaken hbeside hk, ← hd]
    rcases hnone k hk with h | h <;> simp [h]
  rw [if_pos (by simpa using hcarry)] at heq
  have hkeeps : ∀ {α : Type} (v : Sys → α), (∀ z f, v (Sys.onHost z f) = v z) → (∀ z f, v (Sys.onBoot z f) = v z) →
      v (checkerComplete (failedSites answers) s.work) = v z := fun v h h' => by rw [heq, stepFail_keeps v h h']
  obtain ⟨hlog0, hpower0, _⟩ := answersTaken_runs (failedSites answers) s.work
  have hpw : z.dev.boot.power = .baseOn := ((congrArg (fun x => x.2.2.2.1) hbeside).trans hpower0).trans hpower
  refine completes_stackOnly (f := checkerComplete (failedSites answers)) rfl ?_ fun t ht hdev => ⟨ht, ?_⟩
  · exact (hkeeps Sys.log (fun _ _ => rfl) fun _ _ => rfl).trans ((congrArg (fun x => x.2.2.1) hbeside).trans hlog0)
  · have hprot : t.dev.prot = (answersTaken (failedSites answers) s.work).dev.prot := by
      rw [hdev]
      exact (hkeeps (fun z => z.dev.prot) (fun _ _ => rfl) fun _ _ => rfl).trans (congrArg Prod.fst hbeside)
    rw [hprot, hdev, heq, stepFail_boot]
    exact ⟨Bool.or_true _, rfl, hpw, rfl⟩

/-- Settles O39: SELFTEST, DRAM_INIT, FILL and CHECKER each by the lemma on its end. -/
theorem bootStepsEnd : Obligations.BootStepsEnd := by
  refine fun s => ⟨fun found hbusy hleft => completes_selftestComplete hbusy hleft, fun found hbusy => completes_dramInitComplete hbusy,
    fun hbusy beats => ⟨fun hin hwf => completes_memoryFillComplete hbusy hin hwf,
      fun expired hlate => completes_memoryFillComplete_late hbusy hlate⟩, fun answers hbusy hpower => ?_⟩
  exact ⟨fun hsome => completes_checkerComplete hbusy rfl hsome, fun hnone => completes_checkerComplete_none hbusy hpower rfl hnone⟩

end Sys2Proof
end

section
/-! PROOF. What a stop of a core or of a partition leaves alone (R396, R415, 14 Disabling with work in flight). -/

-- One proof after another: elaborated in parallel, the text as a whole needs more memory than the check allows.
set_option Elab.async false

namespace Sys2Proof.Machine

variable {α : Type}

/-- Of the counts at the sites only those of dropped messages differ. -/
def dropsOnly (y z : Sys) : Prop :=
  z.dev.noc.sites.map (fun x => { x with fenceDrops := 0 }) = y.dev.noc.sites.map fun x => { x with fenceDrops := 0 }

/-- A view that the stop of a core does not enter: the core, its row operations, the counts of what is discarded, and the status and fault
records on their way. -/
def OffHalt (v : Sys → α) : Prop :=
  ∀ y z : Sys, z = { y with dev := { y.dev with
    boot := { y.dev.boot with discards := z.dev.boot.discards, disDiscards := z.dev.boot.disDiscards }
    prot := { y.dev.prot with banks := z.dev.prot.banks, busCopies := z.dev.prot.busCopies }
    cores := z.dev.cores, faults := z.dev.faults
    sched := { y.dev.sched with runs := z.dev.sched.runs }
    noc := { y.dev.noc with sites := z.dev.noc.sites }
    host := { y.dev.host with stsOut := z.dev.host.stsOut, faultOut := z.dev.host.faultOut } } } → dropsOnly y z → v z = v y

/-- A view that the stop of a partition does not enter: besides the parts of `OffHalt` the states of partitions and stack, and the host link
with the events. -/
def OffFaultStop (v : Sys → α) : Prop :=
  ∀ y z : Sys, z = { y with dev := { y.dev with
    boot := { y.dev.boot with discards := z.dev.boot.discards, disDiscards := z.dev.boot.disDiscards, parts := z.dev.boot.parts,
                              power := z.dev.boot.power }
    prot := { y.dev.prot with banks := z.dev.prot.banks, busCopies := z.dev.prot.busCopies }
    cores := z.dev.cores, faults := z.dev.faults
    sched := { y.dev.sched with runs := z.dev.sched.runs }
    noc := { y.dev.noc with sites := z.dev.noc.sites }
    host := z.dev.host } } → dropsOnly y z → v z = v y

theorem OffFaultStop.offHalt {v : Sys → α} (h : OffFaultStop v) : OffHalt v := fun y z hz hd => h y z (by rw [hz]) hd

/-- What an update of one entry keeps of it, the list keeps. -/
theorem map_upd_view {β γ : Type} {g : β → γ} {f : β → β} (l : List β) (i : Nat) (h : ∀ x, g (f x) = g x) :
    (upd l i f).map g = l.map g := by
  refine List.ext_getElem? fun k => ?_
  simp only [upd, List.getElem?_map, List.getElem?_modify]
  cases l[k]? with
  | none => rfl
  | some x => by_cases hik : i = k <;> simp [hik, h]

namespace OffHalt

variable {v : Sys → α} (h : OffHalt v) (y : Sys)

include h

theorem core (s : Nat) (f : Core → Core) : v (y.onCore s f) = v y := h y _ rfl rfl

theorem faultRec (f : FaultInfo) : v (faultRec y f) = v y := h y _ rfl rfl

theorem sendStatus (site : Nat) (s : StepRun) : v (sendStatus y site s) = v y := by
  unfold Machine.sendStatus
  dsimp only
  generalize sentRecord _ _ _ _ = r
  have hdrop : v (y.when (y.dev.noc.fenced.contains site) fun y => y.onSiteNoc site fun n =>
      { n with fenceDrops := sat32 (n.fenceDrops + 1) }) = v y :=
    Sys.when_keeps v y _ _ (h y _ rfl (map_upd_view _ _ fun _ => rfl))
  rw [← hdrop]
  exact h (y.when _ _) _ rfl rfl

theorem recordStep (site : Nat) (s : StepRun) (w : Nat) : v (recordStep y site s w) = v y := by
  unfold Machine.recordStep
  exact (Sys.when_keeps v _ _ _ (h.faultRec _ _)).trans (Sys.when_keeps v y _ _ (h.sendStatus _ _ _))

theorem endStep (site i o w cyc : Nat) : v (endStep y site i o w cyc) = v y := by
  simp only [Machine.endStep]
  split
  · rfl
  · exact (h.recordStep _ _ _ _).trans (h y _ rfl rfl)

theorem abandonReplay (site o : Nat) : v (abandonReplay y site o) = v y := by
  simp only [Machine.abandonReplay]
  split
  · rfl
  · exact (h.core _ _ _).trans (h.faultRec _ _)

theorem dropRowOps (site : Nat) : v (dropRowOps y site) = v y := h y _ rfl rfl

theorem stopCore (site q : Nat) : v (stopCore y site q) = v y := by
  refine (h.core _ _ _).trans ((Sys.each_keeps v _ _ _ fun z _ _ => h.endStep _ _ _ _ _ _).trans ?_)
  exact (h.dropRowOps _ _).trans (h.abandonReplay _ _ _)

theorem stopPart (q k : Nat) : v (stopPart y q k) = v y := by
  unfold Machine.stopPart
  rw [← Sys.each_keeps v y (colsOf y q) _ fun z c _ => h.stopCore z (siteOf z.dev c) k]
  exact h (y.each _ _) _ rfl rfl

end OffHalt

namespace OffFaultStop

variable {v : Sys → α} (h : OffFaultStop v) (y : Sys)

include h

theorem event (code : Nat) (data : List Byte) : v (event y code data) = v y := by
  rw [event_eq_onHost]
  exact h y _ rfl rfl

theorem enterPower (p : PowerState) : v (enterPower y p) = v y := by
  unfold Machine.enterPower
  split
  · rfl
  · exact (h.event _ _ _).trans (h y _ rfl rfl)

theorem settlePower : v (settlePower y) = v y := by
  unfold Machine.settlePower
  split
  · exact h.enterPower _ _
  · rfl

theorem setPart (q : Nat) (p : PartState) : v (setPart y q p) = v y := (h.settlePower _).trans (h y _ rfl rfl)

theorem faultStop (q : Nat) : v (faultStop y q) = v y := by
  unfold Machine.faultStop
  split
  · rfl
  · exact (h.setPart _ _ _).trans (h.offHalt.stopPart _ _ _)

theorem faultStopAll : v (faultStopAll y) = v y := Sys.each_keeps v y _ _ fun _ _ _ => h.faultStop _ _

end OffFaultStop

/- Events are counted and never taken back (R377). -/

theorem enterPower_evtSeq_le (y : Sys) (p : PowerState) : y.dev.host.evtSeq ≤ (enterPower y p).dev.host.evtSeq := by
  unfold enterPower
  split
  · exact Nat.le_refl _
  · exact Nat.le_trans (Nat.le_succ _) (Nat.le_of_eq (event_evtSeq _ _ _).symm)

theorem setPart_evtSeq_le (y : Sys) (q : Nat) (p : PartState) : y.dev.host.evtSeq ≤ (setPart y q p).dev.host.evtSeq := by
  unfold setPart
  generalize hz : (y.onBoot fun b => { b with parts := b.parts.set q p }) = z
  have hseq : z.dev.host.evtSeq = y.dev.host.evtSeq := by rw [← hz]; rfl
  rw [← hseq]
  unfold settlePower
  split
  · exact enterPower_evtSeq_le _ _
  · exact Nat.le_refl _

theorem faultStop_evtSeq_le (y : Sys) (q : Nat) : y.dev.host.evtSeq ≤ (faultStop y q).dev.host.evtSeq := by
  have hoff : OffHalt fun z : Sys => z.dev.host.evtSeq := fun y z hz _ => by rw [hz]
  unfold faultStop
  split
  · exact Nat.le_refl _
  · exact Nat.le_trans (Nat.le_of_eq (hoff.stopPart y q 3).symm) (setPart_evtSeq_le _ _ _)

/- A fenced core (R318). -/

/-- The core is marked as fenced, and as not cleaned. -/
def markFenced (y : Sys) (site : Nat) : Sys :=
  (y.onNoc fun n => { n with fenced := addTo n.fenced site }).onBoot fun b => { b with cleanSites := takeOut b.cleanSites site }

/-- A fence stops the core, and its partition where that is live. -/
theorem fenceCore_cases (y : Sys) (site : Nat) : fenceCore y site = stopCore (markFenced y site) site 3 ∨
    ∃ q, fenceCore y site = faultStop (stopCore (markFenced y site) site 3) q := by
  unfold fenceCore
  cases hpart : partOfSite y site with
  | none => exact .inl rfl
  | some q =>
    dsimp only
    split
    · exact .inr ⟨q, rfl⟩
    · exact .inl rfl

/-- What the fence of a core leaves alone: what a stop does, when the two marks do. -/
theorem OffFaultStop.fenceCore {v : Sys → α} (h : OffFaultStop v) (y : Sys) (site : Nat) : v (fenceCore y site) = v (markFenced y site) := by
  rcases fenceCore_cases y site with heq | ⟨q, heq⟩
  · rw [heq, h.offHalt.stopCore]
  · rw [heq, h.faultStop, h.offHalt.stopCore]

theorem fenceCore_fenced (y : Sys) (site : Nat) : (fenceCore y site).dev.noc.fenced = addTo y.dev.noc.fenced site :=
  OffFaultStop.fenceCore (v := fun z : Sys => z.dev.noc.fenced) (fun y z hz _ => by rw [hz]) y site

theorem fenceCore_evtSeq_le (y : Sys) (site : Nat) : y.dev.host.evtSeq ≤ (fenceCore y site).dev.host.evtSeq := by
  have hoff : OffHalt fun z : Sys => z.dev.host.evtSeq := fun y z hz _ => by rw [hz]
  have hstop := hoff.stopCore (markFenced y site) site 3
  rcases fenceCore_cases y site with heq | ⟨q, heq⟩
  · rw [heq]; exact Nat.le_of_eq hstop.symm
  · rw [heq]; exact Nat.le_trans (Nat.le_of_eq hstop.symm) (faultStop_evtSeq_le _ _)

/- Lists that are used as sets, and keyed lists. -/

theorem mem_addTo {l : List Nat} {a x : Nat} : a ∈ addTo l x ↔ a ∈ l ∨ a = x := by
  unfold addTo
  split
  next h =>
    have hx : x ∈ l := by simpa using h
    exact ⟨.inl, fun h => h.elim id fun he => he ▸ hx⟩
  next => simp

theorem mem_takeOut {l : List Nat} {a x : Nat} : a ∈ takeOut l x ↔ a ∈ l ∧ a ≠ x := by simp [takeOut]

theorem assoc_cons {β : Type} (p : Nat × β) (l : List (Nat × β)) (k : Nat) :
    assoc (p :: l) k = if p.1 = k then some p.2 else assoc l k := by
  by_cases h : p.1 = k <;> simp [assoc, h]

theorem assoc_filter_ne {β : Type} (l : List (Nat × β)) {k j : Nat} (h : j ≠ k) : assoc (l.filter fun p => p.1 != k) j = assoc l j := by
  induction l with
  | nil => rfl
  | cons p l ih =>
    by_cases hp : p.1 = k
    · rw [List.filter_cons_of_neg (by simp [hp]), ih, assoc_cons, if_neg (by rw [hp]; exact h.symm)]
    · rw [List.filter_cons_of_pos (by simpa using hp), assoc_cons, assoc_cons, ih]

theorem assoc_assocSet {β : Type} (l : List (Nat × β)) (k : Nat) (v : β) (j : Nat) :
    assoc (assocSet l k v) j = if k = j then some v else assoc l j := by
  rw [assocSet, assoc_cons]
  by_cases h : k = j
  · rw [if_pos h, if_pos h]
  · rw [if_neg h, if_neg h, assoc_filter_ne l fun hj => h hj.symm]

theorem assoc_assocDel {β : Type} (l : List (Nat × β)) (k j : Nat) : assoc (assocDel l k) j = if k = j then none else assoc l j := by
  by_cases h : k = j
  · subst h
    rw [if_pos rfl, assocDel, assoc, List.find?_eq_none.mpr (by simp)]
    rfl
  · rw [if_neg h, assocDel, assoc_filter_ne l fun hj => h hj.symm]

end Sys2Proof.Machine
end

section
/-! PROOF. Core waves and the delivery of the column firmware (R109, R410, R411, R414, R438, R439). -/

-- One proof after another: elaborated in parallel, the text as a whole needs more memory than the check allows.
set_option Elab.async false

namespace Sys2Proof.Machine

variable {y z : Sys} {site x : Nat}

/- Ramps. -/

theorem railOn_powered (y : Sys) (site : Nat) : (railOn y site).dev.boot.powered = addTo y.dev.boot.powered site := rfl

/-- One site of a wave is ramped, its core fenced. -/
def rampFenced (y : Sys) (site : Nat) : Sys :=
  if (fenceCore y site).dev.power.clocksStopped then fenceCore y site else railOn (fenceCore y site) site

/-- What a ramp of a wave leaves alone. -/
def besideRamp (y : Sys) : Power × Nat × List MemOp := ({ y.dev.power with sites := [] }, y.dev.boot.wave, y.log)

theorem railOn_besideRamp (y : Sys) (site : Nat) : besideRamp (railOn y site) = besideRamp y := rfl

theorem offFaultStop_besideRamp : OffFaultStop besideRamp := fun y z hz _ => by rw [hz]; rfl

theorem rampFenced_besideRamp (y : Sys) (site : Nat) : besideRamp (rampFenced y site) = besideRamp y := by
  unfold rampFenced
  split
  · exact offFaultStop_besideRamp.fenceCore y site
  · rw [railOn_besideRamp]
    exact offFaultStop_besideRamp.fenceCore y site

theorem fenceCore_powered (y : Sys) (site : Nat) : (fenceCore y site).dev.boot.powered = y.dev.boot.powered :=
  OffFaultStop.fenceCore (v := fun z : Sys => z.dev.boot.powered) (fun y z hz _ => by rw [hz]) y site

theorem rampFenced_fenced (y : Sys) (site : Nat) : (rampFenced y site).dev.noc.fenced = addTo y.dev.noc.fenced site := by
  unfold rampFenced
  split
  · exact fenceCore_fenced y site
  · exact fenceCore_fenced y site

theorem rampFenced_powered (hclocks : y.dev.power.clocksStopped = false) :
    (rampFenced y site).dev.boot.powered = addTo y.dev.boot.powered site := by
  have hsame := offFaultStop_besideRamp.fenceCore y site
  have hclocks' : (fenceCore y site).dev.power.clocksStopped = false := (congrArg (fun v => v.1.clocksStopped) hsame).trans hclocks
  rw [rampFenced, if_neg (by rw [hclocks']; exact Bool.false_ne_true), railOn_powered, fenceCore_powered]

/-- Every site of the wave is powered and fenced (R414). -/
theorem each_rampFenced (l : List Nat) (hclocks : y.dev.power.clocksStopped = false) :
    besideRamp (y.each l rampFenced) = besideRamp y ∧
    ∀ x ∈ l, x ∈ (y.each l rampFenced).dev.boot.powered ∧ x ∈ (y.each l rampFenced).dev.noc.fenced := by
  have h := Sys.each_establishes (y := y) (l := l) (f := rampFenced) (fun z => besideRamp z = besideRamp y)
    (fun x z => x ∈ z.dev.boot.powered ∧ x ∈ z.dev.noc.fenced) rfl (fun z a hz => (rampFenced_besideRamp z a).trans hz)
    (fun z a hz _ => ?_) (fun z a b hz hb => ?_)
  · exact h
  · have hstop : z.dev.power.clocksStopped = false := (congrArg (fun v => v.1.clocksStopped) hz).trans hclocks
    rw [rampFenced_powered hstop, rampFenced_fenced]
    exact ⟨mem_addTo.mpr (.inr rfl), mem_addTo.mpr (.inr rfl)⟩
  · have hstop : z.dev.power.clocksStopped = false := (congrArg (fun v => v.1.clocksStopped) hz).trans hclocks
    rw [rampFenced_powered hstop, rampFenced_fenced]
    exact ⟨mem_addTo.mpr (.inl hb.1), mem_addTo.mpr (.inl hb.2)⟩

theorem waveRamp_eq (hbusy : y.dev.boot.wavesBusy = true) (hramped : y.dev.boot.ramped = false) (hwave : y.dev.boot.wave ≤ 4)
    (htime : y.dev.boot.wavesAt * 64 + 1500000 * y.dev.boot.wave < (y.dev.beat.wbc + 1) * 64) :
    waveRamp y = (y.each (waveSites y.dev y.dev.boot.wave) rampFenced).onBoot fun b => { b with ramped := true } := by
  unfold waveRamp
  exact if_neg (by simp [hbusy, hramped, hwave, htime])

/- Tests. -/

/-- What a wave test leaves alone. -/
def besideTest (y : Sys) : List BadUnit × List Nat × List Admission × List MemOp × MemMap :=
  (y.dev.boot.badUnits, y.dev.noc.failed, y.dev.noc.admits, y.log, y.dev.map)

theorem offFaultStop_besideTest : OffFaultStop besideTest := fun y z hz _ => by rw [hz]; rfl

/-- What a lost column takes from its site: rails, and the mark that it is clean. -/
theorem columnFailed_parts (y : Sys) (c : Nat) :
    (columnFailed y c).dev.boot.powered = takeOut y.dev.boot.powered (siteOf y.dev c) ∧
    (columnFailed y c).dev.boot.cleanSites = takeOut (takeOut y.dev.boot.cleanSites (siteOf y.dev c)) (siteOf y.dev c) ∧
    (columnFailed y c).dev.boot.coreOk = y.dev.boot.coreOk ∧ (columnFailed y c).dev.fw = y.dev.fw ∧
    besideTest (columnFailed y c) = besideTest y ∧ (columnFailed y c).dev.noc.fences = y.dev.noc.fences ∧
    y.dev.host.evtSeq ≤ (columnFailed y c).dev.host.evtSeq := by
  have hpow := fenceCore_powered y (siteOf y.dev c)
  have hclean : (fenceCore y (siteOf y.dev c)).dev.boot.cleanSites = takeOut y.dev.boot.cleanSites (siteOf y.dev c) :=
    OffFaultStop.fenceCore (v := fun z : Sys => z.dev.boot.cleanSites) (fun y z hz _ => by rw [hz]) y _
  have hcore : (fenceCore y (siteOf y.dev c)).dev.boot.coreOk = y.dev.boot.coreOk :=
    OffFaultStop.fenceCore (v := fun z : Sys => z.dev.boot.coreOk) (fun y z hz _ => by rw [hz]) y _
  have hfw : (fenceCore y (siteOf y.dev c)).dev.fw = y.dev.fw :=
    OffFaultStop.fenceCore (v := fun z : Sys => z.dev.fw) (fun y z hz _ => by rw [hz]) y _
  have hbeside : besideTest (fenceCore y (siteOf y.dev c)) = besideTest y := offFaultStop_besideTest.fenceCore y _
  have hfences : (fenceCore y (siteOf y.dev c)).dev.noc.fences = y.dev.noc.fences :=
    OffFaultStop.fenceCore (v := fun z : Sys => z.dev.noc.fences) (fun y z hz _ => by rw [hz]) y _
  have hseq := fenceCore_evtSeq_le y (siteOf y.dev c)
  unfold columnFailed
  dsimp only
  generalize fenceCore y (siteOf y.dev c) = z at *
  refine ⟨?_, ?_, ?_, ?_, ?_, ?_, ?_⟩
  · rw [event_boot, ← hpow]; rfl
  · rw [event_boot, ← hclean]; rfl
  · rw [event_boot, ← hcore]; rfl
  · rw [event_eq_onHost, ← hfw]; rfl
  · rw [offFaultStop_besideTest.event, ← hbeside]; rfl
  · rw [event_noc, ← hfences]; rfl
  · rw [event_evtSeq]; exact Nat.le_trans hseq (Nat.le_succ _)

theorem siteOf_of_colAt {d : Dev} {c : Nat} (h : colAt d site = some c) : siteOf d c = site := by
  simpa using List.find?_some h

/-- A core that fails loses its rails and is no good core any more; every other site keeps what it has (R410, R411, R414). -/
theorem waveFailed_parts (y : Sys) (site : Nat) :
    (∀ x, x ∈ (waveFailed y site).dev.boot.powered ↔ x ∈ y.dev.boot.powered ∧ x ≠ site) ∧
    (∀ x, x ≠ site → x ∈ y.dev.boot.cleanSites → x ∈ (waveFailed y site).dev.boot.cleanSites) ∧
    (waveFailed y site).dev.boot.coreOk = takeOut y.dev.boot.coreOk site ∧ (waveFailed y site).dev.fw = y.dev.fw ∧
    besideTest (waveFailed y site) = besideTest y := by
  unfold waveFailed
  extract_lets z
  have hpow : z.dev.boot.powered = takeOut y.dev.boot.powered site := rfl
  have hclean : z.dev.boot.cleanSites = takeOut y.dev.boot.cleanSites site := rfl
  have hcore : z.dev.boot.coreOk = takeOut y.dev.boot.coreOk site := rfl
  have hfw : z.dev.fw = y.dev.fw := rfl
  have hbeside : besideTest z = besideTest y := rfl
  clear_value z
  have hz : (∀ x, x ∈ z.dev.boot.powered ↔ x ∈ y.dev.boot.powered ∧ x ≠ site) ∧
      ∀ x, x ≠ site → x ∈ y.dev.boot.cleanSites → x ∈ z.dev.boot.cleanSites := by
    rw [hpow, hclean]
    exact ⟨fun x => mem_takeOut, fun x hne hx => mem_takeOut.mpr ⟨hx, hne⟩⟩
  split
  · exact ⟨hz.1, hz.2, hcore, hfw, hbeside⟩
  next c hc =>
    split
    · obtain ⟨hp, hcl, hco, hf, hb, _, _⟩ := columnFailed_parts z c
      rw [siteOf_of_colAt hc] at hp hcl
      refine ⟨fun x => ?_, fun x hne hx => ?_, hco.trans hcore, hf.trans hfw, hb.trans hbeside⟩
      · rw [hp, mem_takeOut, hz.1]; exact ⟨And.left, fun h => ⟨h, h.2⟩⟩
      · rw [hcl]
        exact mem_takeOut.mpr ⟨mem_takeOut.mpr ⟨hz.2 x hne hx, hne⟩, hne⟩
    · exact ⟨hz.1, hz.2, hcore, hfw, hbeside⟩

/-- A core that passes is clean and receives the column part of the firmware (R414, R438). -/
theorem wavePassed_parts (y : Sys) (site : Nat) :
    (wavePassed y site).dev.boot.powered = y.dev.boot.powered ∧
    (wavePassed y site).dev.boot.cleanSites = addTo y.dev.boot.cleanSites site ∧
    (wavePassed y site).dev.boot.coreOk = y.dev.boot.coreOk ∧
    (wavePassed y site).dev.fw.segPieces = assocSet y.dev.fw.segPieces site [] ∧
    besideTest (wavePassed y site) = besideTest y := ⟨rfl, rfl, rfl, rfl, rfl⟩

theorem coreUsable_of_besideTest (h : besideTest z = besideTest y) (x : Nat) : coreUsable z.dev x = coreUsable y.dev x := by
  have hbad : z.dev.boot.badUnits = y.dev.boot.badUnits := congrArg Prod.fst h
  have hfailed : z.dev.noc.failed = y.dev.noc.failed := congrArg (fun v => v.2.1) h
  simp only [coreUsable, unitsOf, badTsvs, arrayLost, hbad, hfailed]

/-- A core of the wave has failed its test or passed it (R414). -/
def coreTested (failed : List Nat) (y : Sys) (site : Nat) : Sys :=
  if failed.contains site || !y.dev.boot.powered.contains site || !coreUsable y.dev site then waveFailed y site else wavePassed y site

/-- The test found no fault in the core of a site. -/
def testPasses (failed : List Nat) (d : Dev) (x : Nat) : Prop := x ∉ failed ∧ coreUsable d x = true

theorem coreTested_eq (failed : List Nat) (z : Sys) (a : Nat) :
    (testPasses failed z.dev a ∧ a ∈ z.dev.boot.powered ∧ coreTested failed z a = wavePassed z a) ∨
    (¬ (testPasses failed z.dev a ∧ a ∈ z.dev.boot.powered) ∧ coreTested failed z a = waveFailed z a) := by
  unfold coreTested testPasses
  split
  next h => right; refine ⟨?_, rfl⟩; simp at h; rintro ⟨⟨h1, h2⟩, h3⟩; simp [h1, h2, h3] at h
  next h => left; simp at h; exact ⟨⟨h.1.1, h.2⟩, h.1.2, rfl⟩

theorem coreTested_besideTest (failed : List Nat) (z : Sys) (a : Nat) : besideTest (coreTested failed z a) = besideTest z := by
  rcases coreTested_eq failed z a with ⟨_, _, h⟩ | ⟨_, h⟩
  · rw [h]; exact (wavePassed_parts z a).2.2.2.2
  · rw [h]; exact (waveFailed_parts z a).2.2.2.2

/-- After the tests of a wave: a powered core that passed is clean and has its delivery begun. -/
theorem each_coreTested_passed (failed l : List Nat) (y : Sys) :
    besideTest (y.each l (coreTested failed)) = besideTest y ∧
    ∀ x ∈ l, testPasses failed y.dev x → x ∈ y.dev.boot.powered →
      x ∈ (y.each l (coreTested failed)).dev.boot.cleanSites ∧ (assoc (y.each l (coreTested failed)).dev.fw.segPieces x).isSome = true := by
  have hpass : ∀ {z : Sys}, besideTest z = besideTest y → ∀ x, testPasses failed z.dev x ↔ testPasses failed y.dev x :=
    fun hz x => by rw [testPasses, testPasses, coreUsable_of_besideTest hz]
  have h := Sys.each_establishes (y := y) (l := l) (f := coreTested failed)
    (fun z => besideTest z = besideTest y ∧ ∀ x, testPasses failed y.dev x → x ∈ y.dev.boot.powered → x ∈ z.dev.boot.powered)
    (fun x z => testPasses failed y.dev x → x ∈ y.dev.boot.powered →
      x ∈ z.dev.boot.cleanSites ∧ (assoc z.dev.fw.segPieces x).isSome = true) ⟨rfl, fun _ _ h => h⟩
    (fun z a hz => ⟨(coreTested_besideTest failed z a).trans hz.1, fun x hx hp => ?_⟩) (fun z a hz _ ha hp => ?_)
    (fun z a b hz hb hx hp => ?_)
  · exact ⟨h.1.1, h.2⟩
  · rcases coreTested_eq failed z a with ⟨_, _, heq⟩ | ⟨hno, heq⟩
    · rw [heq, (wavePassed_parts z a).1]; exact hz.2 x hx hp
    · rw [heq, (waveFailed_parts z a).1]
      exact ⟨hz.2 x hx hp, fun hxa => hno (hxa ▸ ⟨(hpass hz.1 x).mpr hx, hz.2 x hx hp⟩)⟩
  · rcases coreTested_eq failed z a with ⟨_, _, heq⟩ | ⟨hno, _⟩
    · obtain ⟨_, hclean, _, hseg, _⟩ := wavePassed_parts z a
      rw [heq, hclean, hseg, assoc_assocSet, if_pos rfl]
      exact ⟨mem_addTo.mpr (.inr rfl), rfl⟩
    · exact absurd ⟨(hpass hz.1 a).mpr ha, hz.2 a ha hp⟩ hno
  · obtain ⟨hc, hs⟩ := hb hx hp
    rcases coreTested_eq failed z a with ⟨_, _, heq⟩ | ⟨hno, heq⟩
    · obtain ⟨_, hclean, _, hseg, _⟩ := wavePassed_parts z a
      rw [heq, hclean, hseg, assoc_assocSet]
      refine ⟨mem_addTo.mpr (.inl hc), ?_⟩
      split
      · rfl
      · exact hs
    · obtain ⟨_, hclean, _, hfw, _⟩ := waveFailed_parts z a
      rw [heq, hfw]
      exact ⟨hclean b (fun hba => hno (hba ▸ ⟨(hpass hz.1 b).mpr hx, hz.2 b hx hp⟩)) hc, hs⟩

/-- After the tests of a wave: a core that failed has no rails and is no good core. -/
theorem each_coreTested_failed (failed l : List Nat) (y : Sys) : ∀ x ∈ l, ¬ testPasses failed y.dev x →
    x ∉ (y.each l (coreTested failed)).dev.boot.powered ∧ x ∉ (y.each l (coreTested failed)).dev.boot.coreOk := by
  refine (Sys.each_establishes (y := y) (l := l) (f := coreTested failed) (fun z => besideTest z = besideTest y)
    (fun x z => ¬ testPasses failed y.dev x → x ∉ z.dev.boot.powered ∧ x ∉ z.dev.boot.coreOk) rfl
    (fun z a hz => (coreTested_besideTest failed z a).trans hz) (fun z a hz _ ha => ?_) (fun z a b _ hb hx => ?_)).2
  · rcases coreTested_eq failed z a with ⟨hpass, _, _⟩ | ⟨_, heq⟩
    · rw [testPasses, coreUsable_of_besideTest hz] at hpass
      exact absurd hpass ha
    · obtain ⟨hpow, _, hcore, _, _⟩ := waveFailed_parts z a
      rw [heq, hcore, hpow]
      exact ⟨fun h => h.2 rfl, fun h => (mem_takeOut.mp h).2 rfl⟩
  · obtain ⟨hp, hc⟩ := hb hx
    rcases coreTested_eq failed z a with ⟨_, _, heq⟩ | ⟨_, heq⟩
    · obtain ⟨hpow, _, hcore, _, _⟩ := wavePassed_parts z a
      rw [heq, hcore, hpow]
      exact ⟨hp, hc⟩
    · obtain ⟨hpow, _, hcore, _, _⟩ := waveFailed_parts z a
      rw [heq, hcore, hpow]
      exact ⟨fun h => hp h.1, fun h => hc (mem_takeOut.mp h).1⟩

theorem waveTestDone_eq {failed : List Nat} {found : List BadUnit} (hbusy : y.dev.boot.wavesBusy = true) (hramped : y.dev.boot.ramped = true)
    (hwave : y.dev.boot.wave ≤ 4) : waveTestDone failed found y =
      let z := (addFindings y found).each (waveSites y.dev y.dev.boot.wave) (coreTested failed)
      if y.dev.boot.wave < 4 then z.onBoot fun b => { b with wave := y.dev.boot.wave + 1, ramped := false } else wavesEnd z := by
  unfold waveTestDone
  exact if_neg (by simp [hbusy, hramped, hwave])

/- The end of the waves. -/

/-- The part of the record that the resource map is made of. -/
def mapSource (y : Sys) : Sys :=
  { dev := { boot := { y.dev.boot with mapDigest := [] }, map := y.dev.map, cores := y.dev.cores, noc := { failed := y.dev.noc.failed } }
    base := [], log := [] }

theorem resourceMap_mapSource (y : Sys) : resourceMap (mapSource y) = resourceMap y := rfl

theorem resourceMap_congr (h : mapSource z = mapSource y) : resourceMap z = resourceMap y := by
  rw [← resourceMap_mapSource, h, resourceMap_mapSource]

/-- The map that the waves end with: made final, with its digest (R410, R412). -/
def mapMadeFinal (y : Sys) : Sys := y.onBoot fun b => { b with mapDigest := sha256 (resourceMap y) }

/-- The columns have their final sites, and the unused spares no rails (R410, R414). -/
def sitesMadeFinal (y : Sys) : Sys :=
  let y := if y.dev.boot.warmStart then markCores y else assignCols y (finalSites y.dev)
  let unused := (List.range 18).filter fun s => y.dev.boot.powered.contains s && (colAt y.dev s).isNone
  let y := y.each unused railsOff
  y.onBoot fun b => { b with wave := 7, mapFinal := true, unassigned := [] }

theorem wavesEnd_eq (y : Sys) : wavesEnd y =
    let z := dropIdleFences (writeMap (mapMadeFinal (sitesMadeFinal y)))
    z.onNoc fun n => { n with admits := n.admits ++ [⟨waveColumns z.dev, false, false, true⟩] } := rfl

theorem sitesMadeFinal_keeps {α : Type} (v : Sys → α) (hMap : ∀ z f, v (Sys.onMap z f) = v z) (hCore : ∀ z s f, v (Sys.onCore z s f) = v z)
    (hBoot : ∀ z f, v (Sys.onBoot z f) = v z) (hPower : ∀ z f, v (Sys.onPower z f) = v z) (y : Sys) : v (sitesMadeFinal y) = v y := by
  unfold sitesMadeFinal
  rw [hBoot, Sys.each_keeps v _ _ _ fun z a _ => by unfold railsOff Sys.onSitePow; rw [hPower, hBoot]]
  split
  · exact markCores_keeps v hCore y
  · unfold assignCols
    rw [renumberSpares_keeps v hMap, markCores_keeps v hCore, hMap]

theorem waveColumns_onNoc (y : Sys) (f : Noc → Noc) : waveColumns (y.onNoc f).dev = waveColumns y.dev := rfl

/-- After wave 4 the map is final, its digest stands, and the columns are up for admission (R410 to R412, R414). -/
theorem wavesEnd_final (y : Sys) : (wavesEnd y).dev.boot.wave = 7 ∧ (wavesEnd y).dev.boot.mapFinal = true ∧
    (wavesEnd y).log = y.log ∧ (∀ z : Sys, z.dev = (wavesEnd y).dev → (wavesEnd y).dev.boot.mapDigest = sha256 (resourceMap z)) ∧
    (wavesEnd y).dev.noc.admits = y.dev.noc.admits ++ [⟨waveColumns (wavesEnd y).dev, false, false, true⟩] := by
  have hwave : (sitesMadeFinal y).dev.boot.wave = 7 ∧ (sitesMadeFinal y).dev.boot.mapFinal = true := ⟨rfl, rfl⟩
  have hlog : (sitesMadeFinal y).log = y.log :=
    sitesMadeFinal_keeps Sys.log (fun _ _ => rfl) (fun _ _ _ => rfl) (fun _ _ => rfl) (fun _ _ => rfl) y
  have hadmits : (sitesMadeFinal y).dev.noc.admits = y.dev.noc.admits :=
    sitesMadeFinal_keeps (fun z => z.dev.noc.admits) (fun _ _ => rfl) (fun _ _ _ => rfl) (fun _ _ => rfl) (fun _ _ => rfl) y
  rw [wavesEnd_eq]
  generalize sitesMadeFinal y = w at *
  have hwrite : ∀ {α : Type} (v : Sys → α), (∀ z f, v (Sys.onHost z f) = v z) → v (writeMap (mapMadeFinal w)) = v (mapMadeFinal w) :=
    fun v h => dwrRange_keeps v _ h _ _ _
  have hdigest : ∃ digest, digest = sha256 (resourceMap w) ∧ mapMadeFinal w = w.onBoot fun b => { b with mapDigest := digest } :=
    ⟨_, rfl, rfl⟩
  obtain ⟨digest, hd, hfinal⟩ := hdigest
  rw [hfinal] at hwrite ⊢
  have hboot := hwrite (fun z => z.dev.boot) fun _ _ => rfl
  have hnoc := hwrite (fun z => z.dev.noc) fun _ _ => rfl
  have hmap := hwrite (fun z => z.dev.map) fun _ _ => rfl
  have hcores := hwrite (fun z => z.dev.cores) fun _ _ => rfl
  have hlog' := hwrite Sys.log fun _ _ => rfl
  generalize writeMap (w.onBoot fun b => { b with mapDigest := digest }) = u at *
  simp only [Sys.onBoot_boot, Sys.onBoot_noc, Sys.onBoot_map, Sys.onBoot_cores, Sys.onBoot_log] at hboot hnoc hmap hcores hlog'
  refine ⟨?_, ?_, hlog'.trans hlog, fun z hz => ?_, ?_⟩
  · exact (congrArg Boot.wave hboot).trans hwave.1
  · exact (congrArg Boot.mapFinal hboot).trans hwave.2
  · have hsame : mapSource z = mapSource w := by
      simp only [mapSource, hz, dropIdleFences, Sys.onNoc_boot, Sys.onNoc_map, Sys.onNoc_cores, Sys.onNoc_noc, hboot, hmap, hcores, hnoc]
    rw [resourceMap_congr hsame, ← hd]
    exact congrArg Boot.mapDigest hboot
  · rw [← hadmits, ← hnoc]
    exact congrArg (fun l => u.dev.noc.admits ++ [(⟨l, false, false, true⟩ : Admission)]) (waveColumns_onNoc _ _).symm

/- Delivery of the column firmware. -/

theorem segmentPiece_eq {piece : Nat} {data : List Byte} {found : Option Site} {l : List (Nat × List Byte)}
    (hheld : assoc y.dev.fw.segPieces site = some l) : segmentPiece site piece data found y =
      withParity y 24 site found (shuttleError y) (if l.any fun p => p.1 == piece then y
        else y.onFw fun f => { f with segPieces := assocSet f.segPieces site (l ++ [(piece, padTo 24 data)]) }) := by
  unfold segmentPiece
  rw [hheld]

theorem withParity_sound {src dest : Nat} {found : Option Site} {lost : Nat → Sys} {arrives : Sys}
    (h : ∀ f, found = some f → (messageWay y src dest).contains f.val = false) : withParity y src dest found lost arrives = arrives := by
  cases found with
  | none => rfl
  | some f => exact if_neg (by rw [h f rfl]; exact Bool.false_ne_true)

theorem withParity_lost {src dest : Nat} {f : Site} {lost : Nat → Sys} {arrives : Sys}
    (h : (messageWay y src dest).contains f.val = true) : withParity y src dest (some f) lost arrives = lost f.val := if_pos h

theorem shuttleErr_shuttleError {f : Nat} (h : f < y.dev.noc.sites.length) :
    (nth (shuttleError y f).dev.noc.sites f {}).shuttleErr = sat32 ((nth y.dev.noc.sites f {}).shuttleErr + 1) := by
  simp [shuttleError, Sys.onSiteNoc, nth, upd, h]

theorem deliveryEnd_good {l : List (Nat × List Byte)} {seg : FwSeg} (hheld : assoc y.dev.fw.segPieces site = some l)
    (hseg : columnSeg y = some seg) (hgood : segmentGood seg l = true) : deliveryEnd site y =
      (y.onFw fun f => { f with segPieces := assocDel f.segPieces site }).onFw fun f =>
        { f with loaded := addTo f.loaded site, loadFailed := takeOut f.loadFailed site } := by
  have hseg' : columnSeg (y.onFw fun f => { f with segPieces := assocDel f.segPieces site }) = some seg := hseg
  unfold deliveryEnd
  rw [hheld]
  dsimp only
  rw [hseg']
  exact if_pos hgood

/-- What a failed load leaves for every end of the delivery: fence order, mark and event (R318, R439). -/
def LoadFailedAt (site : Nat) (y z : Sys) : Prop :=
  z.log = y.log ∧ site ∉ z.dev.fw.loaded ∧ site ∈ z.dev.fw.loadFailed ∧ (⟨site, 0, 1⟩ : FenceMsg) ∈ z.dev.noc.fences ∧
    y.dev.host.evtSeq < z.dev.host.evtSeq

theorem loadFailed_at (y : Sys) (site : Nat) : LoadFailedAt site y (loadFailed y site) := by
  unfold loadFailed LoadFailedAt
  refine ⟨event_log _ _ _, ?_, ?_, ?_, ?_⟩
  · rw [event_eq_onHost]; exact fun h => (mem_takeOut.mp h).2 rfl
  · rw [event_eq_onHost]; exact mem_addTo.mpr (.inr rfl)
  · rw [event_noc]; exact List.mem_append_right _ (List.mem_singleton_self _)
  · rw [event_evtSeq]; exact Nat.lt_succ_self _

theorem LoadFailedAt.trans {w : Sys} (h : LoadFailedAt site y z) (hlog : w.log = z.log) (hfw : w.dev.fw = z.dev.fw)
    (hfences : w.dev.noc.fences = z.dev.noc.fences) (hseq : z.dev.host.evtSeq ≤ w.dev.host.evtSeq) : LoadFailedAt site y w := by
  obtain ⟨h1, h2, h3, h4, h5⟩ := h
  exact ⟨hlog.trans h1, hfw ▸ h2, hfw ▸ h3, hfences ▸ h4, Nat.lt_of_lt_of_le h5 hseq⟩

theorem deliveryEnd_bad {l : List (Nat × List Byte)} {seg : FwSeg} (hheld : assoc y.dev.fw.segPieces site = some l)
    (hseg : columnSeg y = some seg) (hbad : segmentGood seg l = false) : LoadFailedAt site y (deliveryEnd site y) := by
  have hseg' : columnSeg (y.onFw fun f => { f with segPieces := assocDel f.segPieces site }) = some seg := hseg
  have hfail : LoadFailedAt site y (loadFailed (y.onFw fun f => { f with segPieces := assocDel f.segPieces site }) site) :=
    loadFailed_at (y.onFw fun f => { f with segPieces := assocDel f.segPieces site }) site
  unfold deliveryEnd
  rw [hheld]
  dsimp only
  rw [hseg']
  dsimp only
  rw [if_neg (by rw [hbad]; exact Bool.false_ne_true)]
  generalize loadFailed (y.onFw fun f => { f with segPieces := assocDel f.segPieces site }) site = z at hfail
  split
  · exact hfail
  · split
    next c _ =>
      split
      · obtain ⟨_, _, _, hfw, hbeside, hfences, hseq⟩ := columnFailed_parts z c
        exact hfail.trans (congrArg (fun v => v.2.2.2.1) hbeside) hfw hfences hseq
      · exact hfail.trans rfl rfl rfl (Nat.le_refl _)
    next => exact hfail.trans rfl rfl rfl (Nat.le_refl _)

end Sys2Proof.Machine

namespace Sys2Proof

open Machine

variable {s : State}

/-- A wave is ramped (R414). -/
theorem completes_coreWaveRamp (hbusy : s.dev.boot.wavesBusy = true) (hramped : s.dev.boot.ramped = false) (hwave : s.dev.boot.wave ≤ 4)
    (htime : s.dev.boot.wavesAt * 64 + 1500000 * s.dev.boot.wave < (s.dev.beat.wbc + 1) * 64) (hclocks : s.dev.power.clocksStopped = false) :
    Completes .coreWaveRamp s fun t => StackOnly s t ∧ t.dev.boot.ramped = true ∧ t.dev.boot.wave = s.dev.boot.wave ∧
      ∀ x ∈ waveSites s.dev s.dev.boot.wave, x ∈ t.dev.boot.powered ∧ x ∈ t.dev.noc.fenced := by
  have heq := waveRamp_eq (y := s.work) hbusy hramped hwave htime
  obtain ⟨hbeside, hall⟩ := each_rampFenced (y := s.work) (waveSites s.work.dev s.work.dev.boot.wave) hclocks
  refine completes_stackOnly (f := waveRamp) rfl ?_ fun t ht hdev => ⟨ht, ?_⟩
  · rw [heq]; exact congrArg (fun v => v.2.2) hbeside
  · rw [hdev, heq]
    exact ⟨rfl, congrArg (fun v => v.2.1) hbeside, hall⟩

theorem exec_coreWaveTestDone (failed : List Site) (found : List BadUnit) :
    exec (.coreWaveTestDone failed found) s = onSys (waveTestDone (failed.map (·.val)) found) s := rfl

/-- The tests of a wave end (R410, R414). -/
theorem completes_coreWaveTestDone (hbusy : s.dev.boot.wavesBusy = true) (hramped : s.dev.boot.ramped = true) (failed : List Site)
    (found : List BadUnit) :
    let d := (addFindings s.work found).dev
    (s.dev.boot.wave < 4 → Completes (.coreWaveTestDone failed found) s fun t => StackOnly s t ∧ t.dev.boot.ramped = false ∧
      t.dev.boot.wave = s.dev.boot.wave + 1 ∧
      (∀ x ∈ waveSites s.dev s.dev.boot.wave, x ∈ s.dev.boot.powered → coreUsable d x = true → x ∉ failed.map (·.val) →
        x ∈ t.dev.boot.cleanSites ∧ (assoc t.dev.fw.segPieces x).isSome = true) ∧
      ∀ x ∈ waveSites s.dev s.dev.boot.wave, x ∈ failed.map (·.val) ∨ coreUsable d x = false →
        x ∉ t.dev.boot.powered ∧ x ∉ t.dev.boot.coreOk) ∧
    (s.dev.boot.wave = 4 → Completes (.coreWaveTestDone failed found) s fun t => StackOnly s t ∧ t.dev.boot.wave = 7 ∧
      t.dev.boot.mapFinal = true ∧ t.dev.boot.mapDigest = sha256 (resourceMap t.work) ∧
      ∃ a, t.dev.noc.admits = s.dev.noc.admits ++ [a] ∧ a.wave = true ∧ a.written = false ∧ a.cols = waveColumns t.dev) := by
  intro d
  have heq := fun hwave => waveTestDone_eq (y := s.work) (failed := failed.map (·.val)) (found := found) hbusy hramped hwave
  obtain ⟨hbeside, hpass⟩ := each_coreTested_passed (failed.map (·.val)) (waveSites s.work.dev s.work.dev.boot.wave) (addFindings s.work found)
  have hfail := each_coreTested_failed (failed.map (·.val)) (waveSites s.work.dev s.work.dev.boot.wave) (addFindings s.work found)
  have hfound := addFindings_eq s.work found
  have hpowered : (addFindings s.work found).dev.boot.powered = s.dev.boot.powered := by rw [hfound]; rfl
  have hlog0 : (addFindings s.work found).log = [] := by rw [hfound]; rfl
  have hadmits0 : (addFindings s.work found).dev.noc.admits = s.dev.noc.admits := by rw [hfound]; rfl
  dsimp only at heq
  generalize (addFindings s.work found).each (waveSites s.work.dev s.work.dev.boot.wave) (coreTested (failed.map (·.val))) = z at *
  have hlog : z.log = [] := (congrArg (fun v => v.2.2.2.1) hbeside).trans hlog0
  have hadmits : z.dev.noc.admits = s.dev.noc.admits := (congrArg (fun v => v.2.2.1) hbeside).trans hadmits0
  constructor
  · intro hwave
    have h := (heq (Nat.le_of_lt hwave)).trans (if_pos hwave)
    refine completes_stackOnly (exec_coreWaveTestDone failed found) (by rw [h]; exact hlog) fun t ht hdev => ⟨ht, ?_⟩
    rw [hdev, h]
    refine ⟨rfl, rfl, fun x hx hp hu hf => hpass x hx ⟨hf, hu⟩ (hpowered ▸ hp), fun x hx hno => hfail x hx fun hok => ?_⟩
    obtain ⟨hf, hu⟩ := hok
    rcases hno with h | h
    · exact hf h
    · exact absurd hu (by rw [h]; exact Bool.false_ne_true)
  · intro hwave
    have h := (heq (Nat.le_of_eq hwave)).trans (if_neg (Nat.not_lt.mpr (Nat.le_of_eq hwave.symm)))
    obtain ⟨hw, hfinal, hwlog, hdigest, hadm⟩ := wavesEnd_final z
    refine completes_stackOnly (exec_coreWaveTestDone failed found) (by rw [h, hwlog, hlog]) fun t ht hdev => ⟨ht, ?_⟩
    rw [h] at hdev
    rw [hdev]
    exact ⟨hw, hfinal, hdigest t.work hdev, ⟨_, by rw [hadm, hadmits], rfl, rfl, rfl⟩⟩

/-- Settles O40: ramps by `each_rampFenced`, tests by `each_coreTested_passed` and `each_coreTested_failed`, the last wave by
`wavesEnd_final`, and deliveries by the two ends of `deliveryEnd`. -/
theorem coreWaves : Obligations.CoreWaves := by
  refine fun s => ⟨fun hbusy hramped hwave htime hclocks => completes_coreWaveRamp hbusy hramped hwave htime hclocks,
    fun hbusy hramped failed found => completes_coreWaveTestDone hbusy hramped failed found, fun site l hheld =>
    ⟨fun piece session data found hsound => ?_, fun piece session data f hlost hlen => ?_, fun seg hseg hgood => ?_,
      fun seg hseg hbad => ?_⟩⟩
  · have heq := (segmentPiece_eq (y := s.work) (piece := piece) (data := data) (found := found) hheld).trans (withParity_sound hsound)
    constructor
    · intro hnew
      rw [if_neg (by simpa using fun x hx => hnew _ hx rfl)] at heq
      refine completes_stackOnly (f := segmentPiece site piece data found) rfl (by rw [heq]; rfl) fun t ht hdev => ⟨ht, ?_⟩
      rw [hdev, heq]
      exact ⟨rfl, (assoc_assocSet _ _ _ _).trans (if_pos rfl)⟩
    · intro hold
      rw [if_pos (by simpa using hold)] at heq
      exact next_of_onSys_same (f := segmentPiece site piece data found) rfl heq
  · have heq := (segmentPiece_eq (y := s.work) (piece := piece) (data := data) (found := some f) hheld).trans (withParity_lost hlost)
    refine completes_stackOnly (f := segmentPiece site piece data (some f)) rfl (by rw [heq]; rfl) fun t ht hdev => ⟨ht, ?_⟩
    rw [hdev, heq]
    exact ⟨rfl, shuttleErr_shuttleError hlen⟩
  · have heq := deliveryEnd_good (y := s.work) hheld hseg hgood
    refine completes_stackOnly (f := deliveryEnd site) rfl (by rw [heq]; rfl) fun t ht hdev => ⟨ht, ?_⟩
    rw [hdev, heq]
    exact ⟨rfl, mem_addTo.mpr (.inr rfl), fun h => (mem_takeOut.mp h).2 rfl⟩
  · obtain ⟨hlog, hloaded, hfailed, hfence, hseq⟩ := deliveryEnd_bad (y := s.work) hheld hseg hbad
    refine completes_stackOnly (f := deliveryEnd site) rfl hlog fun t ht hdev => ⟨ht, ?_⟩
    rw [hdev]
    exact ⟨hloaded, hfailed, hfence, hseq⟩

end Sys2Proof
end

section
/-! PROOF. Span ports: their states and the link records (R330, R334 to R349). -/

-- One proof after another: elaborated in parallel, the text as a whole needs more memory than the check allows.
set_option Elab.async false

namespace Sys2Proof.Machine

variable {y : Sys} {p q : Nat} {new : PortState}

/- The rules of a change of state. -/

theorem settleLinks_span (y : Sys) : (settleLinks y).dev.span = y.dev.span :=
  settleLinks_keeps (fun z => z.dev.span) y (fun _ _ => rfl) fun _ _ => rfl

theorem settleLinks_port (y : Sys) (q : Nat) : (settleLinks y).port q = y.port q := by
  rw [Sys.port, settleLinks_span, Sys.port]

theorem event_span (y : Sys) (code : Nat) (data : List Byte) : (event y code data).dev.span = y.dev.span :=
  event_keeps (fun z => z.dev.span) y (fun _ _ => rfl) _ _

theorem event_port (y : Sys) (code : Nat) (data : List Byte) (q : Nat) : (event y code data).port q = y.port q := by
  rw [Sys.port, event_span, Sys.port]

theorem onPort_length (y : Sys) (p : Nat) (f : PortS → PortS) : (y.onPort p f).dev.span.ports.length = y.dev.span.ports.length :=
  upd_length _ _ _

/-- A port after it was put in a state: state and time of the change, nothing else. -/
theorem setPort_port_self (h : p < y.dev.span.ports.length) : ∃ t, (setPort y p new).port p = { y.port p with state := new, stateAt := t } := by
  unfold setPort
  dsimp only
  split
  next hold => exact ⟨(y.port p).stateAt, by rw [← hold]⟩
  next => exact ⟨y.dev.beat.wbc, by rw [settleLinks_port, event_port, port_onPort_self _ _ h]⟩

theorem setPort_port_of_ne (h : p ≠ q) : (setPort y p new).port q = y.port q := by
  unfold setPort
  dsimp only
  split
  · rfl
  · rw [settleLinks_port, event_port, port_onPort_of_ne _ _ h]

theorem setPort_length (y : Sys) (p : Nat) (new : PortState) : (setPort y p new).dev.span.ports.length = y.dev.span.ports.length := by
  unfold setPort
  dsimp only
  split
  · rfl
  · rw [settleLinks_span, event_span, onPort_length]

theorem setPort_log (y : Sys) (p : Nat) (new : PortState) : (setPort y p new).log = y.log :=
  setPort_keeps Sys.log y (fun _ _ => rfl) (fun _ _ => rfl) (fun _ _ => rfl) p new

theorem setPort_beat (y : Sys) (p : Nat) (new : PortState) : (setPort y p new).dev.beat = y.dev.beat :=
  setPort_keeps (fun z => z.dev.beat) y (fun _ _ => rfl) (fun _ _ => rfl) (fun _ _ => rfl) p new

/-- What a sound flit does to its port: a pause ends. -/
theorem wakePort_port_self (h : p < y.dev.span.ports.length) : ∃ st t, (wakePort y p).port p =
      { y.port p with holdIdle := false, state := st, stateAt := t } ∧ ((y.port p).state ≠ .paused → st = (y.port p).state) ∧
      ((y.port p).state = .paused → st = .ready ∨ st = .degraded) := by
  unfold wakePort
  dsimp only
  split
  next hp =>
    obtain ⟨t, ht⟩ := setPort_port_self (y := y.onPort p fun x => { x with holdIdle := false })
      (new := if (y.port p).wasDegraded then .degraded else .ready) (by rw [onPort_length]; exact h)
    refine ⟨_, t, by rw [ht, port_onPort_self _ _ h], fun hne => absurd hp hne, fun _ => ?_⟩
    split
    · exact .inr rfl
    · exact .inl rfl
  next hne => exact ⟨_, _, port_onPort_self _ _ h, fun _ => rfl, fun hp => absurd hp hne⟩

theorem wakePort_length (y : Sys) (p : Nat) : (wakePort y p).dev.span.ports.length = y.dev.span.ports.length := by
  unfold wakePort
  dsimp only
  split
  · rw [setPort_length, onPort_length]
  · exact onPort_length _ _ _

/-- A trained port is trained still when its pause has ended. -/
theorem wakePort_trained (h : p < y.dev.span.ports.length) (ht : portTrained (y.port p) = true) : portTrained ((wakePort y p).port p) = true := by
  obtain ⟨st, t, heq, hne, hp⟩ := wakePort_port_self h
  rw [heq]
  by_cases hpaused : (y.port p).state = .paused
  · rcases hp hpaused with rfl | rfl <;> rfl
  · rw [hne hpaused]
    exact ht

/- Records that are flooded, and holds. -/

/-- What a queued record leaves of a port. -/
def besideRecs (x : PortS) : PortS := { x with recs := [] }

theorem eq_of_besideRecs {x z : PortS} (h : besideRecs x = besideRecs z) : x = { z with recs := x.recs } :=
  congrArg (fun v : PortS => { v with recs := x.recs }) h

theorem queueRec_besideRecs (x : PortS) (r : CtrlRec) : besideRecs (queueRec x r) = besideRecs x := by
  unfold queueRec
  dsimp only
  split
  · rfl
  · split <;> rfl

theorem floodRec_besideRecs (y : Sys) (e : Option Nat) (r : CtrlRec) (q : Nat) :
    besideRecs ((floodRec y e r).port q) = besideRecs (y.port q) :=
  Sys.each_keeps (fun z : Sys => besideRecs (z.port q)) y _ _ fun z _ _ => by
    split
    · exact port_onPort_view besideRecs (fun x => queueRec_besideRecs x r) q
    · rfl

theorem requestHold_besideRecs (y : Sys) (cause len q : Nat) : besideRecs ((requestHold y cause len).port q) = besideRecs (y.port q) := by
  simp only [requestHold]
  split
  · rfl
  · exact floodRec_besideRecs _ _ _ _

theorem requestHold_wbc (y : Sys) (cause len : Nat) : (requestHold y cause len).dev.beat.wbc = y.dev.beat.wbc :=
  (congrArg Beat.wbc (requestHold_clock y cause len) :)

/- Loss (R347, R348). -/

theorem lossActions_port (h : p < y.dev.span.ports.length) : besideRecs ((lossActions y p).port p) =
    besideRecs { y.port p with lost := true, lossStop := true, switch := none, holdIdle := false } := by
  unfold lossActions
  dsimp only
  split
  · rw [requestHold_besideRecs, port_onPort_self _ _ h]
  · rw [port_onPort_self _ _ h]

theorem lossActions_log (y : Sys) (p : Nat) : (lossActions y p).log = y.log := by
  unfold lossActions
  dsimp only
  split
  · exact requestHold_log _ _ _
  · rfl

theorem lossActions_wbc (y : Sys) (p : Nat) : (lossActions y p).dev.beat.wbc = y.dev.beat.wbc := by
  unfold lossActions
  dsimp only
  split
  · exact requestHold_wbc _ _ _
  · rfl

/-- A lost partner: the port is LOST, flagged, and stops what hangs on it at the next boundary (R348). -/
theorem partnerLost_port (h : p < y.dev.span.ports.length) : ((partnerLost y p).port p).state = .lost ∧
    ((partnerLost y p).port p).lost = true ∧ ((partnerLost y p).port p).lossStop = true := by
  obtain ⟨t, ht⟩ := setPort_port_self (new := .lost) h
  have hport := lossActions_port (y := setPort y p .lost) (p := p) (by rw [setPort_length]; exact h)
  rw [ht] at hport
  rw [partnerLost, eq_of_besideRecs hport]
  exact ⟨rfl, rfl, rfl⟩

theorem partnerLost_log (y : Sys) (p : Nat) : (partnerLost y p).log = y.log := (lossActions_log _ _).trans (setPort_log _ _ _)

theorem partnerLost_wbc (y : Sys) (p : Nat) : (partnerLost y p).dev.beat.wbc = y.dev.beat.wbc := by
  rw [partnerLost, lossActions_wbc, setPort_beat]

/- LINK_HELLO (R330, R335, R340). -/

/-- A port as a hello leaves it before anything is compared. -/
def helloTaken (h : Hello) (x : PortS) : PortS :=
  { x with pId := h.id, pPort := h.port, pInc := h.inc, pValid := true, lastHelloTx := h.txTime, lastHelloAt := h.arrival }

theorem misplaced_port {h : Hello} (hp : p < y.dev.span.ports.length) : ((misplaced y p h).port p).state = .misplaced ∧
    ((misplaced y p h).port p).misplaced = true ∧ ((misplaced y p h).port p).pId = (y.port p).pId ∧
    ((misplaced y p h).port p).pPort = (y.port p).pPort := by
  obtain ⟨t, ht⟩ := setPort_port_self (y := y.onPort p fun x => { x with misplaced := true }) (new := .misplaced)
    (by rw [onPort_length]; exact hp)
  rw [port_onPort_self _ _ hp] at ht
  unfold misplaced
  extract_lets live z w
  have hw : w.port p = z.port p := event_port _ _ _ _
  have hlen : p < w.dev.span.ports.length := by
    simp only [w, z, event_span, setPort_length, onPort_length]; exact hp
  rw [ht] at hw
  clear_value w
  split
  · have hport := lossActions_port (y := w) (p := p) hlen
    rw [hw] at hport
    rw [eq_of_besideRecs hport]
    exact ⟨rfl, rfl, rfl, rfl⟩
  · rw [hw]
    exact ⟨rfl, rfl, rfl, rfl⟩

theorem misplaced_log (y : Sys) (p : Nat) (h : Hello) : (misplaced y p h).log = y.log := by
  unfold misplaced
  extract_lets live z w
  have hw : w.log = y.log := (event_log _ _ _).trans (setPort_log _ _ _)
  split
  · exact (lossActions_log _ _).trans hw
  · exact hw

/-- A trained port takes the hello. -/
def helloSeen (p : Nat) (h : Hello) (y : Sys) : Sys := (wakePort y p).onPort p (helloTaken h)

/-- What a hello with an echo does to a measurement (R335). -/
def helloMeasured (p : Nat) (h : Hello) (y : Sys) : Sys :=
  let y := y.onPort p fun x => { x with myOneWay := some (helloDelay h) }
  if !h.oneWayValid then y
  else if 64 * 63 < max (helloDelay h) h.oneWay + 416 then setPort y p .misplaced
  else
    let d := delayBeats (max (helloDelay h) h.oneWay)
    setPort (y.onPort p fun x => { x with delay := d, measured := true, pad := 16 * (64 * d - helloDelay h), qualDone := false, lanePass := 0, laneFail := 0 })
      p .qualifying

theorem linkHello_of_trained {h : Hello} (ht : portTrained (y.port p) = true) : linkHello p h y =
    let z := helloSeen p h y
    if (z.port p).state = .misplaced then z
    else if h.id ≠ (z.port p).expId ∨ h.port ≠ (z.port p).expPort then misplaced z p h
    else if (z.port p).state ≠ .measuring ∨ h.echoTime = 0 then z
    else helloMeasured p h z := by
  unfold linkHello
  exact if_neg (by simp [ht])

theorem helloSeen_port {h : Hello} (hp : p < y.dev.span.ports.length) :
    (helloSeen p h y).port p = helloTaken h ((wakePort y p).port p) :=
  port_onPort_self _ _ (by rw [wakePort_length]; exact hp)

theorem helloSeen_length (p : Nat) (h : Hello) (y : Sys) : (helloSeen p h y).dev.span.ports.length = y.dev.span.ports.length := by
  rw [helloSeen, onPort_length, wakePort_length]

theorem helloSeen_log (p : Nat) (h : Hello) (y : Sys) : (helloSeen p h y).log = y.log := wakePort_log y p

theorem linkHello_misplaced {h : Hello} (ht : portTrained (y.port p) = true) (hp : p < y.dev.span.ports.length)
    (hid : h.id ≠ (y.port p).expId ∨ h.port ≠ (y.port p).expPort) : linkHello p h y = misplaced (helloSeen p h y) p h := by
  obtain ⟨st, t, heq, _, _⟩ := wakePort_port_self (y := y) hp
  have hwake := wakePort_trained hp ht
  have hst : (helloTaken h ((wakePort y p).port p)).state ≠ .misplaced := fun hm => by simp [portTrained, show ((wakePort y p).port p).state = .misplaced from hm] at hwake
  rw [linkHello_of_trained ht]
  dsimp only
  rw [helloSeen_port hp, if_neg hst]
  refine if_pos ?_
  rw [heq]
  exact hid

/-- The port as a hello that closes the measurement leaves it (R335). -/
def delayFixed (h : Hello) (x : PortS) : PortS :=
  { x with myOneWay := some (helloDelay h), delay := delayBeats (max (helloDelay h) h.oneWay), measured := true
           pad := 16 * (64 * delayBeats (max (helloDelay h) h.oneWay) - helloDelay h), qualDone := false, lanePass := 0, laneFail := 0 }

theorem helloMeasured_closes {h : Hello} (hp : p < y.dev.span.ports.length) (hv : h.oneWayValid = true)
    (hbig : max (helloDelay h) h.oneWay + 416 ≤ 64 * 63) : ∃ t, (helloMeasured p h y).port p =
      { delayFixed h (y.port p) with state := .qualifying, stateAt := t } ∧ (helloMeasured p h y).log = y.log := by
  unfold helloMeasured
  dsimp only
  rw [if_neg (by simp [hv]), if_neg (by omega)]
  obtain ⟨t, ht⟩ := setPort_port_self (y := (y.onPort p fun x => { x with myOneWay := some (helloDelay h) }).onPort p fun x =>
    { x with delay := delayBeats (max (helloDelay h) h.oneWay), measured := true
             pad := 16 * (64 * delayBeats (max (helloDelay h) h.oneWay) - helloDelay h), qualDone := false, lanePass := 0, laneFail := 0 })
    (new := .qualifying) (by simp only [onPort_length]; exact hp)
  rw [port_onPort_self _ _ (by rw [onPort_length]; exact hp), port_onPort_self _ _ hp] at ht
  exact ⟨t, ht, setPort_log _ _ _⟩

theorem delayBeats_eq (t : Nat) : delayBeats t = max 1 ((t + 416 + 63) / 64) := by
  rw [delayBeats, ceilDiv, Nat.add_sub_assoc (by omega)]

/-- A hello that closes the measurement (R335). -/
theorem linkHello_measured {h : Hello} (hm : (y.port p).state = .measuring) (hp : p < y.dev.span.ports.length)
    (hid : h.id = (y.port p).expId) (hport : h.port = (y.port p).expPort) (he : h.echoTime ≠ 0) :
    linkHello p h y = helloMeasured p h (helloSeen p h y) := by
  have hwake : wakePort y p = y.onPort p fun x => { x with holdIdle := false } := wakePort_of_not_paused (by rw [hm]; decide)
  have hz : (helloSeen p h y).port p = helloTaken h { y.port p with holdIdle := false } := by
    rw [helloSeen_port hp, hwake, port_onPort_self _ _ hp]
  have hst : ((helloSeen p h y).port p).state = .measuring := by rw [hz]; exact hm
  rw [linkHello_of_trained (by simp [portTrained, hm])]
  dsimp only
  rw [if_neg (by rw [hst]; decide), if_neg (by rw [hz]; simp [helloTaken, hid, hport]), if_neg (by rw [hst]; simp [he])]

end Sys2Proof.Machine

namespace Sys2Proof.Machine

variable {y : Sys} {p q : Nat}

/- ADMIT records (R344, R345). -/

/-- The span unit but for its ports. -/
def besidePorts (y : Sys) : Span := { y.dev.span with ports := [] }

theorem setPort_besidePorts (y : Sys) (p : Nat) (new : PortState) : besidePorts (setPort y p new) = besidePorts y := by
  unfold setPort
  dsimp only
  split
  · rfl
  · rw [besidePorts, settleLinks_span, event_span]; rfl

theorem wakePort_besidePorts (y : Sys) (p : Nat) : besidePorts (wakePort y p) = besidePorts y := by
  unfold wakePort
  dsimp only
  split
  · exact setPort_besidePorts _ _ _
  · rfl

theorem floodRec_besidePorts (y : Sys) (e : Option Nat) (r : CtrlRec) : besidePorts (floodRec y e r) = besidePorts y :=
  Sys.each_keeps besidePorts y _ _ fun z _ _ => by split <;> rfl

theorem requestHold_besidePorts (y : Sys) (cause len : Nat) : besidePorts (requestHold y cause len) = besidePorts y := by
  simp only [requestHold]
  split
  · rfl
  · exact floodRec_besidePorts _ _ _

theorem offFaultStop_besidePorts : OffFaultStop besidePorts := fun y z hz _ => by rw [hz]; rfl

theorem onBeat_besidePorts (y : Sys) (f : Beat → Beat) : besidePorts (y.onBeat f) = besidePorts y := rfl

theorem holdLate_besidePorts (y : Sys) : besidePorts (holdLate y) = besidePorts y := by
  unfold holdLate lossOfAlignment
  refine (Sys.when_keeps besidePorts _ _ _ ?_).trans ?_
  · exact requestHold_besidePorts _ _ _
  · rw [event_keeps besidePorts _ (fun _ _ => rfl), onBeat_besidePorts, offFaultStop_besidePorts.faultStopAll, onBeat_besidePorts]

theorem admitRecord_new {r : AdmitRec} (hterm : termAhead y.dev.beat.term r.term = false)
    (hnew : ∀ k ∈ y.dev.span.admKeys, k.1 = r.term → k.2.1 = r.admSeq → k.2.2 + 1024 < y.dev.beat.wbc) :
    admitRecord p r y = if r.effectWbc < y.dev.beat.wbc + 64 then holdLate (wakePort y p) else takeAdmit (wakePort y p) (some p) r := by
  have hkeys : (wakePort y p).dev.span.admKeys = y.dev.span.admKeys := (congrArg Span.admKeys (wakePort_besidePorts y p) :)
  unfold admitRecord
  dsimp only
  rw [wakePort_beat, hkeys, if_neg (by rw [hterm]; exact Bool.false_ne_true), if_neg]
  simp only [List.any_eq_true, not_exists, not_and]
  intro k hk hall
  simp only [Bool.and_eq_true, beq_iff_eq, decide_eq_true_eq] at hall
  exact absurd hall.2 (Nat.not_le.mpr (hnew k hk hall.1.1 hall.1.2))

/-- A hold request that comes too late costs the alignment (R66). -/
theorem holdLate_beat (y : Sys) : (holdLate y).dev.beat.holdLate = true ∧ (holdLate y).dev.beat.aligned = false := by
  have hclock := lossOfAlignment_clock (y.onBeat fun b => { b with holdLate := true }) 4
  exact ⟨(congrArg Beat.holdLate hclock :), (congrArg Beat.aligned hclock :)⟩

/-- No ADMIT record is kept. -/
def noAdmits (y : Sys) : Sys := y.onSpan fun s => { s with admits := [] }

theorem admitEffect_single {r : AdmitRec} (h : y.dev.span.admits = [r]) (hdue : r.effectWbc ≤ y.dev.beat.wbc) :
    admitEffect y = applyAdmit (noAdmits y) r := by
  have htake : (y.onSpan fun s => { s with admits := s.admits.filter fun r => !decide (r.effectWbc ≤ y.dev.beat.wbc) }) =
      noAdmits y := by simp [noAdmits, Sys.onSpan, h, hdue]
  have hlist : (y.dev.span.admits.filter fun r => decide (r.effectWbc ≤ y.dev.beat.wbc)) = [r] := by simp [h, hdue]
  unfold admitEffect
  dsimp only
  rw [htake, hlist]
  rfl

theorem incOf_set {y : Sys} {id v k : Nat} : incOf (y.onSpan fun s => { s with incs := assocSet s.incs id v }).dev k =
    if k = id then v else incOf y.dev k := by
  simp only [incOf, Sys.onSpan_span, assoc_assocSet]
  by_cases h : id = k
  · rw [if_pos h, if_pos h.symm]; rfl
  · rw [if_neg h, if_neg fun hk => h hk.symm]

end Sys2Proof.Machine

namespace Sys2Proof

open Machine

variable {s : State} {p : Port}

theorem addSwitch_none {x : PortS} {mask sBeat : Nat} (h : x.switch = none) :
    addSwitch x mask sBeat = { x with switch := some ⟨Nat.land x.lanes mask, sBeat⟩ } := by
  unfold addSwitch
  rw [h]

theorem addSwitch_some {x : PortS} {mask sBeat : Nat} {w : LaneSwitch} (h : x.switch = some w) :
    addSwitch x mask sBeat = { x with switch := some ⟨Nat.land w.mask mask, max w.sBeat sBeat⟩ } := by
  unfold addSwitch
  rw [h]

theorem takeAdmit_span (y : Sys) (e : Option Nat) (r : AdmitRec) :
    (takeAdmit y e r).dev.span.admits = y.dev.span.admits ++ [r] ∧ (takeAdmit y e r).dev.span.incs = y.dev.span.incs := by
  unfold takeAdmit
  extract_lets z
  have hz : besidePorts (floodRec z e ⟨2, admitBytes r⟩) = besidePorts z := floodRec_besidePorts _ _ _
  have hadmits : z.dev.span.admits = y.dev.span.admits ++ [r] := rfl
  have hincs : z.dev.span.incs = y.dev.span.incs := rfl
  generalize floodRec z e ⟨2, admitBytes r⟩ = w at *
  exact ⟨(congrArg Span.admits hz :).trans hadmits, (congrArg Span.incs hz :).trans hincs⟩

/-- What an ADMIT record does to another device, to this one, and to this one as it is dismissed (R345). -/
theorem applyAdmit_other {y : Sys} {r : AdmitRec} (hother : r.target ≠ y.dev.span.deviceId) (hkind : r.kind = 1 ∨ r.kind = 2) :
    applyAdmit y r = y.onSpan fun x => { x with incs := assocSet x.incs r.target (if r.kind = 1 then r.newInc else 0) } := by
  have hown : (r.target == y.dev.span.deviceId) = false := by simpa using hother
  unfold applyAdmit
  rcases hkind with h | h <;> simp [h, hown]

theorem applyAdmit_own {y : Sys} {r : AdmitRec} (hown : r.target = y.dev.span.deviceId) (hkind : r.kind = 1)
    (hdis : y.dev.span.dismissed = false) : applyAdmit y r =
      ((y.onSpan fun x => { x with incs := assocSet x.incs r.target r.newInc }).onSpan fun x =>
        { x with selfInc := r.newInc, dismissed := false }).onBeat fun b => { b with alignLost := false, lossNow := false } := by
  unfold applyAdmit
  simp [hkind, hown, hdis]

/-- This device is dismissed. -/
def dismissedBy (y : Sys) (r : AdmitRec) : Sys :=
  (y.onSpan fun x => { x with incs := assocSet x.incs r.target 0 }).onSpan fun x => { x with dismissed := true }

theorem applyAdmit_dismissed {y : Sys} {r : AdmitRec} (hown : r.target = y.dev.span.deviceId) (hkind : r.kind = 2) :
    applyAdmit y r = faultStopAll (dismissedBy y r) := by
  unfold applyAdmit dismissedBy
  simp [hkind, hown]

theorem offFaultStop_span : OffFaultStop fun y : Sys => y.dev.span := fun y z hz _ => by rw [hz]

theorem port_of_dev {t : State} {y : Sys} (h : t.dev = y.dev) (q : Nat) : t.work.port q = y.port q := by
  rw [Sys.port, work_dev, h, Sys.port]

/-- Settles the clauses on link records of O31. -/
theorem portRecordsAct : PortRecordsActClause := by
  intro s p hlen
  have hp : (p : Nat) < s.work.dev.span.ports.length := by rw [work_dev, hlen]; exact p.isLt
  refine ⟨fun h ht hid => ?_, fun h hm hid hport he hv hbig => ?_, fun mask sw hc => ?_, fun r hterm hnew => ⟨fun hin => ?_, fun hlate => ?_⟩,
    fun r hone hdue => ⟨fun hother hkind => ?_, fun hown hkind hdis => ?_, fun hown hkind hparts => ?_⟩⟩
  · have heq := linkHello_misplaced ht hp hid
    obtain ⟨h1, h2, h3, h4⟩ := misplaced_port (y := helloSeen p h s.work) (h := h) (by rw [helloSeen_length]; exact hp)
    rw [helloSeen_port hp] at h3 h4
    refine completes_stackOnly (f := linkHello p h) rfl (by rw [heq, misplaced_log, helloSeen_log]; rfl) fun t hst hdev => ⟨hst, ?_⟩
    rw [port_of_dev hdev, heq]
    exact ⟨h1, h2, h3, h4⟩
  · have heq := linkHello_measured hm hp hid hport he
    obtain ⟨t0, hz, hlog⟩ := helloMeasured_closes (y := helloSeen p h s.work) (h := h) (by rw [helloSeen_length]; exact hp) hv hbig
    refine completes_stackOnly (f := linkHello p h) rfl (by rw [heq, hlog, helloSeen_log]; rfl) fun t hst hdev => ⟨hst, ?_⟩
    rw [port_of_dev hdev, heq, hz]
    exact ⟨rfl, delayBeats_eq _, rfl⟩
  · have hpaused : (s.work.port p).state ≠ .paused := ne_paused_of_carries hc
    have hwake := wakePort_of_not_paused hpaused
    have hz : (wakePort s.work p).port p = { s.work.port p with holdIdle := false } := by rw [hwake, port_onPort_self _ _ hp]
    have heq : laneState p mask sw s.work = (wakePort s.work p).onPort p fun x => addSwitch x (mask % 16) sw := by
      unfold laneState
      exact if_pos (by rw [hz]; simp only [portLive]; exact (Bool.or_eq_true _ _).mpr (.inl hc))
    have hport : ((wakePort s.work p).onPort p fun x => addSwitch x (mask % 16) sw).port p =
        addSwitch { s.work.port p with holdIdle := false } (mask % 16) sw := by
      rw [port_onPort_self _ _ (by rw [wakePort_length]; exact hp), hz]
    refine completes_stackOnly (f := laneState p mask sw) rfl (by rw [heq, hwake]; rfl) fun t hst hdev => ⟨⟨hst, ?_⟩, ?_, ?_⟩
    · rw [hdev, heq, hwake]; rfl
    · intro hnone
      rw [port_of_dev hdev, heq, hport, addSwitch_none (x := { s.work.port p with holdIdle := false }) hnone]
    · intro w hw
      rw [port_of_dev hdev, heq, hport, addSwitch_some (x := { s.work.port p with holdIdle := false }) hw]
  · have heq := (admitRecord_new (y := s.work) (p := p) hterm hnew).trans (if_neg (Nat.not_lt.mpr hin))
    obtain ⟨hadmits, hincs⟩ := takeAdmit_span (wakePort s.work p) (some p) r
    have hwake := wakePort_besidePorts s.work p
    refine completes_stackOnly (f := admitRecord p r) rfl ?_ fun t hst hdev => ⟨hst, ?_, ?_⟩
    · rw [heq, takeAdmit, floodRec_log]; exact wakePort_log _ _
    · rw [hdev, heq, hadmits]
      exact (congrArg (fun x => x.admits ++ [r]) hwake :)
    · rw [hdev, heq, hincs]
      exact (congrArg Span.incs hwake :)
  · have heq := (admitRecord_new (y := s.work) (p := p) hterm hnew).trans (if_pos hlate)
    obtain ⟨hl, ha⟩ := holdLate_beat (wakePort s.work p)
    refine completes_stackOnly (f := admitRecord p r) rfl ?_ fun t hst hdev => ⟨hst, ?_, ?_, ?_⟩
    · rw [heq, holdLate, lossOfAlignment_log]; exact wakePort_log _ _
    · rw [hdev, heq]; exact hl
    · rw [hdev, heq]; exact ha
    · rw [hdev, heq]
      exact (congrArg Span.admits ((holdLate_besidePorts _).trans (wakePort_besidePorts _ _)) :)
  · have heq := (admitEffect_single hone hdue).trans (applyAdmit_other (y := noAdmits s.work) hother hkind)
    refine completes_stackOnly (f := admitEffect) rfl (by rw [heq]; rfl) fun t hst hdev => ⟨hst, ?_, ?_, fun id => ?_⟩
    · rw [hdev, heq]; rfl
    · rw [hdev, heq]; rfl
    · rw [hdev, heq]; exact incOf_set
  · have heq := (admitEffect_single hone hdue).trans (applyAdmit_own (y := noAdmits s.work) hown hkind hdis)
    refine completes_stackOnly (f := admitEffect) rfl (by rw [heq]; rfl) fun t hst hdev => ⟨hst, ?_, ?_, ?_⟩
    · rw [hdev, heq]; rfl
    · rw [hdev, heq]; exact incOf_set.trans (if_pos rfl)
    · rw [hdev, heq]; rfl
  · have heq := (admitEffect_single hone hdue).trans (applyAdmit_dismissed (y := noAdmits s.work) hown hkind)
    have hstop := faultStopAll_keeps Sys.log (dismissedBy (noAdmits s.work) r) (fun _ _ => rfl)
      (fun _ _ => rfl) (fun _ _ => rfl) (fun _ _ => rfl) (fun _ _ _ => rfl) (fun _ _ => rfl) (fun _ _ => rfl)
    have hspan := offFaultStop_span.faultStopAll (dismissedBy (noAdmits s.work) r)
    refine completes_stackOnly (f := admitEffect) rfl (by rw [heq, hstop]; rfl) fun t hst hdev => ⟨hst, ?_, ?_, fun q hq => ?_⟩
    · rw [hdev, heq, hspan]; rfl
    · rw [hdev, heq, incOf, hspan]; exact incOf_set.trans (if_pos rfl)
    · rw [hdev, heq]
      exact faultStopAll_stops (y := dismissedBy (noAdmits s.work) r) hparts q hq

/- The states of a port. -/

/-- The place of a port as a write of SPAN_PORT_PLACE gives it (R349). -/
def placed (n : Nat) (x : PortS) : PortS := { x with expId := bits n 0 11, expPort := bits n 12 4, use := bitAt n 16, fast := bitAt n 17 }

theorem placeWrite_retrain {y : Sys} {p : Nat} {v : W32} (hp : p < y.dev.span.ports.length) (huse : bitAt v.toNat 16 = true)
    (hre : bitAt v.toNat 18 = true) (hrouter : routerUsable y.dev.noc.failed (portSite p) = true)
    (hst : (y.port p).state = .down ∨ (y.port p).state = .lost ∨ (y.port p).state = .misplaced) :
    placeWrite p v y = setPort ((y.onPort p (placed v.toNat)).onPort p (startTraining y.dev.boot.warmStart)) p .training := by
  have hport : (y.onPort p (placed v.toNat)).port p = placed v.toNat (y.port p) := port_onPort_self _ _ hp
  have hfree : ((placed v.toNat (y.port p)).state == .down || (placed v.toNat (y.port p)).state == .lost ||
      (placed v.toNat (y.port p)).state == .misplaced) = true := by
    rcases hst with h | h | h <;> simp [placed, h]
  have hplaced : placed v.toNat = fun x => { x with
      expId := bits v.toNat 0 11, expPort := bits v.toNat 12 4, use := bitAt v.toNat 16, fast := bitAt v.toNat 17 } := rfl
  unfold placeWrite
  dsimp only
  rw [← hplaced, hport, if_neg (by simp [placed, huse])]
  exact if_pos (by rw [hre, hfree]; simp [hrouter])

theorem placeWrite_clear {y : Sys} {p : Nat} {v : W32} (hp : p < y.dev.span.ports.length) (huse : bitAt v.toNat 16 = false) :
    placeWrite p v y = settleLinks (setPort ((y.onPort p (placed v.toNat)).onPort p fun x =>
      { x with idleElectric := true, switch := none, holdIdle := false, lossStop := false }) p .down) := by
  have hport : (y.onPort p (placed v.toNat)).port p = placed v.toNat (y.port p) := port_onPort_self _ _ hp
  have hplaced : placed v.toNat = fun x => { x with
      expId := bits v.toNat 0 11, expPort := bits v.toNat 12 4, use := bitAt v.toNat 16, fast := bitAt v.toNat 17 } := rfl
  unfold placeWrite
  dsimp only
  rw [← hplaced, hport]
  exact if_pos (by simp [placed, huse])

theorem degradeStops_port (y : Sys) (p q : Nat) : besideRecs ((degradeStops y p).port q) = besideRecs (y.port q) := by
  have hspan : ∀ l, (y.each l faultStop).dev.span = y.dev.span := fun l =>
    Sys.each_keeps (fun z => z.dev.span) y _ _ fun z _ _ => offFaultStop_span.faultStop z _
  unfold degradeStops
  dsimp only
  split
  · rfl
  · rw [requestHold_besideRecs, Sys.port, hspan, Sys.port]

theorem degradeStops_log (y : Sys) (p : Nat) : (degradeStops y p).log = y.log := by
  have hlog : ∀ l, (y.each l faultStop).log = y.log := fun l =>
    Sys.each_keeps Sys.log y _ _ fun z _ _ => OffFaultStop.faultStop (v := Sys.log) (fun y z hz _ => by rw [hz]) z _
  unfold degradeStops
  dsimp only
  split
  · rfl
  · rw [requestHold_log, hlog]

theorem portLive_of_liveState {x : PortS} (h : liveState x) : portLive x = true := by
  rcases h with h | h | h <;> simp [portLive, portCarries, h]

theorem laneSwitch_masked {y : Sys} {p : Nat} {w : LaneSwitch} (hw : (y.port p).switch = some w) (hdue : w.sBeat ≤ y.dev.beat.wbc)
    (hlive : portLive (y.port p) = true) : laneSwitch p y =
      if laneCount w.mask < 3 then partnerLost y p
      else
        let z := y.onPort p fun x => { x with
          switch := none, lanes := w.mask, lanesFailed := Nat.lor x.lanesFailed (15 - w.mask), degradeEvent := true, wasDegraded := true }
        degradeStops (if (y.port p).state = .paused then z else setPort z p .degraded) p := by
  unfold laneSwitch
  dsimp only
  rw [hw]
  exact if_neg (by simp [hlive, hdue])

/-- The switch beat of a failed lane: the first multiple of 8 that is at least the beat asked for (R338). -/
theorem bits_zero (n w : Nat) : bits n 0 w = n % 2 ^ w := by rw [bits, Nat.pow_zero, Nat.div_one]

theorem ceilDiv_eight (n : Nat) : ceilDiv n 8 * 8 % 8 = 0 ∧ n ≤ ceilDiv n 8 * 8 ∧ ceilDiv n 8 * 8 < n + 8 := by
  rw [ceilDiv]
  omega

/-- The state in which the qualification of a port ends, by the lanes that passed (R337). -/
def qualified (n : Nat) : PortState := if n = 4 then .ready else if n = 3 then .degraded else .down

theorem qualificationEnd_eq {y : Sys} {p : Nat} (hp : p < y.dev.span.ports.length) (hq : (y.port p).state = .qualifying)
    (hlong : stateLasted y p (qualBeats (y.port p)) = true) (passed : Nat) : ∃ z, (z.port p).lanePass = Nat.land passed (y.port p).lanes ∧
      qualificationEnd p passed y = setPort z p (qualified (laneCount (Nat.land passed (y.port p).lanes))) ∧ z.log = y.log ∧
      z.dev.span.ports.length = y.dev.span.ports.length := by
  unfold qualificationEnd
  dsimp only
  rw [if_neg (by simp [hq, hlong])]
  exact ⟨_, by rw [port_onPort_self _ _ hp], rfl, rfl, onPort_length _ _ _⟩

theorem laneFailure_live {y : Sys} {p lane : Nat} (hlive : portLive (y.port p) = true) (hlane : bitAt (y.port p).lanes lane = true) :
    laneFailure p lane y = y.onPort p fun x =>
      { addSwitch x (15 - 2 ^ lane) (ceilDiv (y.dev.beat.wbc + 2 * (y.port p).delay + 4) 8 * 8) with
        lanesFailed := Nat.lor x.lanesFailed (2 ^ lane) } := by
  unfold laneFailure
  exact if_neg (by simp [hlive, hlane])

/-- A lane switch that leaves three lanes (R338, R339). -/
theorem laneSwitch_degraded {y : Sys} {p : Nat} (hp : p < y.dev.span.ports.length) (w : LaneSwitch) :
    let z := y.onPort p fun x => { x with
      switch := none, lanes := w.mask, lanesFailed := Nat.lor x.lanesFailed (15 - w.mask), degradeEvent := true, wasDegraded := true }
    let t := degradeStops (if (y.port p).state = .paused then z else setPort z p .degraded) p
    t.log = y.log ∧ (t.port p).lanes = w.mask ∧ (t.port p).switch = none ∧
      (t.port p).state = if (y.port p).state = .paused then .paused else .degraded := by
  intro z t
  have hzp : z.port p = _ := port_onPort_self _ _ hp
  obtain ⟨t0, ht0⟩ := setPort_port_self (y := z) (p := p) (new := .degraded) (by rw [onPort_length]; exact hp)
  rw [hzp] at ht0
  have ht := degradeStops_port (if (y.port p).state = .paused then z else setPort z p .degraded) p p
  refine ⟨(degradeStops_log _ _).trans ?_, ?_⟩
  · split
    · rfl
    · exact setPort_log _ _ _
  · simp only [t]
    rw [eq_of_besideRecs ht]
    split
    next h => rw [hzp]; exact ⟨rfl, rfl, h⟩
    next => rw [ht0]; exact ⟨rfl, rfl, rfl⟩

/-- Settles the clauses on the states of a port of O31. -/
theorem portStates : PortStatesClause := by
  intro s p hlen
  have hp : (p : Nat) < s.work.dev.span.ports.length := by rw [work_dev, hlen]; exact p.isLt
  refine ⟨fun v huse hre hrouter hst => ?_, fun v huse => ?_, fun htr => ⟨fun lanes hlanes hcount => ?_, fun hlong => ?_⟩,
    fun passed hq hlong => ?_, fun lane hlive hlane hnone => ?_, fun w hw hdue hlive => ⟨fun hcount => ?_, fun hcount => ?_⟩,
    fun i hi => ?_, fun v hdown => ?_, fun v hup => ?_⟩
  · rw [getLsbD_eq_bitAt] at huse hre
    have heq := placeWrite_retrain (y := s.work) hp huse hre hrouter hst
    obtain ⟨t0, ht0⟩ := setPort_port_self (y := (s.work.onPort p (placed v.toNat)).onPort p (startTraining s.work.dev.boot.warmStart))
      (p := p) (new := .training) (by simp only [onPort_length]; exact hp)
    rw [port_onPort_self _ _ (by rw [onPort_length]; exact hp), port_onPort_self _ _ hp] at ht0
    refine completes_stackOnly (f := placeWrite p v) rfl (by rw [heq, setPort_log]; rfl) fun t hst hdev => ⟨hst, ?_⟩
    rw [port_of_dev hdev, heq, ht0]
    refine ⟨rfl, huse, bits_zero _ _, rfl, rfl, rfl, rfl, fun q hne => ?_⟩
    rw [port_of_dev hdev, heq, setPort_port_of_ne hne.symm, port_onPort_of_ne _ _ hne.symm, port_onPort_of_ne _ _ hne.symm]
  · rw [getLsbD_eq_bitAt] at huse
    have heq := placeWrite_clear (y := s.work) hp huse
    obtain ⟨t0, ht0⟩ := setPort_port_self (y := (s.work.onPort p (placed v.toNat)).onPort p fun x =>
      { x with idleElectric := true, switch := none, holdIdle := false, lossStop := false })
      (p := p) (new := .down) (by simp only [onPort_length]; exact hp)
    rw [port_onPort_self _ _ (by rw [onPort_length]; exact hp), port_onPort_self _ _ hp] at ht0
    have hlog : (placeWrite p v s.work).log = [] := by
      rw [heq, settleLinks_keeps Sys.log _ (fun _ _ => rfl) fun _ _ => rfl, setPort_log]; rfl
    refine completes_stackOnly (f := fun y => placeWrite p v y) rfl hlog fun t hst hdev => ⟨hst, ?_⟩
    rw [port_of_dev hdev, heq, settleLinks_port, ht0]
    refine ⟨rfl, huse, rfl, fun q hne => ?_⟩
    rw [port_of_dev hdev, heq, settleLinks_port, setPort_port_of_ne hne.symm, port_onPort_of_ne _ _ hne.symm, port_onPort_of_ne _ _ hne.symm]
  · have heq : trainingLock p lanes s.work = setPort (s.work.onPort p fun x => { x with lanes := lanes % 16 }) p .measuring :=
      if_pos ⟨htr, hcount⟩
    obtain ⟨t0, ht0⟩ := setPort_port_self (y := s.work.onPort p fun x => { x with lanes := lanes % 16 }) (p := p) (new := .measuring)
      (by rw [onPort_length]; exact hp)
    rw [port_onPort_self _ _ hp] at ht0
    refine completes_stackOnly (f := trainingLock p lanes) rfl (by rw [heq, setPort_log]; rfl) fun t hst hdev => ⟨hst, ?_⟩
    rw [port_of_dev hdev, heq, ht0]
    exact ⟨rfl, Nat.mod_eq_of_lt hlanes⟩
  · have heq : trainingTimeout p s.work = setPort (s.work.onPort p fun x => { x with idleElectric := true }) p .down := if_pos ⟨htr, hlong⟩
    obtain ⟨t0, ht0⟩ := setPort_port_self (y := s.work.onPort p fun x => { x with idleElectric := true }) (p := p) (new := .down)
      (by rw [onPort_length]; exact hp)
    rw [port_onPort_self _ _ hp] at ht0
    refine completes_stackOnly (f := trainingTimeout p) rfl (by rw [heq, setPort_log]; rfl) fun t hst hdev => ⟨hst, ?_⟩
    rw [port_of_dev hdev, heq, ht0]
    exact ⟨rfl, rfl⟩
  · obtain ⟨z, hz, heq, hzlog, hzlen⟩ := qualificationEnd_eq hp hq hlong passed
    obtain ⟨t0, ht0⟩ := setPort_port_self (y := z) (p := p) (new := qualified (laneCount (Nat.land passed (s.work.port p).lanes)))
      (by rw [hzlen]; exact hp)
    refine completes_stackOnly (f := qualificationEnd p passed) rfl (by rw [heq, setPort_log, hzlog]; rfl) fun t hst hdev => ⟨hst, ?_⟩
    rw [port_of_dev hdev, heq, ht0]
    exact ⟨hz, rfl⟩
  · have heq := laneFailure_live (y := s.work) (lane := lane) (portLive_of_liveState hlive) hlane
    have hport := port_onPort_self s.work (fun x =>
      { addSwitch x (15 - 2 ^ lane.val) (ceilDiv (s.work.dev.beat.wbc + 2 * (s.work.port p).delay + 4) 8 * 8) with
        lanesFailed := Nat.lor x.lanesFailed (2 ^ lane.val) }) hp
    rw [addSwitch_none hnone] at hport
    obtain ⟨h8, hle, hlt⟩ := ceilDiv_eight (s.dev.beat.wbc + 2 * (s.work.port p).delay + 4)
    refine completes_stackOnly (f := laneFailure p lane.val) rfl (by rw [heq]; rfl) fun t hst hdev => ⟨⟨hst, ?_⟩, ?_⟩
    · rw [hdev, heq]; rfl
    · rw [port_of_dev hdev, heq, hport]
      exact ⟨rfl, rfl, rfl, _, rfl, rfl, h8, hle, hlt⟩
  · have heq := (laneSwitch_masked hw hdue (portLive_of_liveState hlive)).trans (if_neg (Nat.not_lt.mpr hcount))
    obtain ⟨hlog, hlanes, hsw, hst'⟩ := laneSwitch_degraded hp w
    refine completes_stackOnly (f := laneSwitch p) rfl (by rw [heq, hlog]; rfl) fun t hst hdev => ⟨hst, ?_⟩
    rw [port_of_dev hdev, heq]
    exact ⟨hlanes, hsw, hst'⟩
  · have heq := (laneSwitch_masked hw hdue (portLive_of_liveState hlive)).trans (if_pos hcount)
    obtain ⟨h1, h2, _⟩ := partnerLost_port hp
    refine completes_stackOnly (f := laneSwitch p) rfl (by rw [heq, partnerLost_log]; rfl) fun t hst hdev => ⟨hst, ?_⟩
    rw [port_of_dev hdev, heq]
    exact ⟨h1, h2⟩
  · have hex : ∃ f : Sys → Sys, exec i s = onSys f s ∧ f s.work = partnerLost s.work p := by
      rcases hi with ⟨rfl, hlive⟩ | ⟨rfl, hp, hlong⟩
      · exact ⟨codewordLockLoss p, rfl, if_pos (portLive_of_liveState hlive)⟩
      · exact ⟨holdIdleTimeout p, rfl, if_pos ⟨hp, hlong⟩⟩
    obtain ⟨f, hf, heq⟩ := hex
    obtain ⟨h1, h2, h3⟩ := partnerLost_port hp
    refine completes_stackOnly hf (by rw [heq, partnerLost_log]; rfl) fun t hst hdev => ⟨hst, ?_⟩
    rw [port_of_dev hdev, hdev, heq]
    exact ⟨h1, h2, h3, partnerLost_wbc _ _⟩
  · refine next_of_onSys (f := spanSelfWrite v) rfl ((if_neg ?_).trans ?_)
    · simpa using hdown
    · rw [bits_zero]; rfl
  · refine next_of_onSys_same (f := spanSelfWrite v) rfl (if_pos ?_)
    simpa using hup

/-- Settles O31: link records by `portRecordsAct`, states by `portStates`. -/
theorem portsChange : Obligations.PortsChange := ⟨portRecordsAct, portStates⟩

end Sys2Proof
end

section
/-! PROOF. The halves of the host link (R351, R355, R356, R358, R368). -/

-- One proof after another: elaborated in parallel, the text as a whole needs more memory than the check allows.
set_option Elab.async false

namespace Sys2Proof.Machine

variable {y : Sys} {h k : Nat}

theorem half_onHalf_self (y : Sys) (f : HalfS → HalfS) (hlt : h < y.dev.host.halves.length) : (y.onHalf h f).half h = f (y.half h) := by
  simp [Sys.half, nth, upd, List.getElem?_eq_getElem hlt]

theorem half_onHalf_of_ne (y : Sys) (f : HalfS → HalfS) (hne : h ≠ k) : (y.onHalf h f).half k = y.half k := by
  simp [Sys.half, nth, upd, hne]

theorem onHalf_length (y : Sys) (h : Nat) (f : HalfS → HalfS) : (y.onHalf h f).dev.host.halves.length = y.dev.host.halves.length :=
  upd_length _ _ _

theorem event_half (y : Sys) (code : Nat) (data : List Byte) (h : Nat) : (event y code data).half h = y.half h := by
  rw [Sys.half, event_halves, Sys.half]

theorem half_of_dev {t : State} {y : Sys} (hd : t.dev = y.dev) (h : Nat) : t.work.half h = y.half h := by
  rw [Sys.half, work_dev, hd, Sys.half]

/-- Two updates of one half are one. -/
theorem onHalf_onHalf (y : Sys) (h : Nat) (f g : HalfS → HalfS) : (y.onHalf h f).onHalf h g = y.onHalf h fun x => g (f x) := by
  simp only [Sys.onHalf, Sys.onHost, upd, List.modify_modify_eq]
  rfl

/- Training and failure of a half (R351, R356, R368). -/

theorem halfTrained_eq (hst : (y.half h).state ≠ 2) (hon : y.dev.boot.power ≠ .off) (huse : halfUsable y.dev h = true) :
    halfTrained h y =
      let z := y.onHalf h fun x => { state := 2, txQ := x.txQ, retries := x.retries, crcErr := x.crcErr }
      event z 0x0702 (leBytes 1 (halvesUp z.dev)) := by
  unfold halfTrained
  exact if_neg (by simp [hst, hon, huse])

/-- A failed half and what it leaves to the other one, before the event. -/
def handedOver (y : Sys) (h o : Nat) : Sys :=
  (y.onHalf h fun x => { x with state := 0, idleElectric := true, unacked := [], txNow := [], txQ := [], resend := none }).onHalf o fun z =>
    { z with txQ := ({ op := 0x40, addr := 2 ^ o } : HostMsg) :: ((y.half h).unacked.flatMap SentFlit.msgs ++ (y.half h).txQ) ++ z.txQ }

/-- One half up. -/
theorem halvesUp_one {d : Dev} {h o : Half} (hne : o ≠ h) (hh : (nth d.host.halves h {}).state ≠ 2)
    (ho : (nth d.host.halves o {}).state = 2) : halvesUp d = 2 ^ (o : Nat) := by
  have hup : ∀ k : Half, ((nth d.host.halves k {}).state == 2) = (k == o) := fun k => by
    by_cases hk : k = o
    · subst hk; simp [ho]
    · have hkh : k = h := by
        have hk' : (k : Nat) ≠ o := fun e => hk (Fin.ext e)
        have hne' : (o : Nat) ≠ h := fun e => hne (Fin.ext e)
        have hk2 := k.isLt; have hh2 := h.isLt; have ho2 := o.isLt
        exact Fin.ext (by omega)
      rw [hkh, beq_eq_false_iff_ne.mpr hh, beq_eq_false_iff_ne.mpr hne.symm]
  have h0 := hup 0
  have h1 := hup 1
  simp only [Fin.val_zero, Fin.val_one] at h0 h1
  simp only [halvesUp, List.range_succ, List.range_zero, List.nil_append, List.cons_append, List.filter_cons, List.filter_nil, h0, h1]
  clear hup h0 h1 hh ho hne
  revert o
  decide

/-- With the other half up, a half that goes down hands over and reports, and the link is not lost. -/
theorem halfDown_eq {h o : Half} (hlen : y.dev.host.halves.length = 2) (hne : o ≠ h) (hst : (y.half h).state = 2)
    (ho : (y.half o).state = 2) : ∃ data, halfDown y h = event (handedOver y h o) 0x0702 data := by
  have hne' : (h : Nat) ≠ o := fun e => hne (Fin.ext e.symm)
  have ho1 : (1 - (h : Nat)) = o := by have hh2 := h.isLt; have ho2 := o.isLt; omega
  have hlth : (h : Nat) < y.dev.host.halves.length := by rw [hlen]; exact h.isLt
  have hlto : (o : Nat) < y.dev.host.halves.length := by rw [hlen]; exact o.isLt
  have hdown : ∀ f : HalfS → HalfS, (∀ x, (f x).state = 0) → halvesUp (y.onHalf h f).dev = 2 ^ (o : Nat) := fun f hf =>
    halvesUp_one hne (show ((y.onHalf h f).half h).state ≠ 2 by rw [half_onHalf_self _ _ hlth, hf]; decide)
      (show ((y.onHalf h f).half o).state = 2 by rw [half_onHalf_of_ne _ _ hne', ho])
  refine ⟨leBytes 1 (2 ^ (o : Nat)), ?_⟩
  have hlive : linkLost (event (handedOver y h o) 0x0702 (leBytes 1 (2 ^ (o : Nat)))).dev = false := by
    have hx : ((event (handedOver y h o) 0x0702 (leBytes 1 (2 ^ (o : Nat)))).half o).state = 2 := by
      rw [event_half, handedOver, half_onHalf_self _ _ (by rw [onHalf_length]; exact hlto), half_onHalf_of_ne _ _ hne']
      exact ho
    have hl : (o : Nat) < (event (handedOver y h o) 0x0702 (leBytes 1 (2 ^ (o : Nat)))).dev.host.halves.length := by
      rw [event_halves, handedOver, onHalf_length, onHalf_length]; exact hlto
    rw [linkLost, List.all_eq_false]
    refine ⟨_, List.getElem_mem hl, ?_⟩
    rw [Sys.half, nth, List.getElem?_eq_getElem hl] at hx
    simpa using hx
  unfold halfDown
  dsimp only
  rw [if_neg (by simp [hst]), ho1, hdown _ (fun _ => rfl)]
  exact if_neg (by rw [handedOver] at hlive; rw [hlive]; exact Bool.false_ne_true)

/- Flits (R353 to R355). -/

/-- A bad flit is discarded and counted, and asked for again (R354, R355). -/
theorem hostFlit_bad {f : HostFlit} (hst : (y.half h).state = 2) (hbad : f.uncorr = true ∨ 2 ≤ f.kind ∨ crc32c (hostFlitBytes f) ≠ f.crc) :
    hostFlit h f y = y.onHalf h fun x => { x with crcErr := sat32 (x.crcErr + 1), retryPending := true } := by
  unfold hostFlit
  dsimp only
  rw [if_neg (by simp [hst])]
  refine if_pos ?_
  rcases hbad with hb | hb | hb <;> simp [hb]

/-- A half with the acknowledgement and the credits of a flit. -/
def acked (f : HostFlit) (x : HalfS) : HalfS :=
  { x with unacked := if f.ackValid then dropAcked f.ackSeq x.unacked else x.unacked
           credits := (List.zip (List.range 5) x.credits).map fun c => c.2 + nth f.credit c.1 0 }

theorem takeAck_sound {f : HostFlit} (hretry : f.retryReq = false) : takeAck y h f = y.onHalf h (acked f) := by
  unfold takeAck
  exact if_pos (by simp [hretry])

/-- A sound flit is acknowledged; what it carries is taken when its turn has come (R354, R355). -/
theorem hostFlit_sound {f : HostFlit} (hst : (y.half h).state = 2) (hu : f.uncorr = false) (hk : f.kind < 2)
    (hcrc : crc32c (hostFlitBytes f) = f.crc) (hretry : f.retryReq = false) : hostFlit h f y =
      let z := y.onHalf h (acked f)
      let want := if (y.half h).rxGot then ((y.half h).rxSeq + 1) % 4096 else 0
      if f.kind = 0 then z
      else if f.seq = want then
        let w := z.onHalf h fun x => { x with rxSeq := f.seq, rxGot := true, retryPending := false, rxUnits := x.rxUnits ++ padTo 224 f.units }
        takeUnits h ((w.half h).rxUnits.length / 16) w
      else if (f.seq + 4096 - want) % 4096 < 2048 then z.onHalf h fun x => { x with crcErr := sat32 (x.crcErr + 1), retryPending := true }
      else z.onHalf h fun x => { x with crcErr := sat32 (x.crcErr + 1) } := by
  unfold hostFlit
  dsimp only
  rw [if_neg (by simp [hst]), if_neg (by simp [hu, hk, hcrc]), takeAck_sound hretry]

/-- What the taking of units leaves alone: everything but the unit streams, and of a half its sequence. -/
def besideUnits (y : Sys) : Sys := { y with dev := { y.dev with host := {}, free := 0 } }

def rxState (y : Sys) (h : Nat) : Nat × Bool × Bool × Nat :=
  ((y.half h).rxSeq, (y.half h).rxGot, (y.half h).retryPending, y.dev.host.halves.length)

theorem rxState_onHalf {f : HalfS → HalfS} (hf : ∀ x, ((f x).rxSeq, (f x).rxGot, (f x).retryPending) = (x.rxSeq, x.rxGot, x.retryPending)) :
    rxState (y.onHalf h f) h = rxState y h := by
  by_cases hlt : h < y.dev.host.halves.length
  · have hx := hf (y.half h)
    simp only [Prod.mk.injEq] at hx
    simp only [rxState, half_onHalf_self _ _ hlt, onHalf_length, hx]
  · have hsame : (y.onHalf h f).half h = y.half h := by
      simp [Sys.half, nth, upd, List.getElem?_eq_none (Nat.not_lt.mp hlt)]
    simp only [rxState, hsame, onHalf_length]

theorem takeUnits_keeps (fuel : Nat) (y : Sys) : besideUnits (takeUnits h fuel y) = besideUnits y ∧
    rxState (takeUnits h fuel y) h = rxState y h := by
  induction fuel generalizing y with
  | zero => exact ⟨rfl, rfl⟩
  | succ fuel ih =>
    unfold takeUnits
    extract_lets u n z r w
    split
    · exact ⟨rfl, rfl⟩
    · split
      · obtain ⟨h1, h2⟩ := ih (y.onHalf h fun x => { x with rxUnits := u.drop 16 })
        exact ⟨h1, h2.trans (rxState_onHalf fun _ => rfl)⟩
      · split
        · exact ⟨rfl, rfl⟩
        · have hz : rxState z h = rxState y h := rxState_onHalf fun _ => rfl
          have hw : besideUnits w = besideUnits y ∧ rxState w h = rxState y h := by
            by_cases hop : hostOpcodes.contains (fld u 0 1) = true
            · simp only [w, hop, if_true]
              exact ⟨rfl, hz⟩
            · simp only [w, hop, Bool.false_eq_true, if_false]
              refine ⟨event_keeps besideUnits _ (fun _ _ => rfl) _ _, ?_⟩
              rw [rxState, event_half, event_halves]
              exact hz
          obtain ⟨h1, h2⟩ := ih w
          exact ⟨h1.trans hw.1, h2.trans hw.2⟩

theorem eq_of_besideUnits {z : Sys} (h : besideUnits z = besideUnits y) : z = { y with dev := { y.dev with
    host := z.dev.host, free := z.dev.free } } :=
  congrArg (fun x : Sys => { x with dev := { x.dev with host := z.dev.host, free := z.dev.free } }) h

end Sys2Proof.Machine

namespace Sys2Proof

open Machine

/-- HALF_STATE with one half down: that half goes down (R351). -/
theorem each_halfState {h o : Half} {b : Nat} (hne : o ≠ h) (hbh : bitAt b h = false) (hbo : bitAt b o = true) (y : Sys) :
    (y.each (List.range 2) fun y k => if bitAt b k then y else halfDown y k) = halfDown y h := by
  have hne' : (o : Nat) ≠ h := fun e => hne (Fin.ext e)
  have hcase : ((h : Nat) = 0 ∧ (o : Nat) = 1) ∨ ((h : Nat) = 1 ∧ (o : Nat) = 0) := by
    have hh2 := h.isLt; have ho2 := o.isLt; omega
  rcases hcase with ⟨h0, o1⟩ | ⟨h1, o0⟩
  · rw [h0] at hbh ⊢; rw [o1] at hbo
    simp [Sys.each, List.range_succ, hbh, hbo]
  · rw [h1] at hbh ⊢; rw [o0] at hbo
    simp [Sys.each, List.range_succ, hbh, hbo]

/-- Settles O32: training by `halfTrained_eq`, flits by `hostFlit_bad` and `hostFlit_sound`, failures by `halfDown_eq`. -/
theorem hostHalves : Obligations.HostHalves := by
  intro s h hlen
  have hlt : (h : Nat) < s.work.dev.host.halves.length := by rw [work_dev, hlen]; exact h.isLt
  refine ⟨fun hst hon huse => ?_, fun f hst => ⟨fun hbad => ?_, fun hu hcrc hretry => ⟨fun hk => ?_, fun hk hseq => ?_⟩⟩, fun n hn => ?_,
    fun o i hi hne hst ho => ?_⟩
  · have heq := halfTrained_eq (y := s.work) hst hon huse
    have hport := half_onHalf_self s.work (fun x => { state := 2, txQ := x.txQ, retries := x.retries, crcErr := x.crcErr }) hlt
    dsimp only at heq
    refine completes_stackOnly (f := halfTrained h) rfl (by rw [heq, event_log]; rfl) fun t ht hdev => ⟨ht, ?_, ?_⟩
    · rw [hdev, heq, event_eq_onHost]; rfl
    · rw [half_of_dev hdev, hdev, heq, event_half, event_evtSeq, hport]
      exact ⟨rfl, rfl, rfl, rfl⟩
  · exact next_of_onSys (f := hostFlit h f) rfl (hostFlit_bad hst hbad)
  · have heq := (hostFlit_sound (y := s.work) hst hu (by rw [hk]; decide) hcrc hretry).trans (if_pos hk)
    refine completes_stackOnly (f := hostFlit h f) rfl (by rw [heq]; rfl) fun t ht hdev => ⟨ht, by rw [hdev, heq]; rfl, ?_⟩
    rw [half_of_dev hdev, heq, half_onHalf_self _ _ hlt]
    exact ⟨rfl, rfl, rfl⟩
  · have heq := (hostFlit_sound (y := s.work) hst hu (by rw [hk]; decide) hcrc hretry).trans ((if_neg (by rw [hk]; decide)).trans (if_pos hseq))
    dsimp only at heq
    rw [onHalf_onHalf] at heq
    generalize hw : (s.work.onHalf h fun x => { acked f x with
      rxSeq := f.seq, rxGot := true, retryPending := false, rxUnits := (acked f x).rxUnits ++ padTo 224 f.units }) = w at heq
    have hwh := half_onHalf_self s.work (fun x => { acked f x with
      rxSeq := f.seq, rxGot := true, retryPending := false, rxUnits := (acked f x).rxUnits ++ padTo 224 f.units }) hlt
    rw [hw] at hwh
    obtain ⟨hbeside, hrx⟩ := takeUnits_keeps (h := h) ((w.half h).rxUnits.length / 16) w
    have hall := eq_of_besideUnits hbeside
    generalize takeUnits h ((w.half h).rxUnits.length / 16) w = z at heq hbeside hrx hall
    refine completes_stackOnly (f := hostFlit h f) rfl ?_ fun t ht hdev => ⟨ht, ?_, ?_⟩
    · rw [heq, hall, ← hw]; rfl
    · rw [hdev, heq, hall, ← hw]; rfl
    · rw [half_of_dev hdev, heq]
      simp only [rxState, Prod.mk.injEq] at hrx
      rw [hrx.1, hrx.2.1, hrx.2.2.1, hwh]
      exact ⟨rfl, rfl, rfl⟩
  · refine completes_stackOnly (f := hostFlitResend h) rfl rfl fun t ht hdev => ⟨ht, ?_⟩
    rw [half_of_dev hdev, hostFlitResend, half_onHalf_self _ _ hlt]
    simp only [hn]
    exact ⟨trivial, trivial, trivial, trivial⟩
  · obtain ⟨data, hdown⟩ := halfDown_eq (y := s.work) hlen hne hst ho
    have hex : ∃ f : Sys → Sys, exec i s = onSys f s ∧ f s.work = halfDown s.work h := by
      rcases hi with rfl | ⟨l, rfl⟩ | ⟨b, rfl, hbh, hbo⟩
      · exact ⟨fun y => halfDown y h, rfl, rfl⟩
      · exact ⟨fun y => halfDown y h, rfl, rfl⟩
      · exact ⟨fun y => y.each (List.range 2) fun y k => if bitAt b.toNat k then y else halfDown y k, rfl,
          each_halfState hne (by rw [← getLsbD_eq_bitAt]; exact hbh) (by rw [← getLsbD_eq_bitAt]; exact hbo) s.work⟩
    obtain ⟨f, hf, heq⟩ := hex
    rw [hdown] at heq
    have hne' : (h : Nat) ≠ o := fun e => hne (Fin.ext e.symm)
    have hlto : (o : Nat) < s.work.dev.host.halves.length := by rw [work_dev, hlen]; exact o.isLt
    refine completes_stackOnly hf (by rw [heq, event_log]; rfl) fun t ht hdev => ⟨ht, ?_, ?_⟩
    · rw [hdev, heq, event_eq_onHost]; rfl
    · rw [half_of_dev hdev h, half_of_dev hdev o, hdev, heq, event_half, event_half, event_evtSeq, handedOver,
        half_onHalf_of_ne _ _ hne'.symm, half_onHalf_self _ _ hlt, half_onHalf_self _ _ (by rw [onHalf_length]; exact hlto),
        half_onHalf_of_ne _ _ hne']
      exact ⟨rfl, rfl, rfl, rfl, rfl, rfl⟩

end Sys2Proof
end

section
/-! PROOF. Stops in the cores and in the fault records; fence orders, admissions and control messages (R280, R317, R318, R321, R322, R381,
R492). -/

-- One proof after another: elaborated in parallel, the text as a whole needs more memory than the check allows.
set_option Elab.async false

namespace Sys2Proof.Machine

variable {y z : Sys} {site k : Nat}

/- Fault records are numbered, and no number is taken back (R493). -/

/-- A loop in which no round lets a count fall. -/
theorem Sys.each_mono {β : Type} (m : Sys → Nat) (l : List β) (f : Sys → β → Sys) (h : ∀ z a, m z ≤ m (f z a)) (y : Sys) :
    m y ≤ m (y.each l f) := by
  induction l generalizing y with
  | nil => exact Nat.le_refl _
  | cons a l ih => exact Nat.le_trans (h y a) (ih (f y a))

theorem recordStep_frSeq_le (y : Sys) (site : Nat) (s : StepRun) (w : Nat) :
    y.dev.faults.frSeq ≤ (recordStep y site s w).dev.faults.frSeq := by
  unfold recordStep
  extract_lets z o
  have hz : z.dev.faults.frSeq = y.dev.faults.frSeq :=
    Sys.when_keeps (fun z => z.dev.faults.frSeq) y _ _ (sendStatus_keeps (fun z => z.dev.faults.frSeq) y (fun _ _ => rfl) (fun _ _ => rfl) _ _)
  refine Nat.le_trans (Nat.le_of_eq hz.symm) ?_
  unfold Sys.when
  split
  · exact Nat.le_succ _
  · exact Nat.le_refl _

theorem endStep_frSeq_le (y : Sys) (site i o w cyc : Nat) : y.dev.faults.frSeq ≤ (endStep y site i o w cyc).dev.faults.frSeq := by
  unfold endStep
  split
  · exact Nat.le_refl _
  · extract_lets n moved ended stopped counted
    exact recordStep_frSeq_le counted site ended w

theorem abandonReplay_frSeq_le (y : Sys) (site o : Nat) : y.dev.faults.frSeq ≤ (abandonReplay y site o).dev.faults.frSeq := by
  unfold abandonReplay
  split
  · exact Nat.le_refl _
  · exact Nat.le_succ _

theorem stopCore_frSeq_le (y : Sys) (site q : Nat) : y.dev.faults.frSeq ≤ (stopCore y site q).dev.faults.frSeq :=
  Nat.le_trans (abandonReplay_frSeq_le y site 5)
    (Sys.each_mono (fun z => z.dev.faults.frSeq) _ _ (fun _ _ => endStep_frSeq_le _ _ _ _ _ _) (dropRowOps (abandonReplay y site 5) site))

theorem faultStop_frSeq_le (y : Sys) (q : Nat) : y.dev.faults.frSeq ≤ (faultStop y q).dev.faults.frSeq := by
  unfold faultStop
  split
  · exact Nat.le_refl _
  · rw [setPart_keeps (fun z => z.dev.faults.frSeq) _ (fun _ _ => rfl) (fun _ _ => rfl)]
    exact Sys.each_mono (fun z => z.dev.faults.frSeq) _ _ (fun _ _ => stopCore_frSeq_le _ _ _) y

theorem faultStopAll_frSeq_le (y : Sys) : y.dev.faults.frSeq ≤ (faultStopAll y).dev.faults.frSeq :=
  Sys.each_mono (fun z => z.dev.faults.frSeq) _ _ (fun _ _ => faultStop_frSeq_le _ _) y

theorem faultRecCc_frSeq (y : Sys) (f : FaultInfo) : (faultRecCc y f).dev.faults.frSeq = y.dev.faults.frSeq + 1 := rfl

theorem requestHold_frSeq (y : Sys) (cause len : Nat) : (requestHold y cause len).dev.faults.frSeq = y.dev.faults.frSeq :=
  requestHold_keeps (fun z => z.dev.faults.frSeq) y (fun _ _ => rfl) (fun _ _ => rfl) cause len

/- The cores (R396). -/

theorem core_onCore_self (y : Sys) (f : Core → Core) (h : site < y.dev.cores.length) : (y.onCore site f).core site = f (y.core site) := by
  simp [Sys.core, Sys.onCore, nth, upd, List.getElem?_eq_getElem h]

theorem core_onCore_of_ne (y : Sys) (f : Core → Core) (h : site ≠ k) : (y.onCore site f).core k = y.core k := by
  simp [Sys.core, Sys.onCore, nth, upd, h]

theorem core_onCore_out (y : Sys) (f : Core → Core) (h : y.dev.cores.length ≤ site) : (y.onCore site f).core site = {} := by
  simp [Sys.core, Sys.onCore, nth, upd, List.getElem?_eq_none h]

theorem core_of_cores {z : Sys} (h : z.dev.cores = y.dev.cores) (k : Nat) : z.core k = y.core k := by rw [Sys.core, h, Sys.core]

theorem recordStep_cores (y : Sys) (site : Nat) (s : StepRun) (w : Nat) : (recordStep y site s w).dev.cores = y.dev.cores :=
  recordStep_keeps (fun z => z.dev.cores) y (fun _ _ => rfl) (fun _ _ => rfl) (fun _ _ => rfl) _ _ _

theorem endStep_core_of_ne (i o w cyc : Nat) (h : site ≠ k) : (endStep y site i o w cyc).core k = y.core k := by
  unfold endStep
  split
  · rfl
  · rw [core_of_cores (recordStep_cores _ _ _ _)]
    exact core_onCore_of_ne _ _ h

theorem abandonReplay_core_of_ne (o : Nat) (h : site ≠ k) : (abandonReplay y site o).core k = y.core k := by
  unfold abandonReplay
  split
  · rfl
  · exact core_onCore_of_ne _ _ h

theorem stopCore_core_of_ne (q : Nat) (h : site ≠ k) : (stopCore y site q).core k = y.core k := by
  unfold stopCore
  rw [core_onCore_of_ne _ _ h, Sys.each_keeps (fun z : Sys => z.core k) _ _ _ fun z _ _ => endStep_core_of_ne _ _ _ _ h]
  exact abandonReplay_core_of_ne _ h

/-- A stopped core has no step any more. -/
theorem stopCore_steps (y : Sys) (site q : Nat) : ((stopCore y site q).core site).steps = [] := by
  unfold stopCore
  dsimp only
  generalize Sys.each _ _ _ = z
  by_cases h : site < z.dev.cores.length
  · rw [core_onCore_self _ _ h]
  · rw [core_onCore_out _ _ (Nat.not_lt.mp h)]

/-- What holds of a core as it is, and of a stopped one, holds after the stop of a partition. -/
theorem stopPart_core {P : Core → Prop} (hstop : ∀ z a q, P (z.core k) → P ((stopCore z a q).core k)) (q s : Nat) (h : P (y.core k)) :
    P ((stopPart y q s).core k) := by
  have hall : ∀ l : List Nat, ∀ z : Sys, P (z.core k) → P ((z.each l fun y c => stopCore y (siteOf y.dev c) s).core k) := by
    intro l
    induction l with
    | nil => exact fun z hz => hz
    | cons c l ih => exact fun z hz => ih _ (hstop _ _ _ hz)
  exact hall _ y h

theorem faultStop_core {P : Core → Prop} (hstop : ∀ z a q, P (z.core k) → P ((stopCore z a q).core k)) (q : Nat) (h : P (y.core k)) :
    P ((faultStop y q).core k) := by
  unfold faultStop
  split
  · exact h
  · rw [core_of_cores (setPart_keeps (fun z => z.dev.cores) _ (fun _ _ => rfl) (fun _ _ => rfl) _ _)]
    exact stopPart_core hstop _ _ h

theorem stopCore_steps_nil (z : Sys) (a q : Nat) (h : (z.core k).steps = []) : ((stopCore z a q).core k).steps = [] := by
  by_cases ha : a = k
  · rw [← ha]; exact stopCore_steps z a q
  · rw [stopCore_core_of_ne q ha]; exact h

/-- A fenced core has no step any more. -/
theorem fenceCore_steps (y : Sys) (site : Nat) : ((fenceCore y site).core site).steps = [] := by
  have hstop := stopCore_steps (markFenced y site) site 3
  rcases fenceCore_cases y site with heq | ⟨q, heq⟩
  · rw [heq]; exact hstop
  · rw [heq]; exact faultStop_core (P := fun c => c.steps = []) stopCore_steps_nil q hstop

/- Fence orders (R318). -/

/-- A fence order that has arrived, with the reason it may carry and the hold it asks for. -/
def fenceArrived (y : Sys) (site : Nat) (f : FenceMsg) : Sys :=
  let z := y.onNoc fun n => { n with fences := n.fences.erase f }
  let z := if f.why = 0 then fenceCore z site else fenceFor z site f.why
  if f.holdCause = 0 then z else requestHold z f.holdCause 0

theorem fenceOrder_sound {f : FenceMsg} {found : Option Site} (hfind : y.dev.noc.fences.find? (fun f => f.site == site) = some f)
    (h : ∀ p, found = some p → (messageWay y 24 site).contains p.val = false) : fenceOrder site found y = fenceArrived y site f := by
  unfold fenceOrder
  rw [hfind]
  exact withParity_sound h

theorem fenceOrder_lost {f : FenceMsg} {p : Site} (hfind : y.dev.noc.fences.find? (fun f => f.site == site) = some f)
    (h : (messageWay y 24 site).contains p.val = true) :
    fenceOrder site (some p) y = orderLost (y.onNoc fun n => { n with fences := n.fences.erase f }) site 1 p := by
  unfold fenceOrder
  rw [hfind]
  exact withParity_lost h

/-- What the arrival of a fence order leaves, for a view that a requested hold does not enter. -/
theorem fenceArrived_view {α : Type} (v : Sys → α) (hBeat : ∀ z f, v (Sys.onBeat z f) = v z) (hSpan : ∀ z f, v (Sys.onSpan z f) = v z)
    (y : Sys) (site : Nat) (f : FenceMsg) : v (fenceArrived y site f) =
      v (if f.why = 0 then fenceCore (y.onNoc fun n => { n with fences := n.fences.erase f }) site
        else fenceFor (y.onNoc fun n => { n with fences := n.fences.erase f }) site f.why) := by
  unfold fenceArrived
  dsimp only
  split
  · rfl
  · exact requestHold_keeps v _ hSpan hBeat _ _

/-- The same for a view that the reason of the fence does not enter either. -/
theorem fenceArrived_view' {α : Type} (v : Sys → α) (hBeat : ∀ z f, v (Sys.onBeat z f) = v z) (hSpan : ∀ z f, v (Sys.onSpan z f) = v z)
    (hwhy : ∀ (z : Sys) (l : List (Nat × Nat)), v (z.onNoc fun n => { n with fenceWhy := l }) = v z) (y : Sys) (site : Nat) (f : FenceMsg) :
    v (fenceArrived y site f) = v (fenceCore (y.onNoc fun n => { n with fences := n.fences.erase f }) site) := by
  rw [fenceArrived_view v hBeat hSpan]
  split
  · rfl
  · exact hwhy _ _

theorem lt_length_of_live {q : Nat} (h : partLive y.dev q = true) : q < y.dev.boot.parts.length := by
  refine Nat.lt_of_not_le fun hge => ?_
  rw [partLive, partState, nth, List.getElem?_eq_none hge] at h
  cases h

theorem fenceCore_partState {q : Nat} (hpart : partOfSite y site = some q) (hlive : partLive y.dev q = true) :
    partState (fenceCore y site).dev q = .faultStop := by
  have hlt : q < (stopCore (markFenced y site) site 3).dev.boot.parts.length := by
    rw [stopCore_parts]; exact lt_length_of_live hlive
  have heq : fenceCore y site = faultStop (stopCore (markFenced y site) site 3) q := by
    unfold fenceCore
    rw [hpart]
    exact if_pos hlive
  rw [heq, partState_faultStop hlt, if_pos rfl]

/-- What a lost order leaves, for a view that the stop of partitions and a hold do not enter: the error counted at the stop. -/
theorem orderLost_view {α : Type} {v : Sys → α} (h : OffFaultStop v) (hBeat : ∀ z f, v (Sys.onBeat z f) = v z)
    (hSpan : ∀ z f, v (Sys.onSpan z f) = v z) (y : Sys) (site detail stop : Nat) :
    v (orderLost y site detail stop) = v (shuttleError y stop) := by
  unfold orderLost
  dsimp only
  rw [requestHold_keeps v _ hSpan hBeat, h.faultStopAll]
  exact h _ _ rfl rfl

theorem orderLost_log (y : Sys) (site detail stop : Nat) : (orderLost y site detail stop).log = y.log :=
  orderLost_view (v := fun z => z.log) (fun y z hz _ => by rw [hz]) (fun _ _ => rfl) (fun _ _ => rfl) y site detail stop

theorem orderLost_fences (y : Sys) (site detail stop : Nat) : (orderLost y site detail stop).dev.noc.fences = y.dev.noc.fences :=
  orderLost_view (v := fun z => z.dev.noc.fences) (fun y z hz _ => by rw [hz]) (fun _ _ => rfl) (fun _ _ => rfl) y site detail stop

theorem orderLost_fenced (y : Sys) (site detail stop : Nat) : (orderLost y site detail stop).dev.noc.fenced = y.dev.noc.fenced :=
  orderLost_view (v := fun z => z.dev.noc.fenced) (fun y z hz _ => by rw [hz]) (fun _ _ => rfl) (fun _ _ => rfl) y site detail stop

theorem shuttleErr_of_map {l r : List SiteNoc} (h : l.map (fun x => { x with fenceDrops := 0 }) = r.map fun x => { x with fenceDrops := 0 })
    (k : Nat) : (nth l k {}).shuttleErr = (nth r k {}).shuttleErr := by
  have hk := congrArg (fun m : List SiteNoc => (m[k]?).map SiteNoc.shuttleErr) h
  simp only [List.getElem?_map, Option.map_map] at hk
  have hview (m : List SiteNoc) : (nth m k {}).shuttleErr =
      ((m[k]?).map (SiteNoc.shuttleErr ∘ fun x => { x with fenceDrops := 0 })).getD 0 := by
    cases h : m[k]? <;> simp [nth, h]
  rw [hview, hview, hk]

theorem orderLost_shuttleErr {stop : Nat} (h : stop < y.dev.noc.sites.length) (detail : Nat) :
    (nth (orderLost y site detail stop).dev.noc.sites stop {}).shuttleErr = sat32 ((nth y.dev.noc.sites stop {}).shuttleErr + 1) :=
  (orderLost_view (v := fun z => (nth z.dev.noc.sites stop {}).shuttleErr) (fun _ _ _ hd => shuttleErr_of_map hd stop) (fun _ _ => rfl)
    (fun _ _ => rfl) y site detail stop).trans (shuttleErr_shuttleError h)

theorem orderLost_stops {stop : Nat} (hlen : y.dev.boot.parts.length = 4) (detail : Nat) :
    ∀ q ∈ allParts y, partState (orderLost y site detail stop).dev q = .faultStop := by
  intro q hq
  unfold orderLost
  dsimp only
  rw [requestHold_keeps (fun z => partState z.dev q) _ (fun _ _ => rfl) (fun _ _ => rfl)]
  generalize hz : faultRecCc _ _ = z
  have hboot : z.dev.boot = y.dev.boot := by rw [← hz]; rfl
  exact faultStopAll_stops (by rw [hboot]; exact hlen) q (by rw [← hz]; exact hq)

theorem orderLost_frSeq (y : Sys) (site detail stop : Nat) : y.dev.faults.frSeq < (orderLost y site detail stop).dev.faults.frSeq := by
  unfold orderLost
  dsimp only
  rw [requestHold_frSeq]
  exact Nat.lt_of_lt_of_le (Nat.lt_succ_self _) (faultStopAll_frSeq_le (faultRecCc (shuttleError y stop) _))

/- Admissions (R321, R322). -/

theorem colInc_advanceInc (y : Sys) (a c : Nat) : colInc (advanceInc y a).dev c =
    if c = a ∧ c < y.dev.map.cols.length then nextInc (colInc y.dev c) else colInc y.dev c := by
  by_cases hlt : c < y.dev.map.cols.length
  · by_cases hc : a = c
    · subst hc; simp [advanceInc, colInc, Sys.onMap, nth, upd, hlt]
    · have hc' : ¬ c = a := fun h => hc h.symm
      simp [advanceInc, colInc, Sys.onMap, nth, upd, hc, hc']
  · simp [advanceInc, colInc, Sys.onMap, nth, upd, hlt]

/-- The incarnations of several columns are advanced, each once. -/
theorem colInc_each_advanceInc (l : List Nat) (y : Sys) (hl : l.Nodup) {c : Nat} (hc : c < y.dev.map.cols.length) :
    colInc (y.each l advanceInc).dev c = if c ∈ l then nextInc (colInc y.dev c) else colInc y.dev c := by
  induction l generalizing y with
  | nil => rw [if_neg (List.not_mem_nil)]; rfl
  | cons a l ih =>
    obtain ⟨ha, hl⟩ := List.nodup_cons.mp hl
    have hc' : c < (advanceInc y a).dev.map.cols.length := by
      have hlen : (advanceInc y a).dev.map.cols.length = y.dev.map.cols.length := upd_length _ _ _
      rw [hlen]; exact hc
    have hstep := ih (advanceInc y a) hl hc'
    rw [colInc_advanceInc] at hstep
    refine Eq.trans hstep ?_
    by_cases hca : c = a
    · subst hca; rw [if_neg ha, if_pos ⟨rfl, hc⟩, if_pos List.mem_cons_self]
    · rw [if_neg (c := c = a ∧ _) fun h => hca h.1]
      by_cases hm : c ∈ l
      · rw [if_pos hm, if_pos (List.mem_cons_of_mem _ hm)]
      · rw [if_neg hm, if_neg fun h => (List.mem_cons.mp h).elim hca hm]

theorem admitWrite_eq {a : Admission} (hfind : y.dev.noc.admits.find? (fun a => !a.written) = some a) : admitWrite y =
    (compareImages (y.each a.cols advanceInc) a.cols).onNoc fun n =>
      { n with admits := n.admits.map fun x => if x == a then { x with written := true } else x } := by
  unfold admitWrite
  rw [hfind]

/-- The incarnations change in the map, the checks of the images in the images. -/
def besideAdmit (y : Sys) : Dev × List MemOp := ({ y.dev with map := {}, sched := {} }, y.log)

theorem eq_of_besideAdmit (h : besideAdmit z = besideAdmit y) : z.dev = { y.dev with map := z.dev.map, sched := z.dev.sched } :=
  congrArg (fun d : Dev => { d with map := z.dev.map, sched := z.dev.sched }) (congrArg Prod.fst h)

theorem each_advanceInc_besideAdmit (l : List Nat) (y : Sys) : besideAdmit (y.each l advanceInc) = besideAdmit y :=
  Sys.each_keeps besideAdmit _ _ _ fun _ _ _ => rfl

theorem fencesLifted (l : List Nat) (y : Sys) (x : Nat) :
    x ∈ (y.each l liftFence).dev.noc.fenced ↔ x ∈ y.dev.noc.fenced ∧ ∀ c ∈ l, siteOf y.dev c ≠ x := by
  induction l generalizing y with
  | nil => exact ⟨fun h => ⟨h, fun c hc => by cases hc⟩, And.left⟩
  | cons a l ih =>
    have hmap : (liftFence y a).dev.map = y.dev.map := by unfold liftFence; rw [event_map]; rfl
    have hfenced : (liftFence y a).dev.noc.fenced = takeOut y.dev.noc.fenced (siteOf y.dev a) := by unfold liftFence; rw [event_noc]; rfl
    have hsite (c : Nat) : siteOf (liftFence y a).dev c = siteOf y.dev c := by rw [siteOf, hmap, siteOf]
    refine (ih (liftFence y a)).trans ?_
    rw [hfenced, mem_takeOut]
    simp only [hsite, List.mem_cons, forall_eq_or_imp]
    exact ⟨fun h => ⟨h.1.1, fun he => h.1.2 he.symm, h.2⟩, fun h => ⟨⟨h.1, fun he => h.2.1 he.symm⟩, h.2.2⟩⟩

/-- The boundary at which the fences of an admission are lifted (R322). -/
def liftedFences (y : Sys) (a : Admission) : Sys :=
  let z := (y.onNoc fun n => { n with admits := n.admits.erase a }).each a.cols liftFence
  if a.byCommand then complete z 7 3 0 [] else z

theorem fenceLift_eq {a : Admission} (hfind : y.dev.noc.admits.find? (fun a => a.written) = some a) : fenceLift y =
    if a.wave then
      complete ((if a.cols.isEmpty || (liftedFences y a).dev.boot.power != .linksQualified then liftedFences y a
        else enterPower (liftedFences y a) .coresUp).onBoot fun b => { b with wavesBusy := false }) 1 4 0 []
    else liftedFences y a := by
  unfold fenceLift
  rw [hfind]
  rfl

theorem liftedFences_view {α : Type} (v : Sys → α) (hHost : ∀ z f, v (Sys.onHost z f) = v z)
    (hlift : ∀ z c, v (liftFence z c) = v z) (y : Sys) (a : Admission) :
    v (liftedFences y a) = v (y.onNoc fun n => { n with admits := n.admits.erase a }) := by
  unfold liftedFences
  dsimp only
  have hall := Sys.each_keeps v (y.onNoc fun n => { n with admits := n.admits.erase a }) a.cols liftFence fun z c _ => hlift z c
  split
  · exact (hHost _ _).trans hall
  · exact hall

theorem liftFence_log (y : Sys) (c : Nat) : (liftFence y c).log = y.log := event_log _ _ _

theorem liftFence_admits (y : Sys) (c : Nat) : (liftFence y c).dev.noc.admits = y.dev.noc.admits := by
  unfold liftFence; rw [event_noc]; rfl

theorem liftFence_power (y : Sys) (c : Nat) : (liftFence y c).dev.boot.power = y.dev.boot.power := by
  unfold liftFence; rw [event_boot]; rfl

theorem liftedFences_fenced (y : Sys) (a : Admission) (x : Nat) :
    x ∈ (liftedFences y a).dev.noc.fenced ↔ x ∈ y.dev.noc.fenced ∧ ∀ c ∈ a.cols, siteOf y.dev c ≠ x := by
  have h := fencesLifted a.cols (y.onNoc fun n => { n with admits := n.admits.erase a }) x
  unfold liftedFences
  dsimp only
  split
  · exact h
  · exact h

/-- What the end of an admission leaves, for a view that neither the host link nor the state of the stack enters. -/
theorem fenceLift_view {α : Type} (v : Sys → α) (hHost : ∀ z f, v (Sys.onHost z f) = v z) (hBoot : ∀ z f, v (Sys.onBoot z f) = v z)
    {a : Admission} (hfind : y.dev.noc.admits.find? (fun a => a.written) = some a) : v (fenceLift y) = v (liftedFences y a) := by
  rw [fenceLift_eq hfind]
  split
  · refine (hHost _ _).trans ((hBoot _ _).trans ?_)
    split
    · rfl
    · exact enterPower_keeps v _ hHost hBoot _
  · rfl

theorem fenceLift_power {a : Admission} (hfind : y.dev.noc.admits.find? (fun a => a.written) = some a) (hwave : a.wave = true)
    (hcols : a.cols ≠ []) (hpower : y.dev.boot.power = .linksQualified) : (fenceLift y).dev.boot.power = .coresUp := by
  have hkept : (liftedFences y a).dev.boot.power = .linksQualified :=
    (liftedFences_view (fun z => z.dev.boot.power) (fun _ _ => rfl) liftFence_power y a).trans hpower
  rw [fenceLift_eq hfind, if_pos hwave, if_neg (by simp [hkept, hcols])]
  exact enterPower_power _ _

/- Control messages without an answer (R317, R492). -/

theorem firmwareFault_view {α : Type} {v : Sys → α} (h : OffFaultStop v) (hBeat : ∀ z f, v (Sys.onBeat z f) = v z)
    (hSpan : ∀ z f, v (Sys.onSpan z f) = v z) (y : Sys) (detail addr : Nat) : v (firmwareFault y detail addr) = v y := by
  unfold firmwareFault
  dsimp only
  rw [requestHold_keeps v _ hSpan hBeat, h.faultStopAll]
  exact h _ _ rfl rfl

theorem firmwareFault_stops (hlen : y.dev.boot.parts.length = 4) (detail addr : Nat) :
    ∀ q ∈ allParts y, partState (firmwareFault y detail addr).dev q = .faultStop := by
  intro q hq
  unfold firmwareFault
  dsimp only
  rw [requestHold_keeps (fun z => partState z.dev q) _ (fun _ _ => rfl) (fun _ _ => rfl)]
  exact faultStopAll_stops (y := faultRecCc y _) hlen q hq

/-- The record of a control message that was not answered (R317). -/
def ctrlMissed (y : Sys) (node : Nat) : Sys :=
  faultRecCc (shuttleError y (nodeStop y.dev.noc.failed node 0))
    { cls := 0x0A, site := nodeStop y.dev.noc.failed node 0, location := nodeStop y.dev.noc.failed node 0, detail := 5, count := 1 }

theorem shuttleCtrlTimeout_again {node : Nat} {m : CtrlMsg} (hfind : y.dev.noc.ctrl.find? (fun c => c.node == node) = some m)
    (h : m.tries < 3) : shuttleCtrlTimeout node y =
      (ctrlMissed y node).onNoc fun n => { n with ctrl := (y.dev.noc.ctrl.filter fun c => c.node != node) ++ [⟨node, m.tries + 1⟩] } := by
  unfold shuttleCtrlTimeout
  rw [hfind]
  exact if_pos h

theorem shuttleCtrlTimeout_last {node : Nat} {m : CtrlMsg} (hfind : y.dev.noc.ctrl.find? (fun c => c.node == node) = some m)
    (h : 3 ≤ m.tries) : shuttleCtrlTimeout node y =
      firmwareFault ((ctrlMissed y node).onNoc fun n => { n with ctrl := y.dev.noc.ctrl.filter fun c => c.node != node }) 0 0 := by
  unfold shuttleCtrlTimeout
  rw [hfind]
  exact if_neg (Nat.not_lt.mpr h)

end Sys2Proof.Machine

namespace Sys2Proof

open Machine

variable {s : State}

/-- A fence order that arrives fences its core and stops its partition (R318). -/
theorem fenceOrderArrives (site : Site) (f : FenceMsg) (found : Option Site)
    (hfind : s.dev.noc.fences.find? (fun f => f.site == site.val) = some f)
    (hsound : ∀ p, found = some p → (messageWay s.work 24 site).contains p.val = false) :
    Completes (.fenceOrder site found) s fun t => StackOnly s t ∧ (site : Nat) ∈ t.dev.noc.fenced ∧
      t.dev.noc.fences = s.dev.noc.fences.erase f ∧ (t.work.core site).steps = [] ∧
      (f.why ≠ 0 → assoc t.dev.noc.fenceWhy site = some f.why) ∧
      (∀ x, x ≠ (site : Nat) → (x ∈ t.dev.noc.fenced ↔ x ∈ s.dev.noc.fenced)) ∧
      (∀ q, partOfSite s.work site = some q → partLive s.dev q = true → s.dev.boot.parts.length = 4 →
        partState t.dev q = .faultStop) := by
  have heq : fenceOrder site found s.work = fenceArrived s.work site f := fenceOrder_sound hfind hsound
  have hview {α : Type} (v : Sys → α) (hBeat) (hSpan) (hwhy) := fenceArrived_view' (α := α) v hBeat hSpan hwhy s.work site f
  have hfenced : (fenceArrived s.work site f).dev.noc.fenced = addTo s.dev.noc.fenced site :=
    (hview (fun z => z.dev.noc.fenced) (fun _ _ => rfl) (fun _ _ => rfl) fun _ _ => rfl).trans (fenceCore_fenced _ _)
  refine completes_stackOnly (f := fenceOrder site found) rfl ?_ fun t ht hdev => ⟨ht, ?_, ?_, ?_, fun hwhy => ?_, fun x hx => ?_,
    fun q hpart hlive _ => ?_⟩
  · rw [heq, hview (fun z => z.log) (fun _ _ => rfl) (fun _ _ => rfl) fun _ _ => rfl]
    exact OffFaultStop.fenceCore (v := fun z => z.log) (fun y z hz _ => by rw [hz]) _ _
  all_goals rw [heq] at hdev
  · rw [hdev, hfenced]; exact mem_addTo.mpr (.inr rfl)
  · rw [hdev, hview (fun z => z.dev.noc.fences) (fun _ _ => rfl) (fun _ _ => rfl) fun _ _ => rfl]
    exact OffFaultStop.fenceCore (v := fun z => z.dev.noc.fences) (fun y z hz _ => by rw [hz]) _ _
  · rw [core_of_cores (y := fenceArrived s.work site f) (congrArg Dev.cores hdev :),
      hview (fun z => (z.core site).steps) (fun _ _ => rfl) (fun _ _ => rfl) fun _ _ => rfl]
    exact fenceCore_steps _ _
  · rw [hdev, fenceArrived_view (fun z => assoc z.dev.noc.fenceWhy site) (fun _ _ => rfl) (fun _ _ => rfl), if_neg hwhy]
    exact (assoc_assocSet _ _ _ _).trans (if_pos rfl)
  · rw [hdev, hfenced, mem_addTo]
    exact ⟨fun h => h.elim id fun he => absurd he hx, .inl⟩
  · rw [hdev, hview (fun z => partState z.dev q) (fun _ _ => rfl) (fun _ _ => rfl) fun _ _ => rfl]
    exact fenceCore_partState hpart hlive

/-- A fence order that a stop finds with a parity error is lost there, and stops every partition (R317, R492). -/
theorem fenceOrderLost (site : Site) (f : FenceMsg) (p : Site)
    (hfind : s.dev.noc.fences.find? (fun f => f.site == site.val) = some f) (hlen : s.dev.boot.parts.length = 4)
    (hlost : (messageWay s.work 24 site).contains p.val = true) (hp : p.val < s.dev.noc.sites.length) :
    Completes (.fenceOrder site (some p)) s fun t => StackOnly s t ∧ t.dev.noc.fenced = s.dev.noc.fenced ∧
      t.dev.noc.fences = s.dev.noc.fences.erase f ∧
      (nth t.dev.noc.sites p {}).shuttleErr = sat32 ((nth s.dev.noc.sites p {}).shuttleErr + 1) ∧
      s.dev.faults.frSeq < t.dev.faults.frSeq ∧ ∀ q ∈ allParts s.work, partState t.dev q = .faultStop := by
  have heq : fenceOrder site (some p) s.work =
      orderLost (s.work.onNoc fun n => { n with fences := n.fences.erase f }) site 1 p := fenceOrder_lost hfind hlost
  generalize hz : (s.work.onNoc fun n => { n with fences := n.fences.erase f }) = z at heq
  refine completes_stackOnly (f := fenceOrder site (some p)) rfl ?_ fun t ht hdev => ⟨ht, ?_, ?_, ?_, ?_, fun q hq => ?_⟩
  · rw [heq, orderLost_log, ← hz]; rfl
  all_goals rw [heq] at hdev
  · rw [hdev, orderLost_fenced, ← hz]; rfl
  · rw [hdev, orderLost_fences, ← hz]; rfl
  · rw [hdev, orderLost_shuttleErr (by rw [← hz]; exact hp), ← hz]; rfl
  · rw [hdev]; refine Nat.lt_of_le_of_lt (Nat.le_of_eq ?_) (orderLost_frSeq z site 1 p); rw [← hz]; rfl
  · rw [hdev]; exact orderLost_stops (y := z) (by rw [← hz]; exact hlen) 1 q (by rw [← hz]; exact hq)

/-- An admission writes the incarnations of its columns (R321). -/
theorem admissionWrites (a : Admission) (hfind : s.dev.noc.admits.find? (fun a => !a.written) = some a) (hcols : a.cols.Nodup) :
    Completes .admitIncarnationWrite s fun t => StackOnly s t ∧
      t.dev = { s.dev with map := t.dev.map, sched := t.dev.sched, noc := t.dev.noc } ∧
      { a with written := true } ∈ t.dev.noc.admits ∧ t.dev.noc.fenced = s.dev.noc.fenced ∧
      ∀ c, c < s.dev.map.cols.length → colInc t.dev c = if c ∈ a.cols then nextInc (colInc s.dev c) else colInc s.dev c := by
  have heq := admitWrite_eq (y := s.work) hfind
  have hbeside := each_advanceInc_besideAdmit a.cols s.work
  have hinc (c : Nat) := colInc_each_advanceInc a.cols s.work hcols (c := c)
  generalize s.work.each a.cols advanceInc = z at heq hbeside hinc
  have hz : z.dev = { s.dev with map := z.dev.map, sched := z.dev.sched } := eq_of_besideAdmit hbeside
  have hnoc : z.dev.noc = s.dev.noc := by rw [hz]
  refine completes_stackOnly (f := admitWrite) rfl (by rw [heq]; exact congrArg Prod.snd hbeside)
    fun t ht hdev => ⟨ht, ?_, ?_, ?_, fun c hc => ?_⟩
  all_goals rw [heq] at hdev
  · have hall : ({ t.dev with map := {}, sched := {}, noc := {} } : Dev) = { s.dev with map := {}, sched := {}, noc := {} } := by
      rw [hdev]; exact congrArg (fun d : Dev => { d with map := {}, sched := {}, noc := {} }) hz
    exact congrArg (fun d : Dev => { d with map := t.dev.map, sched := t.dev.sched, noc := t.dev.noc }) hall
  · rw [hdev]
    refine List.mem_map.mpr ⟨a, ?_, if_pos (beq_self_eq_true a)⟩
    exact (congrArg Noc.admits hnoc).symm ▸ List.mem_of_find?_eq_some hfind
  · rw [hdev]; exact (congrArg Noc.fenced hnoc :)
  · rw [hdev]; exact hinc c hc

/-- At the next boundary the fences of its columns are lifted (R322). -/
theorem admissionLifts (a : Admission) (hfind : s.dev.noc.admits.find? (fun a => a.written) = some a) :
    Completes .fenceLift s fun t => StackOnly s t ∧ t.dev.noc.admits = s.dev.noc.admits.erase a ∧
      (∀ c ∈ a.cols, siteOf s.dev c ∉ t.dev.noc.fenced) ∧
      (∀ x, (∀ c ∈ a.cols, siteOf s.dev c ≠ x) → (x ∈ t.dev.noc.fenced ↔ x ∈ s.dev.noc.fenced)) ∧
      (a.wave = true → a.cols ≠ [] → s.dev.boot.power = .linksQualified → t.dev.boot.power = .coresUp) := by
  have hfenced (x : Nat) : x ∈ (fenceLift s.work).dev.noc.fenced ↔ x ∈ s.dev.noc.fenced ∧ ∀ c ∈ a.cols, siteOf s.dev c ≠ x := by
    rw [fenceLift_view (fun z => z.dev.noc.fenced) (fun _ _ => rfl) (fun _ _ => rfl) hfind]
    exact liftedFences_fenced _ _ _
  refine completes_stackOnly (f := fenceLift) rfl ?_ fun t ht hdev => ⟨ht, ?_, fun c hc => ?_, fun x hx => ?_, fun hwave hcols hpower => ?_⟩
  · rw [fenceLift_view (fun z => z.log) (fun _ _ => rfl) (fun _ _ => rfl) hfind,
      liftedFences_view (fun z => z.log) (fun _ _ => rfl) liftFence_log]
    rfl
  · rw [hdev, fenceLift_view (fun z => z.dev.noc.admits) (fun _ _ => rfl) (fun _ _ => rfl) hfind,
      liftedFences_view (fun z => z.dev.noc.admits) (fun _ _ => rfl) liftFence_admits]
    rfl
  · rw [hdev, hfenced]; exact fun h => h.2 c hc rfl
  · rw [hdev, hfenced]; exact ⟨And.left, fun h => ⟨h, hx⟩⟩
  · rw [hdev]; exact fenceLift_power hfind hwave hcols hpower

/-- A control message without an answer is sent again; after the third time every partition stops (R317, R492). -/
theorem controlRetries (node : Nat) (m : CtrlMsg) (hfind : s.dev.noc.ctrl.find? (fun c => c.node == node) = some m) :
    (m.tries < 3 → Completes (.shuttleCtrlTimeout node) s fun t => StackOnly s t ∧ ⟨node, m.tries + 1⟩ ∈ t.dev.noc.ctrl ∧
      t.dev.faults.frSeq = s.dev.faults.frSeq + 1 ∧ t.dev.boot = s.dev.boot) ∧
    (3 ≤ m.tries → s.dev.boot.parts.length = 4 → Completes (.shuttleCtrlTimeout node) s fun t => StackOnly s t ∧
      (∀ c ∈ t.dev.noc.ctrl, c.node ≠ node) ∧ ∀ q ∈ allParts s.work, partState t.dev q = .faultStop) := by
  refine ⟨fun h => ?_, fun h hlen => ?_⟩
  · have heq := shuttleCtrlTimeout_again (y := s.work) hfind h
    refine completes_stackOnly (f := shuttleCtrlTimeout node) rfl (by rw [heq]; rfl) fun t ht hdev => ⟨ht, ?_, ?_, ?_⟩
    all_goals rw [hdev, heq]
    · exact List.mem_append_right _ (List.mem_singleton_self _)
    · rfl
    · rfl
  · have heq := shuttleCtrlTimeout_last (y := s.work) hfind h
    generalize hz : ((ctrlMissed s.work node).onNoc fun n => { n with ctrl := s.work.dev.noc.ctrl.filter fun c => c.node != node }) = z at heq
    refine completes_stackOnly (f := shuttleCtrlTimeout node) rfl ?_ fun t ht hdev => ⟨ht, ?_, fun q hq => ?_⟩
    · rw [heq, firmwareFault_view (v := fun z => z.log) (fun y z hz _ => by rw [hz]) (fun _ _ => rfl) fun _ _ => rfl, ← hz]; rfl
    · rw [hdev, heq, firmwareFault_view (v := fun z => z.dev.noc.ctrl) (fun y z hz _ => by rw [hz]) (fun _ _ => rfl) fun _ _ => rfl, ← hz]
      exact fun c hc => by simpa using (List.mem_filter.mp hc).2
    · rw [hdev, heq]; exact firmwareFault_stops (by rw [← hz]; exact hlen) 0 0 q (by rw [← hz]; exact hq)

/-- Settles O28: a fence order arrives or is lost, an admission writes and lifts at two boundaries, a control message is retried. -/
theorem fencesAndAdmissions : Obligations.FencesAndAdmissions := fun _ =>
  ⟨fun site f found => fenceOrderArrives site f found, fun site f p => fenceOrderLost site f p, fun a => admissionWrites a,
    fun a => admissionLifts a, fun node m => controlRetries node m⟩

end Sys2Proof
end

section
/-! PROOF. The vertical channel: a line is transferred again, a second failure ends its step (R280, R312). -/

-- One proof after another: elaborated in parallel, the text as a whole needs more memory than the check allows.
set_option Elab.async false

namespace Sys2Proof.Machine

variable {y : Sys} {site c i : Nat} {st : StepRun}

/- Live steps (R163). -/

theorem liveStep_some (h : liveStep (y.core site) i = some st) : st.index = i ∧ st.done = false := by
  have hst := List.find?_some h
  simp only [Bool.and_eq_true, beq_iff_eq, Bool.not_eq_true'] at hst
  exact hst

theorem lt_length_of_liveStep (h : liveStep (y.core site) i = some st) : site < y.dev.cores.length := by
  refine Nat.lt_of_not_le fun hge => ?_
  rw [Sys.core, nth, List.getElem?_eq_none hge] at h
  cases h

theorem stepKey_of_live {k : Core} (h : liveStep k i = some st) : stepKey k i = i := by
  unfold stepKey
  rw [h]
  exact if_pos rfl

/-- The live step of an index after an update that leaves index and life of the steps. -/
theorem liveStep_onStep {k : Core} {f : StepRun → StepRun} (hindex : ∀ x, (f x).index = x.index) (hdone : ∀ x, (f x).done = x.done) :
    liveStep (onStep k i f) i = (liveStep k i).map f := by
  unfold liveStep onStep
  dsimp only
  rw [List.find?_map]
  have hsame : (fun s : StepRun => s.index == i && !s.done) ∘ (fun s => if s.index == i && !s.done then f s else s) =
      fun s => s.index == i && !s.done := by
    funext x
    dsimp only [Function.comp]
    split
    · rw [hindex, hdone]
    · rfl
  rw [hsame]
  cases hfind : k.steps.find? fun s => s.index == i && !s.done with
  | none => rfl
  | some x => exact congrArg some (if_pos (List.find?_some hfind))

/-- A step that has ended is live no more. -/
theorem endStep_liveStep (y : Sys) (site i o w cyc : Nat) : liveStep ((endStep y site i o w cyc).core site) i = none := by
  unfold endStep
  split
  next h => exact h
  next st h =>
    extract_lets n moved ended stopped counted
    rw [core_of_cores (y := counted) (recordStep_cores _ _ _ _), core_of_cores (z := counted) (y := stopped) rfl,
      core_onCore_self _ _ (lt_length_of_liveStep h)]
    refine List.find?_eq_none.mpr fun x hx => ?_
    obtain ⟨s, -, rfl⟩ := List.mem_map.mp hx
    dsimp only
    split
    · simp [ended]
    · next hs => exact hs

theorem stopCore_liveStep_none (z : Sys) (a q : Nat) (h : liveStep (z.core site) i = none) :
    liveStep ((stopCore z a q).core site) i = none := by
  by_cases ha : a = site
  · subst ha
    unfold liveStep
    rw [stopCore_steps]
    rfl
  · rw [stopCore_core_of_ne q ha]; exact h

theorem busError_liveStep (y : Sys) (site i cyc : Nat) : liveStep ((busError y site i cyc).core site) i = none := by
  have hend := endStep_liveStep (abandonReplay y site 3) site i 3 0 cyc
  unfold busError stopSite
  dsimp only
  generalize endStep _ _ _ _ _ _ = z at hend
  rw [core_of_cores (requestHold_keeps (fun z => z.dev.cores) _ (fun _ _ => rfl) (fun _ _ => rfl) _ _)]
  split
  · exact faultStop_core (P := fun k => liveStep k i = none) stopCore_liveStep_none _ hend
  · exact hend

/- A failed access that was no write. -/

theorem stopSite_frSeq_le (y : Sys) (site cause : Nat) : y.dev.faults.frSeq ≤ (stopSite y site cause).dev.faults.frSeq := by
  unfold stopSite
  dsimp only
  rw [requestHold_frSeq]
  split
  · exact faultStop_frSeq_le _ _
  · exact Nat.le_refl _

theorem stopSite_log (y : Sys) (site cause : Nat) : (stopSite y site cause).log = y.log := by
  unfold stopSite
  dsimp only
  rw [requestHold_log]
  split
  · exact OffFaultStop.faultStop (v := fun z => z.log) (fun y z hz _ => by rw [hz]) _ _
  · rfl

theorem busError_frSeq_le (y : Sys) (site i cyc : Nat) : y.dev.faults.frSeq ≤ (busError y site i cyc).dev.faults.frSeq :=
  Nat.le_trans (abandonReplay_frSeq_le y site 3) (Nat.le_trans (endStep_frSeq_le (abandonReplay y site 3) site i 3 0 cyc) (stopSite_frSeq_le _ _ _))

theorem busError_log (y : Sys) (site i cyc : Nat) : (busError y site i cyc).log = y.log := by
  have hoff : OffHalt fun z : Sys => z.log := fun y z hz _ => by rw [hz]
  unfold busError
  rw [stopSite_log, hoff.endStep, hoff.abandonReplay]

theorem ccFailed_frSeq_le (y : Sys) (a : Nat) : y.dev.faults.frSeq ≤ (ccFailed y a).dev.faults.frSeq := by
  have hrec : y.dev.faults.frSeq ≤ (firmwareRecord y 0 a).dev.faults.frSeq := Nat.le_succ _
  unfold ccFailed
  dsimp only
  split
  · split
    · exact Nat.le_trans hrec (stopSite_frSeq_le _ _ _)
    · exact hrec
  · split
    · exact Nat.le_trans hrec (stopSite_frSeq_le _ _ _)
    · exact hrec
  · exact hrec

theorem ccFailed_log (y : Sys) (a : Nat) : (ccFailed y a).log = y.log := by
  have hrec : (firmwareRecord y 0 a).log = y.log := rfl
  unfold ccFailed
  dsimp only
  split
  · split
    · exact (stopSite_log _ _ _).trans hrec
    · exact hrec
  · split
    · exact (stopSite_log _ _ _).trans hrec
    · exact hrec
  · exact hrec

theorem accessFailed_read_frSeq_le (y : Sys) (who : Requester) (a : Nat) : y.dev.faults.frSeq ≤ (accessFailed y who a false).dev.faults.frSeq := by
  unfold accessFailed
  split
  · exact busError_frSeq_le _ _ _ _
  · exact Nat.le_of_eq (event_keeps (fun z => z.dev.faults.frSeq) y (fun _ _ => rfl) _ _).symm
  · exact ccFailed_frSeq_le _ _
  · exact Nat.le_refl _

theorem accessFailed_read_log (y : Sys) (who : Requester) (a : Nat) : (accessFailed y who a false).log = y.log := by
  unfold accessFailed
  split
  · exact busError_log _ _ _ _
  · exact event_log _ _ _
  · exact ccFailed_log _ _
  · rfl

/- The two failures of a line. -/

/-- The requester as the channel knows it: a step by the index of its live run. -/
def liveRequester (y : Sys) (who : Requester) : Requester :=
  match who with
  | .step c i => .step c (stepKey (y.core (siteOf y.dev c)) i)
  | w => w

theorem vcRetransfer_first (y : Sys) (site line tile : Nat) (who : Requester) : vcRetransfer site line tile false who y =
    match liveRequester y who with
    | .step c i => (y.onSiteNoc site fun n => { n with vcRetries := sat32 (n.vcRetries + 1) }).onCore (siteOf y.dev c) fun k =>
        onStep k i fun s => { s with lengthen := s.lengthen + 8 }
    | _ => y.onSiteNoc site fun n => { n with vcRetries := sat32 (n.vcRetries + 1) } := by
  cases who <;> rfl

theorem vcRetransfer_second (y : Sys) (site line tile : Nat) (who : Requester) :
    ∃ f, vcRetransfer site line tile true who y =
      accessFailed (faultRec y f) (liveRequester y who) (vcLineAddr y.dev site line) false := by
  cases who <;> exact ⟨_, rfl⟩

/-- Only cores and network counters differ after a line that is transferred again. -/
def besideRetry (y : Sys) : Dev × List MemOp := ({ y.dev with cores := [], noc := {} }, y.log)

theorem vcRetransfer_first_keeps {α : Type} (v : Sys → α) (hCore : ∀ z s f, v (Sys.onCore z s f) = v z) (y : Sys) (site line tile : Nat)
    (who : Requester) : v (vcRetransfer site line tile false who y) =
      v (y.onSiteNoc site fun n => { n with vcRetries := sat32 (n.vcRetries + 1) }) := by
  rw [vcRetransfer_first]
  split
  · exact hCore _ _ _
  · rfl

end Sys2Proof.Machine

namespace Sys2Proof

open Machine

variable {s : State}

/-- A line that is transferred again lengthens its step and is counted (R312). -/
theorem vcFirstFailure (site : Site) (line tile : Nat) (who : Requester) (hsite : site.val < s.dev.noc.sites.length) :
    Completes (.vcLineRetransfer site line tile false who) s fun t => StackOnly s t ∧
      t.dev = { s.dev with cores := t.dev.cores, noc := t.dev.noc } ∧
      (nth t.dev.noc.sites site {}).vcRetries = sat32 ((nth s.dev.noc.sites site {}).vcRetries + 1) ∧
      ∀ c i st, who = .step c i → liveStep (s.work.core (siteOf s.dev c)) i = some st →
        ∃ st', liveStep (t.work.core (siteOf s.dev c)) i = some st' ∧ st'.lengthen = st.lengthen + 8 := by
  have hkeeps {α : Type} (v : Sys → α) (hCore) := vcRetransfer_first_keeps v hCore s.work site line tile who
  refine completes_stackOnly (f := vcRetransfer site line tile false who) rfl (hkeeps (fun z => z.log) fun _ _ _ => rfl)
    fun t ht hdev => ⟨ht, ?_, ?_, fun c i st hwho hst => ?_⟩
  · have hbeside : ({ t.dev with cores := [], noc := {} } : Dev) = { s.dev with cores := [], noc := {} } := by
      rw [hdev]; exact hkeeps (fun z => ({ z.dev with cores := [], noc := {} } : Dev)) fun _ _ _ => rfl
    exact congrArg (fun d : Dev => { d with cores := t.dev.cores, noc := t.dev.noc }) hbeside
  · rw [hdev, hkeeps (fun z => (nth z.dev.noc.sites site {}).vcRetries) fun _ _ _ => rfl]
    simp [Sys.onSiteNoc, nth, upd, hsite]
  · subst hwho
    have heq := vcRetransfer_first s.work site line tile (.step c i)
    dsimp only [liveRequester] at heq
    rw [work_dev, stepKey_of_live hst] at heq
    rw [core_of_cores (y := vcRetransfer site line tile false (.step c i) s.work) (congrArg Dev.cores hdev :), heq,
      core_onCore_self (site := siteOf s.dev c) (s.work.onSiteNoc site _) _ (lt_length_of_liveStep hst),
      liveStep_onStep (f := fun x => { x with lengthen := x.lengthen + 8 }) (fun _ => rfl) fun _ => rfl]
    exact ⟨_, congrArg (Option.map _) hst, rfl⟩

/-- A second failure is recorded and ends the step with BUS_ERROR (R280, R312). -/
theorem vcSecondFailure (site : Site) (line tile : Nat) (who : Requester) :
    Completes (.vcLineRetransfer site line tile true who) s fun t => StackOnly s t ∧ s.dev.faults.frSeq < t.dev.faults.frSeq ∧
      ∀ c i st, who = .step c i → liveStep (s.work.core (siteOf s.dev c)) i = some st →
        liveStep (t.work.core (siteOf s.dev c)) i = none := by
  obtain ⟨f, heq⟩ := vcRetransfer_second s.work site line tile who
  refine completes_stackOnly (f := vcRetransfer site line tile true who) rfl ?_ fun t ht hdev => ⟨ht, ?_, fun c i st hwho hst => ?_⟩
  · rw [heq, accessFailed_read_log]; rfl
  · rw [hdev, heq]
    exact Nat.lt_of_lt_of_le (Nat.lt_succ_self _) (accessFailed_read_frSeq_le (faultRec s.work f) _ _)
  · subst hwho
    dsimp only [liveRequester] at heq
    rw [work_dev, stepKey_of_live hst] at heq
    rw [core_of_cores (y := vcRetransfer site line tile true (.step c i) s.work) (congrArg Dev.cores hdev :), heq]
    exact busError_liveStep (faultRec s.work f) _ _ _

/-- Settles O24: the first failure of a line lengthens its step, the second ends it. -/
theorem verticalChannelRetries : Obligations.VerticalChannelRetries := fun _ site line tile who =>
  ⟨vcFirstFailure site line tile who, vcSecondFailure site line tile who⟩

end Sys2Proof
end

section
/-! PROOF. Writes of memories without stored errors: the masked bytes stand at their place, every other byte is as before (R279). -/

-- One proof after another: elaborated in parallel, the text as a whole needs more memory than the check allows.
set_option Elab.async false

namespace Sys2Proof.Machine

variable {y z w : Sys} {key k n u : Nat} {data bs : List Byte} {mask ms : List Bool} {who : Requester}

/-- Masked bytes stand at a key, and every other byte reads as before. -/
def Stored (y z : Sys) (k : Nat) (bs : List Byte) (ms : List Bool) : Prop :=
  ∀ j, z.get j = if k ≤ j ∧ j < k + bs.length ∧ nth ms (j - k) false = true then nth bs (j - k) 0 else y.get j

/-- What a write leaves beside the bytes: a queued write-back of a buffer line may be cancelled (R278). -/
def besideBytes (y : Sys) : Dev × Store := ({ y.dev with prot := { y.dev.prot with writeBacks := [] } }, y.base)

theorem Stored.of_get (h : Stored y z k bs ms) (hw : ∀ j, w.get j = z.get j) : Stored y w k bs ms := fun j => (hw j).trans (h j)

theorem Stored.outside (h : Stored y z k bs ms) {j : Nat} (hj : j < k ∨ k + bs.length ≤ j) : z.get j = y.get j :=
  (h j).trans (if_neg (by omega))

theorem nth_map_true (l : List Byte) (i : Nat) : nth (l.map fun _ => true) i false = decide (i < l.length) := by
  by_cases h : i < l.length
  · simp [nth, h]
  · simp [nth, h]

/-- A write of all bytes. -/
theorem Stored.full (h : Stored y z k bs (fullMask bs)) (j : Nat) :
    z.get j = if k ≤ j ∧ j < k + bs.length then nth bs (j - k) 0 else y.get j := by
  rw [h j, fullMask, nth_map_true]
  refine ite_congr (propext ⟨fun h => ⟨h.1, h.2.1⟩, fun h => ⟨h.1, h.2, decide_eq_true (by omega)⟩⟩) (fun _ => rfl) fun _ => rfl

theorem Stored.byte (h : Stored y z k bs (fullMask bs)) {i : Nat} (hi : i < bs.length) : z.get (k + i) = nth bs i 0 := by
  rw [h.full, if_pos (by omega), Nat.add_sub_cancel_left]

theorem eq_false_of_all {ms : List Bool} (h : ms.all (· == false) = true) (i : Nat) : nth ms i false = false := by
  unfold nth
  cases hi : ms[i]? with
  | none => rfl
  | some b => exact beq_iff_eq.mp (List.all_eq_true.mp h b (List.mem_of_getElem? hi))

theorem eq_true_of_all {ms : List Bool} (h : ms.all (· == true) = true) {i : Nat} (hi : i < ms.length) : nth ms i false = true := by
  unfold nth
  rw [List.getElem?_eq_getElem hi]
  exact beq_iff_eq.mp (List.all_eq_true.mp h _ (List.getElem_mem hi))

theorem putMask_dev (y : Sys) (k : Nat) (bs : List Byte) (ms : List Bool) :
    (y.putMask k bs ms).dev = y.dev ∧ (y.putMask k bs ms).base = y.base := by
  induction bs generalizing y k ms with
  | nil => exact ⟨rfl, rfl⟩
  | cons b bs ih =>
    cases ms with
    | nil => exact ⟨rfl, rfl⟩
    | cons m ms =>
      rw [Sys.putMask]
      obtain ⟨hdev, hbase⟩ := ih (if m then { y with log := .put k b :: y.log } else y) (k + 1) ms
      rw [hdev, hbase]
      cases m <;> exact ⟨rfl, rfl⟩

theorem get_of_dev {f : Dev → Dev} (k : Nat) : Sys.get { y with dev := f y.dev } k = y.get k := rfl

/-- A unit whose write nothing stops: of a memory without checker, or with no stored error and no injection armed (R279, R299). -/
def PlainUnit (y : Sys) (key : Nat) : Prop := isDramKey key = false ∧ isBufKey key = false ∨ ErrorFree y.dev

theorem wholeWrite_plain (h : PlainUnit y key) : wholeWrite y key = y := by
  unfold wholeWrite
  rcases h with ⟨hdram, hbuf⟩ | ⟨hdram, hbuf, hinj⟩
  · rw [hdram, hbuf]; rfl
  · have hno : injectHere y key = false := by unfold injectHere; rw [hinj]; rfl
    obtain ⟨dev, base, log⟩ := y
    dsimp only at hdram hbuf hinj
    dsimp only
    rw [hno]
    split
    · rfl
    · simp only [Bool.false_eq_true, if_false, Sys.onProt, hdram, hbuf, errSet, List.map_nil, List.isEmpty_nil, if_true]
      cases dev with | mk boot map prot beat sched cores noc span host fw power walker faults free =>
      cases prot
      dsimp only at hdram hbuf
      subst hdram hbuf
      split <;> rfl

theorem checkDram_clean (h : y.dev.prot.dramErr = []) (key len : Nat) (who : Requester) : checkDram y key len who = (none, y) := by
  unfold checkDram
  rw [h]
  rfl

theorem checkBuf_clean (h : y.dev.prot.bufErr = []) (key len : Nat) (who : Requester) : checkBuf y key len who = (none, y) := by
  unfold checkBuf
  rw [h]
  rfl

/-- A read without stored errors gives the stored bytes and changes nothing. -/
theorem readMem_clean (h : PlainUnit y key) (len : Nat) : readMem y key len who = (.ok (y.getN key len), y) := by
  have hcheck : (if isDramKey key then checkDram y key len who else if isBufKey key then checkBuf y key len who else (none, y)) = (none, y) := by
    rcases h with ⟨hdram, hbuf⟩ | ⟨hdram, hbuf, -⟩
    · rw [hdram, hbuf]; rfl
    · rw [checkDram_clean hdram, checkBuf_clean hbuf, ite_self, ite_self]
  unfold readMem
  dsimp only
  rw [hcheck]

theorem cancelWriteBack_get (y : Sys) (key j : Nat) : (cancelWriteBack y key).get j = y.get j := by
  unfold cancelWriteBack
  split <;> rfl

theorem cancelWriteBack_beside (y : Sys) (key : Nat) : besideBytes (cancelWriteBack y key) = besideBytes y := by
  unfold cancelWriteBack
  split <;> rfl

theorem cancelWriteBack_plain (h : isBufKey key = false) (y : Sys) : cancelWriteBack y key = y := if_neg (by rw [h]; exact Bool.false_ne_true)

/-- A write that nothing stops: its bytes are stored, and nothing but write-backs of a buffer differs beside them. -/
structure Wrote (y : Sys) (r : Option Nat × Sys) (k : Nat) (bs : List Byte) (ms : List Bool) : Prop where
  ok : r.1 = none
  stored : Stored y r.2 k bs ms
  beside : besideBytes r.2 = besideBytes y
  plain : (∀ j, k ≤ j → j < k + bs.length → isBufKey j = false) → r.2.dev = y.dev

theorem writeUnit_wrote (h : PlainUnit y key) (hpos : 0 < data.length) : Wrote y (writeUnit y u key data mask who) key data mask := by
  unfold writeUnit
  split
  next hnone => exact ⟨rfl, fun j => (if_neg fun hj => by rw [eq_false_of_all hnone] at hj; exact Bool.false_ne_true hj.2.2).symm, rfl, fun _ => rfl⟩
  · split
    next hwhole =>
      simp only [Bool.and_eq_true, decide_eq_true_eq] at hwhole
      obtain ⟨⟨hdata, hall⟩, hmask⟩ := hwhole
      rw [wholeWrite_plain h]
      refine ⟨rfl, fun j => ?_, ?_, fun hbuf => ?_⟩
      · rw [cancelWriteBack_get, Sys.get_put]
        refine ite_congr (propext ⟨fun hj => ⟨hj.1, hj.2, eq_true_of_all hall (by omega)⟩, fun hj => ⟨hj.1, hj.2.1⟩⟩) (fun _ => rfl) fun _ => rfl
      · rw [cancelWriteBack_beside, besideBytes, (Sys.put_dev data).1, (Sys.put_dev data).2]; rfl
      · dsimp only
        rw [cancelWriteBack_plain (hbuf key (Nat.le_refl _) (by omega))]; exact (Sys.put_dev data).1
    · have hcheck : (if isDramKey key then checkDram y key u who else if isBufKey key then checkBuf y key u who else (none, y)) = (none, y) := by
        rcases h with ⟨hdram, hbuf⟩ | ⟨hdram, hbuf, -⟩
        · rw [hdram, hbuf]; rfl
        · rw [checkDram_clean hdram, checkBuf_clean hbuf, ite_self, ite_self]
      dsimp only
      rw [hcheck]
      have hkept : (if isBufKey key = true then y.onProt fun p => { p with bufErr := errSet key [] p.bufErr } else y) = y := by
        rcases h with ⟨-, hbuf⟩ | ⟨-, hbuf, -⟩
        · rw [hbuf]; rfl
        · split
          · obtain ⟨dev, base, log⟩ := y
            cases dev with | mk boot map prot beat sched cores noc span host fw power walker faults free =>
            cases prot
            dsimp only at hbuf
            subst hbuf
            rfl
          · rfl
      dsimp only
      rw [hkept]
      refine ⟨rfl, fun j => ?_, ?_, fun hbuf => ?_⟩
      · rw [cancelWriteBack_get, Sys.get_putMask]
      · rw [cancelWriteBack_beside, besideBytes, (putMask_dev _ _ _ _).1, (putMask_dev _ _ _ _).2]; rfl
      · dsimp only
        rw [cancelWriteBack_plain (hbuf key (Nat.le_refl _) (by omega))]; exact (putMask_dev _ _ _ _).1

/- Stretches, unit by unit. -/

theorem nth_append_right {α : Type} {l r : List α} {i : Nat} {d : α} (h : l.length ≤ i) : nth (l ++ r) i d = nth r (i - l.length) d := by
  rw [nth, nth, List.getElem?_append_right h]

theorem nth_append_left {α : Type} {l r : List α} {i : Nat} {d : α} (h : i < l.length) : nth (l ++ r) i d = nth l i d := by
  rw [nth, nth, List.getElem?_append_left h]

theorem nth_replicate {α : Type} (n i : Nat) (d : α) : nth (List.replicate n d) i d = d := by
  by_cases h : i < n <;> simp [nth, h]

theorem nth_take {α : Type} {l : List α} {n i : Nat} {d : α} (h : i < n) : nth (l.take n) i d = nth l i d := by
  simp [nth, h]

theorem nth_drop {α : Type} (l : List α) (n i : Nat) (d : α) : nth (l.drop n) i d = nth l (n + i) d := by
  simp [nth, List.getElem?_drop]

/-- A piece that is filled up to the start of its unit stores its own bytes only. -/
theorem Stored.of_filled {g : Nat} (h : Stored y z k (List.replicate g 0 ++ bs) (List.replicate g false ++ ms)) : Stored y z (k + g) bs ms := by
  intro j
  rw [h j]
  simp only [List.length_append, List.length_replicate]
  by_cases hj : k + g ≤ j
  · rw [nth_append_right (by rw [List.length_replicate]; omega), nth_append_right (by rw [List.length_replicate]; omega),
      List.length_replicate, List.length_replicate, Nat.sub_sub]
    exact ite_congr (propext ⟨fun h => ⟨hj, by omega, h.2.2⟩, fun h => ⟨by omega, by omega, h.2.2⟩⟩) (fun _ => rfl) fun _ => rfl
  · rw [if_neg (c := k + g ≤ j ∧ _) fun h => hj h.1]
    by_cases hk : k ≤ j
    · rw [nth_append_left (r := ms) (by rw [List.length_replicate]; omega), nth_replicate]
      exact if_neg fun h => Bool.false_ne_true h.2.2
    · exact if_neg fun h => hk h.1

/-- One stretch after another is one stretch. -/
theorem Stored.append {n : Nat} (h : Stored y z k (bs.take n) (ms.take n)) (h' : Stored z w (k + n) (bs.drop n) (ms.drop n)) :
    Stored y w k bs ms := by
  intro j
  rw [h' j, h j]
  simp only [List.length_take, List.length_drop, nth_drop]
  by_cases hj : k + n ≤ j
  · rw [show n + (j - (k + n)) = j - k by omega, if_neg (c := k ≤ j ∧ j < k + min n bs.length ∧ _) fun h => by omega]
    exact ite_congr (propext ⟨fun h => ⟨by omega, by omega, h.2.2⟩, fun h => ⟨hj, by omega, h.2.2⟩⟩) (fun _ => rfl) fun _ => rfl
  · rw [if_neg (c := k + n ≤ j ∧ _) fun h => hj h.1]
    by_cases hk : k ≤ j
    · rw [nth_take (by omega), nth_take (by omega)]
      exact ite_congr (propext ⟨fun h => ⟨h.1, by omega, h.2.2⟩, fun h => ⟨h.1, by omega, h.2.2⟩⟩) (fun _ => rfl) fun _ => rfl
    · rw [if_neg fun h => hk h.1, if_neg fun h => hk h.1]

theorem plainUnit_of_beside (h : PlainUnit y key) (hb : besideBytes z = besideBytes y) (hkey : isDramKey key = false ∧ isBufKey key = false →
    isDramKey k = false ∧ isBufKey k = false) : PlainUnit z k := by
  refine h.imp hkey fun ⟨hdram, hbuf, hinj⟩ => ?_
  exact ⟨(congrArg (fun p : Dev × Store => p.1.prot.dramErr) hb : z.dev.prot.dramErr = _).trans hdram,
    (congrArg (fun p : Dev × Store => p.1.prot.bufErr) hb : z.dev.prot.bufErr = _).trans hbuf,
    (congrArg (fun p : Dev × Store => p.1.prot.injArm) hb : z.dev.prot.injArm = _).trans hinj⟩

/-- The writing of units that have been cut out (R279). -/
def writeUnits (u : Nat) (who : Requester) (r : Option Nat × Sys) (l : List (Nat × List Byte × List Bool)) : Option Nat × Sys :=
  l.foldl (fun r p =>
    let w := writeUnit r.2 u p.1 p.2.1 p.2.2 who
    (r.1.or w.1, w.2)) r

theorem writeUnits_wrote (hu : u = 8 ∨ u = 64) (fuel : Nat) : ∀ (y : Sys) (key : Nat) (data : List Byte) (mask : List Bool), PlainUnit y key →
    data.length + key % u ≤ fuel * u → Wrote y (writeUnits u who (none, y) (unitPieces u fuel key data mask)) key data mask := by
  induction fuel with
  | zero =>
    intro y key data mask _ hlen
    have hnil : data.length = 0 := by omega
    exact ⟨rfl, fun j => (if_neg (by omega)).symm, rfl, fun _ => rfl⟩
  | succ fuel ih =>
    intro y key data mask hplain hlen
    unfold unitPieces
    split
    next hnil =>
      have hnil : data.length = 0 := List.length_eq_zero_iff.mpr (List.isEmpty_iff.mp hnil)
      exact ⟨rfl, fun j => (if_neg (by omega)).symm, rfl, fun _ => rfl⟩
    next hdata =>
      have hpos : 0 < data.length := Nat.pos_of_ne_zero fun h => hdata (List.isEmpty_iff.mpr (List.length_eq_zero_iff.mp h))
      have hupos : 0 < u := by omega
      have hmod : key / u * u + key % u = key := Nat.div_add_mod' key u
      have hlt : key % u < u := Nat.mod_lt _ hupos
      have hgap : key - key / u * u = key % u := by omega
      dsimp only
      rw [hgap]
      have hfirst : PlainUnit y (key / u * u) := plainUnit_of_beside hplain rfl fun ⟨hd, hb⟩ => by
        simp only [isDramKey, isBufKey, decide_eq_false_iff_not, Bool.and_eq_false_iff] at hd hb ⊢
        rcases hu with rfl | rfl <;> omega
      have hw := writeUnit_wrote (who := who) (u := u) (mask := List.replicate (key % u) false ++ mask.take (u - key % u)) hfirst
        (data := List.replicate (key % u) 0 ++ data.take (u - key % u))
        (by rw [List.length_append, List.length_take]; omega)
      obtain ⟨hok, hstored, hbeside, hdev⟩ := hw
      generalize hz : writeUnit y u (key / u * u) _ _ who = r at hok hstored hbeside hdev
      have hrest := ih r.2 (key / u * u + u) (data.drop (u - key % u)) (mask.drop (u - key % u))
        (plainUnit_of_beside hplain hbeside fun ⟨hd, hb⟩ => by
          simp only [isDramKey, isBufKey, decide_eq_false_iff_not, Bool.and_eq_false_iff] at hd hb ⊢
          rcases hu with rfl | rfl <;> omega)
        (by rw [List.length_drop, Nat.mul_comm (key / u), Nat.mul_add_mod_self_left, Nat.mod_self]
            rw [Nat.succ_mul] at hlen; omega)
      have hcons : ∀ l, writeUnits u who (none, y) ((key / u * u, List.replicate (key % u) 0 ++ data.take (u - key % u),
          List.replicate (key % u) false ++ mask.take (u - key % u)) :: l) = writeUnits u who (none, r.2) l := by
        intro l
        unfold writeUnits
        rw [List.foldl_cons]
        dsimp only
        rw [hz, hok]
        rfl
      rw [hcons]
      obtain ⟨hok', hstored', hbeside', hdev'⟩ := hrest
      refine ⟨hok', ?_, hbeside'.trans hbeside, fun hbuf => ?_⟩
      · have hs := hstored.of_filled
        rw [hmod] at hs
        exact hs.append (by rw [show key + (u - key % u) = key / u * u + u by omega]; exact hstored')
      · refine (hdev' fun j hj hj' => ?_).trans (hdev fun j hj hj' => ?_)
        · rw [List.length_drop] at hj'
          exact hbuf j (by omega) (by omega)
        · rw [List.length_append, List.length_replicate, List.length_take] at hj'
          have hkey := hbuf key (Nat.le_refl _) (by omega)
          simp only [isBufKey, decide_eq_false_iff_not, Bool.and_eq_false_iff] at hkey ⊢
          rcases hu with rfl | rfl <;> omega

theorem writeMem_eq (y : Sys) (key : Nat) (data : List Byte) (mask : List Bool) (who : Requester) : writeMem y key data mask who =
    writeUnits (unitOf key) who (none, noteOverwrite y key data.length) (unitPieces (unitOf key) (data.length / unitOf key + 2) key data mask) := rfl

theorem unitOf_cases (key : Nat) : unitOf key = 8 ∨ unitOf key = 64 := by
  unfold unitOf
  split
  · exact .inr rfl
  · exact .inl rfl

/-- The units that a stretch of n bytes may touch. -/
theorem units_suffice (hu : u = 8 ∨ u = 64) : n + key % u ≤ (n / u + 2) * u := by
  rcases hu with rfl | rfl <;> omega

theorem noteOverwrite_get (y : Sys) (key n j : Nat) : (noteOverwrite y key n).get j = y.get j := by
  have hcore (s : Nat) (f : Core → Core) : (y.onCore s f).get j = y.get j := rfl
  simp only [noteOverwrite]
  split
  · rfl
  · split
    · exact hcore _ _
    · rfl

theorem noteOverwrite_plain (h : isBufKey key = false) (y : Sys) (n : Nat) : noteOverwrite y key n = y := if_pos (by rw [h]; rfl)

/-- The write of a stretch outside the buffers, where nothing stops it. -/
theorem writeMem_wrote (h : PlainUnit y key) (hbuf : isBufKey key = false) :
    Wrote y (writeMem y key data mask who) key data mask := by
  rw [writeMem_eq, noteOverwrite_plain hbuf]
  exact writeUnits_wrote (unitOf_cases key) _ y key data mask h (units_suffice (unitOf_cases key))

/- Retained ranges that a write meets (R184). -/

/-- What a hit of retained ranges leaves alone: all but the cores, the records on their way and the counts of dropped messages. -/
def besideStatus (y : Sys) : Dev × Store × List MemOp :=
  ({ y.dev with cores := [], faults := {}, noc := { y.dev.noc with sites := [] }, host := { y.dev.host with stsOut := [], faultOut := [] } },
    y.base, y.log)

theorem sendStatus_besideStatus (y : Sys) (site : Nat) (s : StepRun) : besideStatus (sendStatus y site s) = besideStatus y := by
  have hdrop : besideStatus (y.when (y.dev.noc.fenced.contains site) fun y => y.onSiteNoc site fun n =>
      { n with fenceDrops := sat32 (n.fenceDrops + 1) }) = besideStatus y := Sys.when_keeps besideStatus y _ _ rfl
  unfold sendStatus
  dsimp only
  rw [← hdrop]
  rfl

theorem recordStep_besideStatus (y : Sys) (site : Nat) (s : StepRun) (w : Nat) : besideStatus (recordStep y site s w) = besideStatus y := by
  unfold recordStep
  exact (Sys.when_keeps besideStatus _ _ _ rfl).trans (Sys.when_keeps besideStatus y _ _ (sendStatus_besideStatus _ _ _))

theorem retHit_besideStatus (y : Sys) (lo hi : Nat) (skip : Option (Nat × Nat)) : besideStatus (retHit y lo hi skip) = besideStatus y :=
  Sys.each_keeps besideStatus y _ _ fun z site _ => by
    have hcore (f : Core → Core) : besideStatus (z.onCore site f) = besideStatus z := rfl
    dsimp only
    split
    · exact (Sys.each_keeps besideStatus _ _ _ fun _ _ _ => recordStep_besideStatus _ _ _ _).trans (hcore _)
    · rfl

theorem get_of_besideStatus (h : besideStatus z = besideStatus y) (j : Nat) : z.get j = y.get j :=
  Sys.get_of_log (congrArg (fun p => p.2.1) h) (congrArg (fun p => p.2.2) h)

/- Mailboxes (R369). -/

/-- What a write of a mailbox leaves beside the bytes. -/
def besideMailbox (y : Sys) : Dev × Store := ((besideStatus y).1, y.base)

theorem place_mailbox {o : Nat} (n : Nat) (h : o < 65536) : place n (0x7E00000000 + o) = .mailbox o := by
  unfold place
  rw [if_neg (by omega), if_neg (by omega), if_neg (by omega), if_neg (by omega), if_neg (by omega), if_neg (by omega), if_neg (by omega),
    if_pos (by omega), Nat.add_sub_cancel_left]

theorem mbxKey_plain (o : Nat) : isDramKey (mbxKey o) = false ∧ isBufKey (mbxKey o) = false := by
  unfold isDramKey isBufKey mbxKey
  rw [Bool.and_eq_false_iff]
  exact ⟨decide_eq_false (by omega), .inr (decide_eq_false (by omega))⟩

/-- A stretch within one line of 128 bytes is one piece (R355). -/
theorem hostPieces_line {a len : Nat} (hpos : len ≠ 0) (h : a % 128 + len ≤ 128) : hostPieces (len / 128 + 2) 0 a len = [(0, a, len)] := by
  rw [hostPieces, if_neg hpos]
  dsimp only
  rw [show min len (128 - a % 128) = len by omega, Nat.sub_self, hostPieces, if_pos rfl]

theorem deviceWrite_line {a : Nat} {skip : Option (Nat × Nat)} (hfilter : y.dev.host.filter = []) (htxns : y.dev.host.txns = [])
    (hlen : mask.length = data.length) (hpos : data.length ≠ 0) (h : a % 128 + data.length ≤ 128) :
    deviceWrite y a data mask who skip =
      if (writeDev y a data mask who skip).1 then rmwFailed (writeDev y a data mask who skip).2 who else (writeDev y a data mask who skip).2 := by
  have hslice : slice data 0 data.length = data := by simp [slice]
  have hmask : (mask.drop 0).take data.length = mask := by rw [List.drop_zero, ← hlen, List.take_length]
  unfold deviceWrite
  rw [hostPieces_line hpos h]
  simp only [Sys.each, List.foldl_cons, List.foldl_nil, hfilter, htxns, hslice, hmask]
  rfl

theorem each_retHit_besideStatus (l : List (Nat × Nat)) (a : Nat) (skip : Option (Nat × Nat)) (y : Sys) :
    besideStatus (y.each l fun y n => retHit y (directAddr y.dev a + n.1) (directAddr y.dev a + n.1 + n.2 - 1) skip) = besideStatus y :=
  Sys.each_keeps besideStatus _ _ _ fun _ _ _ => retHit_besideStatus _ _ _ _

/-- The write of a mailbox: its masked bytes are stored, no checker and no bank is met (R369). -/
theorem writeDev_mailbox {o : Nat} {skip : Option (Nat × Nat)} (ho : o < 4096) :
    (writeDev y (0x7E00000000 + o) data mask who skip).1 = false ∧
      Stored y (writeDev y (0x7E00000000 + o) data mask who skip).2 (mbxKey o) data mask ∧
      besideMailbox (writeDev y (0x7E00000000 + o) data mask who skip).2 = besideMailbox y := by
  have hplace : place y.dev.map.n (0x7E00000000 + o) = .mailbox o := place_mailbox _ (by omega)
  have hkey : placeKey y.dev (.mailbox o) = some (mbxKey o) := if_pos ho
  obtain ⟨hdram, hbuf⟩ := mbxKey_plain o
  have hturns : (if mask.any id then takeTurns y (mbxKey o) data.length who else y) = y := by
    rw [takeTurns, hdram]
    exact ite_self y
  obtain ⟨hok, hstored, hbeside, hdev⟩ := writeMem_wrote (who := who) (data := data) (mask := mask) (.inl (mbxKey_plain o) : PlainUnit y (mbxKey o)) hbuf
  have heq : writeDev y (0x7E00000000 + o) data mask who skip = ((writeMem y (mbxKey o) data mask who).1.isSome,
      (writeMem y (mbxKey o) data mask who).2.each (maskRuns 0 mask) fun y n =>
        retHit y (directAddr y.dev (0x7E00000000 + o) + n.1) (directAddr y.dev (0x7E00000000 + o) + n.1 + n.2 - 1) skip) := by
    unfold writeDev addrKey
    rw [hplace, hkey]
    dsimp only
    rw [hturns]
    unfold writeRaw
    rw [hplace]
    dsimp only
    rw [hkey]
  rw [heq]
  generalize writeMem y (mbxKey o) data mask who = r at hok hstored hbeside hdev
  have hsame : r.2.dev = y.dev := hdev fun j hj _ => by
    rw [show j = mbxKey (j - 2 ^ 44) by unfold mbxKey at *; omega]
    exact (mbxKey_plain _).2
  have hret := each_retHit_besideStatus (maskRuns 0 mask) (0x7E00000000 + o) skip r.2
  refine ⟨by rw [hok]; rfl, hstored.of_get fun j => get_of_besideStatus hret j, ?_⟩
  have hmbx : besideMailbox r.2 = besideMailbox y := by
    unfold besideMailbox besideStatus
    rw [hsame]
    exact congrArg (Prod.mk _) (congrArg Prod.snd hbeside :)
  exact Eq.trans (congrArg (fun p : Dev × Store × List MemOp => (p.1, p.2.1)) hret) hmbx

/-- The control complex's write of part of a mailbox within one of its lines, where no host copy and no transaction is met. -/
theorem mbxWrite_wrote {m off : Nat} (hm : m < 16) (hin : off + data.length ≤ 256) (hline : off % 128 + data.length ≤ 128)
    (hlen : mask.length = data.length) (hfilter : y.dev.host.filter = []) (htxns : y.dev.host.txns = []) (hpos : data.length ≠ 0) :
    Stored y (mbxWrite y m off data mask) (mbxKey (256 * m + off)) data mask ∧ besideMailbox (mbxWrite y m off data mask) = besideMailbox y := by
  obtain ⟨hok, hstored, hbeside⟩ := writeDev_mailbox (y := y) (data := data) (mask := mask) (who := .control) (skip := none)
    (o := 256 * m + off) (by omega)
  unfold mbxWrite mbxAddr
  rw [Nat.add_assoc, deviceWrite_line hfilter htxns hlen hpos (by omega), hok]
  exact ⟨hstored, hbeside⟩

/- The answer of a command (R373). -/

theorem leBytes_length (n v : Nat) : (leBytes n v).length = n := by
  induction n generalizing v with
  | zero => rfl
  | succ n ih => rw [leBytes, List.length_cons, ih]

theorem host_of_besideMailbox (h : besideMailbox z = besideMailbox y) :
    { z.dev.host with stsOut := [], faultOut := [] } = { y.dev.host with stsOut := [], faultOut := [] } :=
  congrArg (fun p : Dev × Store => p.1.host) h

theorem quiet_of_besideMailbox (h : besideMailbox z = besideMailbox y) :
    z.dev.host.filter = y.dev.host.filter ∧ z.dev.host.txns = y.dev.host.txns :=
  ⟨(congrArg (fun p : Dev × Store => p.1.host.filter) h : z.dev.host.filter = _), (congrArg (fun p : Dev × Store => p.1.host.txns) h : z.dev.host.txns = _)⟩

/-- An answer in a mailbox: OWNER, STATUS and STATE, the first bytes of the result, and nothing outside it. -/
structure AnswerAt (y z : Sys) (m status state : Nat) (result : List Byte) : Prop where
  owner : z.get (mbxKey (256 * m)) = 0
  status : z.get (mbxKey (256 * m + 8)) = BitVec.ofNat 8 status
  state : z.get (mbxKey (256 * m + 9)) = BitVec.ofNat 8 state
  result : ∀ i, i < 96 → i < result.length → z.get (mbxKey (256 * m + 32 + i)) = nth result i 0
  outside : ∀ k, (k < mbxKey (256 * m) ∨ mbxKey (256 * m) + 256 ≤ k) → z.get k = y.get k

theorem AnswerAt.congr {m status state : Nat} {result : List Byte} (h : AnswerAt w z m status state result) (hget : ∀ k, w.get k = y.get k) :
    AnswerAt y z m status state result :=
  ⟨h.owner, h.status, h.state, h.result, fun k hk => (h.outside k hk).trans (hget k)⟩

theorem writeResult_answer {m : Nat} (hm : m < 16) (hfilter : y.dev.host.filter = []) (htxns : y.dev.host.txns = []) (status state : Nat)
    (result : List Byte) : AnswerAt y (writeResult y m status state result) m status state result ∧
      besideMailbox (writeResult y m status state result) = besideMailbox y := by
  unfold writeResult
  extract_lets res l1 z l0 head mask
  have hres : res.length ≤ 224 := by rw [List.length_take]; omega
  have hz : (∀ k, (k < mbxKey (256 * m) ∨ mbxKey (256 * m) + 256 ≤ k) → z.get k = y.get k) ∧ besideMailbox z = besideMailbox y := by
    by_cases hnil : l1.length = 0
    · have hzy : z = y := if_pos (by rw [List.isEmpty_iff]; exact List.length_eq_zero_iff.mp hnil)
      rw [hzy]
      exact ⟨fun _ _ => rfl, rfl⟩
    · have hl1 : l1.length ≤ 128 := by rw [List.length_drop]; omega
      have hzy : z = mbxWrite y m 0x80 l1 (fullMask l1) := if_neg (by rw [List.isEmpty_iff]; exact fun h => hnil (by rw [h]; rfl))
      obtain ⟨hstored, hbeside⟩ := mbxWrite_wrote (y := y) (data := l1) (mask := fullMask l1) hm (off := 0x80) (by omega) (by omega)
        (List.length_map _) hfilter htxns hnil
      rw [hzy]
      exact ⟨fun k hk => hstored.outside (by unfold mbxKey at hk ⊢; omega), hbeside⟩
  obtain ⟨hout, hbz⟩ := hz
  obtain ⟨hf, ht⟩ := quiet_of_besideMailbox hbz
  have hl0 : l0.length ≤ 96 := by rw [List.length_take]; omega
  have hhead : head.length = 32 + l0.length := by
    simp only [head, List.length_append, leBytes_length, List.length_replicate]
  have hmask : mask.length = head.length := by rw [List.length_map, List.length_range, hhead]
  obtain ⟨hstored, hbeside⟩ := mbxWrite_wrote (y := z) (data := head) (mask := mask) hm (off := 0) (by omega) (by omega) hmask
    (hf.trans hfilter) (ht.trans htxns) (by omega)
  have hbyte (i : Nat) (hi : i < head.length) (hi' : (i == 0 || (decide (8 ≤ i) && decide (i < 12)) || decide (24 ≤ i)) = true) :
      (mbxWrite z m 0 head mask).get (mbxKey (256 * m) + i) = nth head i 0 := by
    have hset : nth mask i false = true := by
      rw [nth, List.getElem?_map, List.getElem?_range (by omega)]
      exact hi'
    rw [hstored, Nat.add_zero, Nat.add_sub_cancel_left]
    exact if_pos ⟨Nat.le_add_right _ _, by omega, hset⟩
  refine ⟨⟨hbyte 0 (by omega) rfl, hbyte 8 (by omega) rfl, hbyte 9 (by omega) rfl, fun i hi hi' => ?_, fun k hk => ?_⟩, hbeside.trans hbz⟩
  · have hlen : i < l0.length := by
      rw [List.length_take, List.length_take]; omega
    have hnth : nth head (32 + i) 0 = nth result i 0 := by
      have hl0 : nth l0 i 0 = nth result i 0 := by rw [nth_take hi, nth_take (by omega)]
      rw [← hl0]
      refine (nth_append_right ?_).trans ?_
      · simp only [List.length_append, leBytes_length, List.length_replicate]; omega
      · simp only [List.length_append, leBytes_length, List.length_replicate, Nat.reduceAdd, Nat.add_sub_cancel_left]
    rw [← hnth]
    refine Eq.trans (congrArg _ ?_) (hbyte (32 + i) (by omega) ?_)
    · unfold mbxKey; omega
    · rw [decide_eq_true (show 24 ≤ 32 + i by omega), Bool.or_true]
  · rw [hstored.outside (by unfold mbxKey at hk ⊢; omega)]
    exact hout k hk

end Sys2Proof.Machine
end

section
/-! PROOF. Commands of the mailboxes: how they run, how they are answered; the PWR commands and the thermal trip (R39, R373, R376, R388, R389,
R449, R466, R471, R472). -/

-- One proof after another: elaborated in parallel, the text as a whole needs more memory than the check allows.
set_option Elab.async false

namespace Sys2Proof.Machine

variable {α : Type} {y z : Sys} {m group verb need : Nat} {r : CmdRun}

/- Stops and reports, for a view of the host link: events and records only join their queues (R377, R381). -/

/-- A view that stops and their reports do not enter: of the host link only the queues of records and the counts of events differ. -/
def OffReports (v : Sys → α) : Prop :=
  ∀ y z : Sys, z = { y with dev := { y.dev with
    boot := { y.dev.boot with discards := z.dev.boot.discards, disDiscards := z.dev.boot.disDiscards, parts := z.dev.boot.parts,
                              power := z.dev.boot.power }
    prot := { y.dev.prot with banks := z.dev.prot.banks, busCopies := z.dev.prot.busCopies }
    cores := z.dev.cores, faults := z.dev.faults
    sched := { y.dev.sched with runs := z.dev.sched.runs }
    noc := { y.dev.noc with sites := z.dev.noc.sites }
    host := { y.dev.host with
      stsOut := z.dev.host.stsOut, faultOut := z.dev.host.faultOut, queue := z.dev.host.queue, evtSeq := z.dev.host.evtSeq
      evtDropped := z.dev.host.evtDropped, ringDropped := z.dev.host.ringDropped } } } → dropsOnly y z → v z = v y

namespace OffReports

variable {v : Sys → α} (h : OffReports v) (y : Sys)

include h

theorem offHalt : OffHalt v := fun y z hz hd => h y z (by rw [hz]) hd

theorem ringPush (b : List Byte) (k : Bool) : v (ringPush y b k) = v y := by
  refine h y _ ?_ rfl
  unfold Machine.ringPush
  simp only [Sys.onHost]
  split
  · rfl
  · split <;> rfl

theorem event (code : Nat) (data : List Byte) : v (event y code data) = v y := by
  unfold Machine.event
  exact (h.ringPush _ _ _).trans (h y _ rfl rfl)

theorem enterPower (p : PowerState) : v (enterPower y p) = v y := by
  unfold Machine.enterPower
  split
  · rfl
  · exact (h.event _ _ _).trans (h y _ rfl rfl)

theorem settlePower : v (settlePower y) = v y := by
  unfold Machine.settlePower
  split
  · exact h.enterPower _ _
  · rfl

theorem setPart (q : Nat) (p : PartState) : v (setPart y q p) = v y := (h.settlePower _).trans (h y _ rfl rfl)

theorem faultStop (q : Nat) : v (faultStop y q) = v y := by
  unfold Machine.faultStop
  split
  · rfl
  · exact (h.setPart _ _ _).trans (h.offHalt.stopPart _ _ _)

theorem faultStopAll : v (faultStopAll y) = v y := Sys.each_keeps v y _ _ fun _ _ _ => h.faultStop _ _

end OffReports

/- Answers (R373). -/

/-- The stack without what a hit of retained ranges may change: the cores, the records on their way, the counts of dropped messages. -/
def besideReply (d : Dev) : Dev :=
  { d with cores := [], faults := {}, noc := { d.noc with sites := [] }, host := { d.host with stsOut := [], faultOut := [] } }

/-- What an answer needs of the work record: the bytes as they were, no host copy and no transaction. -/
def answerBase (y : Sys) : List MemOp × Store × List (Nat × Bool) × List Txn := (y.log, y.base, y.dev.host.filter, y.dev.host.txns)

/-- The command has left the list of those that are open (R373). -/
def takenOut (y : Sys) (m : Nat) : Sys :=
  y.onHost fun h => { h with cmds := h.cmds.filter fun r => !(r.mb == m && !r.inProgress) }

theorem finish_answer (hm : m < 16) (hfilter : y.dev.host.filter = []) (htxns : y.dev.host.txns = []) (status : Nat) (result : List Byte) :
    AnswerAt y (finish y m status result) m status 3 result ∧ besideMailbox (finish y m status result) = besideMailbox (takenOut y m) :=
  have hans := writeResult_answer (y := takenOut y m) hm hfilter htxns status 3 result
  ⟨hans.1.congr fun _ => rfl, hans.2⟩

theorem openCmd_of_host {d e : Dev} (h : d.host.cmds = e.host.cmds) : openCmd d m = openCmd e m := by rw [openCmd, h, openCmd]

theorem openCmd_takenOut (y : Sys) (m : Nat) : openCmd (takenOut y m).dev m = none := by
  refine List.find?_eq_none.mpr fun r hr => ?_
  have hkeep := (List.mem_filter.mp hr).2
  simp only [Bool.not_eq_true', Bool.and_eq_false_iff] at hkeep
  simp only [Bool.and_eq_true]
  rintro ⟨⟨hmb, hprog⟩, -⟩
  rcases hkeep with h | h
  · rw [h] at hmb; exact Bool.false_ne_true hmb
  · rw [h] at hprog; exact Bool.false_ne_true hprog

/-- A command that can run runs. -/
theorem command_runs {body : CmdRun → Sys → Sys} (hopen : openCmd y.dev m = some r) (hgroup : r.group = group) (hverb : r.verb = verb)
    (hdef : r.deferred = false) (hrefs : r.pendingRefs = 0) (hbusy : groupBusy y.dev group verb = false) (href : r.refErr = false)
    (hlen : lengthOk r need = true) : command group verb need m body y = body r y := by
  unfold command
  rw [hopen]
  dsimp only
  rw [if_neg (by simp [hgroup, hverb, hdef, hrefs]), hbusy, href, hlen]
  rfl

/- The thermal trip and the reports (R389, R466, R471, R472). -/

/-- What a division of the power over the cores leaves alone. -/
theorem divide_keeps (v : Sys → α) (hSite : ∀ z s f, v (Sys.onSitePow z s f) = v z) (y : Sys) : v (divide y) = v y :=
  Sys.each_keeps v y _ _ fun z _ _ => hSite z _ _

/-- The power settings without those of the sites. -/
def powerRest (y : Sys) : Power := { y.dev.power with sites := [] }

theorem event_powerRest (y : Sys) (code : Nat) (data : List Byte) : powerRest (event y code data) = powerRest y :=
  event_keeps powerRest y (fun _ _ => rfl) _ _

theorem event_answerBase (y : Sys) (code : Nat) (data : List Byte) : answerBase (event y code data) = answerBase y :=
  OffReports.event (v := answerBase) (fun y z hz _ => by rw [hz]; rfl) _ _ _

theorem requestHold_answerBase (y : Sys) (cause len : Nat) : answerBase (requestHold y cause len) = answerBase y :=
  requestHold_keeps answerBase y (fun _ _ => rfl) (fun _ _ => rfl) _ _

theorem requestHold_powerRest (y : Sys) (cause len : Nat) : powerRest (requestHold y cause len) = powerRest y :=
  requestHold_keeps powerRest y (fun _ _ => rfl) (fun _ _ => rfl) _ _

theorem coolantLost_powerRest (y : Sys) (path flow : Nat) :
    powerRest (coolantLost y path flow) = { powerRest y with coolantLoss := true } := by
  unfold coolantLost
  split
  next h => exact congrArg (fun b => { powerRest y with coolantLoss := b }) h
  next =>
    dsimp only
    rw [event_powerRest, requestHold_powerRest, divide_keeps powerRest fun _ _ _ => rfl]
    rfl

theorem coolantLost_answerBase (y : Sys) (path flow : Nat) : answerBase (coolantLost y path flow) = answerBase y := by
  unfold coolantLost
  split
  · rfl
  · dsimp only
    rw [event_answerBase, requestHold_answerBase, divide_keeps answerBase fun _ _ _ => rfl]
    rfl

theorem setFlow_powerRest (y : Sys) (flow : Option Nat) :
    powerRest (setFlow y flow) = { powerRest y with flow := flow, flowSource := flowWatts (flow.getD 1200) } := by
  unfold setFlow
  dsimp only
  split
  · rfl
  · rw [event_powerRest]; rfl

theorem setFlow_answerBase (y : Sys) (flow : Option Nat) : answerBase (setFlow y flow) = answerBase y := by
  unfold setFlow
  dsimp only
  split
  · rfl
  · rw [event_answerBase]; rfl

theorem useReport_answerBase (y : Sys) (r : CmdRun) : answerBase (useReport y r) = answerBase y := by
  unfold useReport
  extract_lets v temp flow last z z'
  have hz : answerBase z' = answerBase y := (setFlow_answerBase _ _).trans rfl
  clear_value z' flow
  split
  · exact hz
  · extract_lets halved
    split
    · exact (coolantLost_answerBase _ _ _).trans hz
    · exact hz

/-- The flow that a report states (R389). -/
def reportFlow (r : CmdRun) : Option Nat := if bitAt (r.field 0xC 1) 3 then some (r.field 0xA 2) else none

/-- The temperature that a report states in a field that a bit makes valid (R389). -/
def reportTemp (r : CmdRun) (off b : Nat) : Option Int := if bitAt (r.field 0xC 1) b then some (sext 16 (r.field off 2)) else none

theorem useReport_power (y : Sys) (r : CmdRun) : ∃ loss, powerRest (useReport y r) = { powerRest y with
      envSeq := some (r.field 0 4), envAt := y.dev.beat.wbc, envStale := false
      inlet := reportTemp r 4 0, mid := reportTemp r 6 1, outlet := reportTemp r 8 2
      lastFlow := (reportFlow r).orElse fun _ => y.dev.power.lastFlow
      flow := reportFlow r, flowSource := flowWatts ((reportFlow r).getD 1200), coolantLoss := loss } ∧
    (bitAt (r.field 0xC 1) 3 = true → r.field 0xA 2 < 300 → loss = true) := by
  unfold useReport
  extract_lets v temp flow last z z'
  have hz : powerRest z' = _ := setFlow_powerRest z flow
  have hsome : bitAt (r.field 0xC 1) 3 = true → flow = some (r.field 0xA 2) := fun hbit => if_pos hbit
  have hflow : flow = reportFlow r := rfl
  have htemp : temp = reportTemp r := rfl
  have hpow : powerRest z = { powerRest y with
      envSeq := some (r.field 0 4), envAt := y.dev.beat.wbc, envStale := false, inlet := temp 4 0, mid := temp 6 1, outlet := temp 8 2
      lastFlow := flow.orElse fun _ => y.dev.power.lastFlow } := rfl
  rw [hpow] at hz
  rw [← hflow, ← htemp]
  clear_value z' z flow temp
  split
  next => exact ⟨_, hz, fun hbit => by cases hsome hbit⟩
  next f =>
    extract_lets halved
    split
    next => exact ⟨true, (coolantLost_powerRest z' _ _).trans (congrArg (fun p : Power => { p with coolantLoss := true }) hz), fun _ _ => rfl⟩
    next hkept =>
      refine ⟨_, hz, fun hbit hlow => ?_⟩
      cases hsome hbit
      rw [decide_eq_true hlow] at hkept
      exact absurd rfl hkept

/-- Every compute rail of the stack is removed. -/
theorem allRailsOff_powered (y : Sys) {x : Nat} (hx : x < 18) : x ∉ (allRailsOff y).dev.boot.powered := by
  have h := Sys.each_establishes (y := y) (l := List.range 18) (f := railsOff) (fun _ => True) (fun x z => x ∉ z.dev.boot.powered) trivial
    (fun _ _ _ => trivial) (fun z a _ _ h => (mem_takeOut.mp h).2 rfl) fun z a b _ hb h => hb (mem_takeOut.mp h).1
  exact h.2 x (List.mem_range.mpr hx)

theorem allRailsOff_keeps (v : Sys → α) (hBoot : ∀ z f, v (Sys.onBoot z f) = v z) (hSite : ∀ z s f, v (Sys.onSitePow z s f) = v z)
    (y : Sys) : v (allRailsOff y) = v y :=
  Sys.each_keeps v y _ _ fun z _ _ => (hSite _ _ _).trans (hBoot z _)

theorem allRailsOff_parts (y : Sys) : (allRailsOff y).dev.boot.parts = y.dev.boot.parts :=
  Sys.each_keeps (fun z => z.dev.boot.parts) y _ _ fun _ _ _ => rfl

end Sys2Proof.Machine

namespace Sys2Proof

open Machine

variable {s : State} {m : Mbx} {i : Instr} {status : Nat} {P : State → Prop}

/-- A command whose last act is an answer in its mailbox completes with it. -/
theorem completes_answer {f : Sys → Sys} {y w : Sys} {status state : Nat} {result : List Byte} (h : exec i s = onSys f s)
    (hans : AnswerAt y (f s.work) m status state result) (hbeside : besideMailbox (f s.work) = besideMailbox w) (hget : ∀ k, y.get k = s.work.get k)
    (hbase : w.base = s.mem) (hwf : s.mem.wf = true)
    (hp : ∀ t : State, Replies s t m status state → (∀ i, i < 96 → i < result.length → t.mem.get (mbxKey (256 * m + 32 + i)) = nth result i 0) →
      besideReply t.dev = besideReply w.dev → P t) : Completes i s P := by
  have hread (k : Nat) : (s.mem.applyLog (f s.work).log).get k = (f s.work).get k :=
    Sys.get_applyLog hwf ((congrArg Prod.snd hbeside).trans hbase)
  refine completes_onSys h (hp _ ⟨⟨rfl, rfl⟩, ⟨?_, ?_, ?_⟩, fun k hk => ?_⟩ (fun i hi hi' => ?_) (congrArg Prod.fst hbeside))
  · exact (hread _).trans hans.owner
  · exact (hread _).trans hans.status
  · exact (hread _).trans hans.state
  · exact (hread _).trans ((hans.outside k hk).trans (hget k))
  · exact (hread _).trans (hans.result i hi hi')

theorem answerBase_eq_iff {y : Sys} {st : Store} : answerBase y = ([], st, [], []) ↔
    y.log = [] ∧ y.base = st ∧ y.dev.host.filter = [] ∧ y.dev.host.txns = [] := by
  simp only [answerBase, Prod.mk.injEq]

theorem get_of_answerBase {y : Sys} (h : answerBase y = ([], s.mem, [], [])) (k : Nat) : y.get k = s.work.get k := by
  obtain ⟨hlog, hmem, -, -⟩ := answerBase_eq_iff.mp h
  rw [Sys.get, hlog, hmem]
  rfl

/-- A command that ends with DONE completes so, with its result. -/
theorem completes_finish_result {f : Sys → Sys} {y : Sys} {result : List Byte} (h : exec i s = onSys f s) (hf : f s.work = finish y m status result)
    (hbase : answerBase y = ([], s.mem, [], [])) (hwf : s.mem.wf = true)
    (hp : ∀ t : State, Replies s t m status 3 → (∀ i, i < 96 → i < result.length → t.mem.get (mbxKey (256 * m + 32 + i)) = nth result i 0) →
      besideReply t.dev = besideReply (takenOut y m).dev → P t) : Completes i s P := by
  obtain ⟨-, hmem, hfilter, htxns⟩ := answerBase_eq_iff.mp hbase
  obtain ⟨hans, hbeside⟩ := finish_answer m.isLt hfilter htxns status result
  rw [← hf] at hans hbeside
  exact completes_answer h hans hbeside (get_of_answerBase hbase) hmem hwf hp

/-- A command that ends with DONE completes so. -/
theorem completes_finish {f : Sys → Sys} {y : Sys} {result : List Byte} (h : exec i s = onSys f s) (hf : f s.work = finish y m status result)
    (hbase : answerBase y = ([], s.mem, [], [])) (hwf : s.mem.wf = true)
    (hp : ∀ t : State, Replies s t m status 3 → besideReply t.dev = besideReply (takenOut y m).dev → P t) : Completes i s P :=
  completes_finish_result h hf hbase hwf fun t hrep _ => hp t hrep

/-- A command that is left IN_PROGRESS completes so. -/
theorem completes_progress {f : Sys → Sys} {y : Sys} {result : List Byte} (h : exec i s = onSys f s) (hf : f s.work = progress y m result)
    (hbase : answerBase y = ([], s.mem, [], [])) (hwf : s.mem.wf = true)
    (hp : ∀ t : State, Replies s t m 0 2 → besideReply t.dev = besideReply (onOpen y m fun r => { r with inProgress := true }).dev → P t) :
    Completes i s P := by
  obtain ⟨-, hmem, hfilter, htxns⟩ := answerBase_eq_iff.mp hbase
  obtain ⟨hans, hbeside⟩ := writeResult_answer (y := onOpen y m fun r => { r with inProgress := true }) m.isLt hfilter htxns 0 2 result
  have hf' : f s.work = writeResult (onOpen y m fun r => { r with inProgress := true }) m 0 2 result := hf
  rw [← hf'] at hans hbeside
  exact completes_answer h (hans.congr fun _ => rfl) hbeside (get_of_answerBase hbase) hmem hwf fun t hrep _ => hp t hrep

/-- The body of a command that is ready runs. -/
theorem ready_runs {group verb need : Nat} {r : CmdRun} {body : CmdRun → Sys → Sys} (h : Ready s m group verb need r) :
    command group verb need m body s.work = body r s.work := by
  obtain ⟨hopen, hgroup, hverb, hdef, hrefs, hbusy, href, hlen, -⟩ := h
  exact command_runs (y := s.work) hopen hgroup hverb hdef hrefs hbusy href hlen

theorem answerBase_work (h : HostQuiet s) : answerBase s.work = ([], s.mem, [], []) := by
  obtain ⟨hfilter, htxns, -⟩ := h
  show ([], s.mem, s.dev.host.filter, s.dev.host.txns) = _
  rw [hfilter, htxns]

theorem Ready.quiet {group verb need : Nat} {r : CmdRun} (h : Ready s m group verb need r) : HostQuiet s := by
  obtain ⟨-, -, -, -, -, -, -, -, hq⟩ := h
  exact hq

/- The PWR commands. -/

variable {r : CmdRun}

theorem power_of_reply {d e : Dev} (h : besideReply d = besideReply e) : d.power = e.power := (congrArg Dev.power h :)

theorem boot_of_reply {d e : Dev} (h : besideReply d = besideReply e) : d.boot = e.boot := (congrArg Dev.boot h :)

theorem pwrGrantTaken (h : Ready s m 6 1 0x10 r) (hmin : 300 ≤ r.field 0 2) (hmax : r.field 0 2 ≤ 2000) (hbeat : r.field 8 8 < 2 ^ 56) :
    (seqAhead s.dev.power.grantSeq (r.field 4 4) = true → Completes (.pwrGrant m) s fun t => Replies s t m 0 3 ∧
        t.dev.power = { s.dev.power with nextGrant := some (r.field 0 2, r.field 8 8), grantSeq := some (r.field 4 4)
                                         grantAt := s.dev.beat.wbc, grantStale := false }) ∧
      (seqAhead s.dev.power.grantSeq (r.field 4 4) = false → Completes (.pwrGrant m) s fun t => Replies s t m 0x44 3 ∧
        t.dev.power = s.dev.power) := by
  have hruns := ready_runs h (body := fun r y =>
    if r.field 0 2 < 300 ∨ 2000 < r.field 0 2 ∨ 2 ^ 56 ≤ r.field 8 8 then finish y m stPayload []
    else if !seqAhead y.dev.power.grantSeq (r.field 4 4) then finish y m stRefused []
    else finish (y.onPower fun p => { p with
      nextGrant := some (r.field 0 2, r.field 8 8), grantSeq := some (r.field 4 4), grantAt := y.dev.beat.wbc, grantStale := false }) m 0 [])
  rw [if_neg (by omega)] at hruns
  refine ⟨fun hahead => ?_, fun hahead => ?_⟩
  · rw [work_dev, hahead] at hruns
    exact completes_finish (f := pwrGrant m) rfl hruns (answerBase_work h.quiet) h.quiet.2.2 fun t hrep hdev => ⟨hrep, (power_of_reply hdev).trans rfl⟩
  · rw [work_dev, hahead] at hruns
    exact completes_finish (f := pwrGrant m) rfl hruns (answerBase_work h.quiet) h.quiet.2.2 fun t hrep hdev => ⟨hrep, (power_of_reply hdev).trans rfl⟩

theorem pwrEnvTaken (h : Ready s m 6 2 0x10 r) (hvalid : r.field 0xC 1 < 16) (hres : r.field 0xE 2 = 0) :
    (seqAhead s.dev.power.envSeq (r.field 0 4) = true → Completes (.pwrEnv m) s fun t => Replies s t m 0 3 ∧
        t.dev.power.envSeq = some (r.field 0 4) ∧ t.dev.power.envAt = s.dev.beat.wbc ∧ t.dev.power.envStale = false ∧
        (bitAt (r.field 0xC 1) 3 = true → t.dev.power.flowSource = flowWatts (r.field 0xA 2) ∧
          (r.field 0xA 2 < 300 → t.dev.power.coolantLoss = true)) ∧
        (bitAt (r.field 0xC 1) 0 = true → t.dev.power.inlet = some (sext 16 (r.field 4 2)))) ∧
      (seqAhead s.dev.power.envSeq (r.field 0 4) = false → Completes (.pwrEnv m) s fun t => Replies s t m 0x44 3 ∧
        t.dev.power = s.dev.power) := by
  have hruns := ready_runs h (body := fun r y =>
    if 16 ≤ r.field 0xC 1 ∨ r.field 0xE 2 ≠ 0 then finish y m stPayload []
    else if !seqAhead y.dev.power.envSeq (r.field 0 4) then finish y m stRefused []
    else finish (useReport y r) m 0 [])
  rw [if_neg (by omega)] at hruns
  refine ⟨fun hahead => ?_, fun hahead => ?_⟩
  · rw [work_dev, hahead] at hruns
    refine completes_finish (f := pwrEnv m) rfl hruns ((useReport_answerBase _ _).trans (answerBase_work h.quiet)) h.quiet.2.2
      fun t hrep hdev => ⟨hrep, ?_⟩
    obtain ⟨loss, hpow, hloss⟩ := useReport_power s.work r
    have ht : ({ t.dev.power with sites := [] } : Power) = powerRest (useReport s.work r) := by rw [power_of_reply hdev]; rfl
    rw [hpow] at ht
    refine ⟨congrArg Power.envSeq ht, congrArg Power.envAt ht, congrArg Power.envStale ht, fun hbit => ⟨?_, fun hlow => ?_⟩, fun hbit => ?_⟩
    · refine (congrArg Power.flowSource ht).trans (congrArg (fun f : Option Nat => flowWatts (f.getD 1200)) (if_pos hbit : reportFlow r = _))
    · exact (congrArg Power.coolantLoss ht).trans (hloss hbit hlow)
    · exact (congrArg Power.inlet ht).trans (if_pos hbit)
  · rw [work_dev, hahead] at hruns
    exact completes_finish (f := pwrEnv m) rfl hruns (answerBase_work h.quiet) h.quiet.2.2 fun t hrep hdev => ⟨hrep, (power_of_reply hdev).trans rfl⟩

theorem pwrHintStored (h : Ready s m 6 3 4 r) : Completes (.pwrHint m) s fun t => Replies s t m 0 3 ∧
    t.dev.power = { s.dev.power with hintW := r.field 0 2, hintMs := r.field 2 2 } := by
  have hruns := ready_runs h (body := fun r y =>
    finish (y.onPower fun p => { p with hintW := r.field 0 2, hintMs := r.field 2 2 }) m 0 [])
  exact completes_finish (f := pwrHint m) rfl hruns (answerBase_work h.quiet) h.quiet.2.2 fun t hrep hdev => ⟨hrep, (power_of_reply hdev).trans rfl⟩

/-- What PWR.COOLANT does with the action of its row (R388, R471). -/
theorem pwrCoolant_runs {action : Nat} {act : Sys → Sys} (h : Ready s m 6 4 1 r) (haction : r.field 0 1 = action) (hdef : action ≤ 2) :
    pwrCoolant action m act s.work = if s.dev.power.coolantLoss then finish (act s.work) m 0 [] else finish s.work m stState [] := by
  have hruns := ready_runs h (body := fun r y =>
    if 2 < r.field 0 1 then finish y m stPayload []
    else if r.field 0 1 ≠ action then y
    else if !y.dev.power.coolantLoss then finish y m stState []
    else finish (act y) m 0 [])
  rw [if_neg (by omega), if_neg (by omega)] at hruns
  refine hruns.trans ?_
  rw [work_dev]
  cases s.dev.power.coolantLoss <;> rfl

theorem pwrCoolantRefused {action : Nat} {act : Sys → Sys} (h : Ready s m 6 4 1 r) (hexec : exec i s = onSys (pwrCoolant action m act) s)
    (haction : r.field 0 1 = action) (hdef : action ≤ 2) (hloss : s.dev.power.coolantLoss = false) :
    Completes i s fun t => Replies s t m 0x42 3 ∧ t.dev.power = s.dev.power := by
  have hruns := pwrCoolant_runs (act := act) h haction hdef
  rw [hloss] at hruns
  exact completes_finish hexec hruns (answerBase_work h.quiet) h.quiet.2.2 fun t hrep hdev => ⟨hrep, (power_of_reply hdev).trans rfl⟩

theorem coolantStop_answerBase (y : Sys) : answerBase (coolantStop y) = answerBase y :=
  (allRailsOff_keeps answerBase (fun _ _ => rfl) (fun _ _ _ => rfl) (faultStopAll y)).trans
    (OffReports.faultStopAll (v := answerBase) (fun y z hz _ => by rw [hz]; rfl) y)

theorem coolantStop_boot (y : Sys) (m : Nat) : (takenOut (coolantStop y) m).dev.boot = (allRailsOff (faultStopAll y)).dev.boot := by
  unfold coolantStop
  generalize allRailsOff _ = z
  rfl

theorem coolantStop_coolantLoss (y : Sys) (m : Nat) : (takenOut (coolantStop y) m).dev.power.coolantLoss = false := by
  unfold coolantStop
  generalize allRailsOff _ = z
  rfl

theorem pwrCoolantActs (h : Ready s m 6 4 1 r) (hloss : s.dev.power.coolantLoss = true) (hlen : s.dev.boot.parts.length = 4) :
    (r.field 0 1 = 0 → Completes (.pwrCoolantStay m) s fun t => Replies s t m 0 3 ∧ t.dev.power = s.dev.power) ∧
    (r.field 0 1 = 1 → Completes (.pwrCoolantResume m) s fun t => Replies s t m 0 3 ∧
      t.dev.power = { s.dev.power with coolantLoss := false }) ∧
    (r.field 0 1 = 2 → Completes (.pwrCoolantStop m) s fun t => Replies s t m 0 3 ∧ t.dev.power.coolantLoss = false ∧
      (∀ x, x < 18 → x ∉ t.dev.boot.powered) ∧ ∀ q ∈ allParts s.work, partState t.dev q = .faultStop) := by
  refine ⟨fun haction => ?_, fun haction => ?_, fun haction => ?_⟩
  · have hruns := pwrCoolant_runs (act := id) h haction (by omega)
    rw [hloss] at hruns
    exact completes_finish (f := pwrCoolant 0 m id) rfl hruns (answerBase_work h.quiet) h.quiet.2.2
      fun t hrep hdev => ⟨hrep, (power_of_reply hdev).trans rfl⟩
  · have hruns := pwrCoolant_runs (act := coolantOver) h haction (by omega)
    rw [hloss] at hruns
    exact completes_finish (f := pwrCoolant 1 m coolantOver) rfl hruns (answerBase_work h.quiet) h.quiet.2.2
      fun t hrep hdev => ⟨hrep, (power_of_reply hdev).trans rfl⟩
  · have hruns := pwrCoolant_runs (act := coolantStop) h haction (by omega)
    rw [hloss] at hruns
    refine completes_finish (f := pwrCoolant 2 m coolantStop) rfl hruns ((coolantStop_answerBase _).trans (answerBase_work h.quiet)) h.quiet.2.2
      fun t hrep hdev => ⟨hrep, ?_, fun x hx => ?_, fun q hq => ?_⟩
    · exact (congrArg Power.coolantLoss (power_of_reply hdev)).trans (coolantStop_coolantLoss _ _)
    · rw [boot_of_reply hdev, coolantStop_boot]; exact allRailsOff_powered _ hx
    · rw [partState, boot_of_reply hdev, coolantStop_boot, allRailsOff_parts]
      have hstop := faultStopAll_stops (y := s.work) hlen q hq
      rwa [partState] at hstop

/-- The clocks stop and every compute rail goes (R39, R472). -/
def railsTripped (y : Sys) : Sys :=
  ((allRailsOff y).onPower fun p => { p with clocksStopped := true }).onBoot fun b => { b with warmOk := false }

theorem thermalTrip_eq {sensor : Nat} {mod : Module} {y : Sys} (hon : y.dev.boot.power ≠ .off) (htrip : mod.tripLatched = false)
    (hsensor : sensor < 72) : thermalTrip sensor mod y =
      ({ mod with tripLatched := true }, event (requestHold (faultStopAll (railsTripped y)) 5 0) 0x0A08 (leBytes 2 sensor)) := by
  unfold thermalTrip
  exact if_neg (by rw [htrip]; simp [hon, hsensor])

theorem railsTripped_keeps {α : Type} (v : Sys → α) (hBoot : ∀ z f, v (Sys.onBoot z f) = v z) (hPower : ∀ z f, v (Sys.onPower z f) = v z)
    (hSite : ∀ z s f, v (Sys.onSitePow z s f) = v z) (y : Sys) : v (railsTripped y) = v y :=
  (hBoot _ _).trans ((hPower _ _).trans (allRailsOff_keeps v hBoot hSite y))

theorem railsTripped_boot (y : Sys) : (railsTripped y).dev.boot = { (allRailsOff y).dev.boot with warmOk := false } := rfl

theorem railsTripped_clocks (y : Sys) : (railsTripped y).dev.power.clocksStopped = true := by
  unfold railsTripped
  generalize allRailsOff y = z
  rfl

theorem railsTripped_powered (y : Sys) : (railsTripped y).dev.boot.powered = (allRailsOff y).dev.boot.powered := by
  unfold railsTripped
  generalize allRailsOff y = z
  rfl

theorem railsTripped_stops {y : Sys} (hlen : y.dev.boot.parts.length = 4) :
    ∀ q ∈ allParts y, partState (faultStopAll (railsTripped y)).dev q = .faultStop := by
  have hall : allParts (railsTripped y) = allParts y := railsTripped_keeps allParts (fun _ _ => rfl) (fun _ _ => rfl) (fun _ _ _ => rfl) y
  have hparts : (railsTripped y).dev.boot.parts = y.dev.boot.parts :=
    (congrArg Boot.parts (railsTripped_boot y)).trans (allRailsOff_parts y)
  exact fun q hq => faultStopAll_stops (by rw [hparts]; exact hlen) q (by rw [hall]; exact hq)

theorem railsTripped_log (y : Sys) : (railsTripped y).log = y.log :=
  railsTripped_keeps (fun z => z.log) (fun _ _ => rfl) (fun _ _ => rfl) (fun _ _ _ => rfl) y

/-- The thermal trip (R39, R472). -/
theorem thermalTripActs (hlen : s.dev.boot.parts.length = 4) {sensor : Nat} (hon : s.dev.boot.power ≠ .off)
    (htrip : s.mod.tripLatched = false) (hsensor : sensor < 72) :
    Completes (.thermalTrip sensor) s fun t => t.mod = { s.mod with tripLatched := true } ∧ t.mem = s.mem ∧ t.pending = s.pending ∧
      t.dev.power.clocksStopped = true ∧ t.dev.boot.warmOk = false ∧ (∀ x, x < 18 → x ∉ t.dev.boot.powered) ∧
      ∀ q ∈ allParts s.work, partState t.dev q = .faultStop := by
  have heq := thermalTrip_eq (y := s.work) hon htrip hsensor
  have hlog := railsTripped_log s.work
  have hstops := railsTripped_stops (y := s.work) hlen
  have hpowered {x : Nat} (hx : x < 18) : x ∉ (railsTripped s.work).dev.boot.powered := by
    rw [railsTripped_powered]; exact allRailsOff_powered s.work hx
  have hclocks := railsTripped_clocks s.work
  have hwarm : (railsTripped s.work).dev.boot.warmOk = false := congrArg Boot.warmOk (railsTripped_boot s.work)
  generalize railsTripped s.work = z at heq hlog hstops hpowered hclocks hwarm
  have hkept {α : Type} {v : Sys → α} (h : OffFaultStop v) (hSpan : ∀ z f, v (Sys.onSpan z f) = v z) (hBeat : ∀ z f, v (Sys.onBeat z f) = v z) :
      v (event (requestHold (faultStopAll z) 5 0) 0x0A08 (leBytes 2 sensor)) = v z := by
    rw [h.event, requestHold_keeps v _ hSpan hBeat, h.faultStopAll]
  have hzlog := hkept (v := fun z => z.log) (fun y z hz _ => by rw [hz]) (fun _ _ => rfl) fun _ _ => rfl
  have hzclocks := hkept (v := fun z => z.dev.power.clocksStopped) (fun y z hz _ => by rw [hz]) (fun _ _ => rfl) fun _ _ => rfl
  have hzwarm := hkept (v := fun z => z.dev.boot.warmOk) (fun y z hz _ => by rw [hz]) (fun _ _ => rfl) fun _ _ => rfl
  have hzpow := hkept (v := fun z => z.dev.boot.powered) (fun y z hz _ => by rw [hz]) (fun _ _ => rfl) fun _ _ => rfl
  have hzpart (q : Nat) : partState (event (requestHold (faultStopAll z) 5 0) 0x0A08 (leBytes 2 sensor)).dev q = partState (faultStopAll z).dev q := by
    rw [event_keeps (fun z => partState z.dev q) _ (fun _ _ => rfl), requestHold_keeps (fun z => partState z.dev q) _ (fun _ _ => rfl) (fun _ _ => rfl)]
  generalize event _ _ _ = w at heq hzlog hzclocks hzwarm hzpow hzpart
  refine completes_onAll (f := thermalTrip sensor) rfl ?_
  rw [heq]
  refine ⟨rfl, ?_, rfl, hzclocks.trans hclocks, hzwarm.trans hwarm, fun x hx => ?_, fun q hq => (hzpart q).trans (hstops q hq)⟩
  · exact congrArg s.mem.applyLog (hzlog.trans hlog)
  · exact fun h => hpowered hx (hzpow ▸ h)

/-- Settles O50: the trip, a grant, a report, a hint and the three actions after a coolant loss. -/
theorem powerCommands : Obligations.PowerCommands := fun s hlen =>
  ⟨fun _ hon htrip hsensor => thermalTripActs hlen hon htrip hsensor,
    fun _ _ h hmin hmax hbeat => pwrGrantTaken h hmin hmax hbeat,
    fun _ _ h hvalid hres => pwrEnvTaken h hvalid hres,
    fun _ _ h => pwrHintStored h,
    fun m r h => ⟨fun hloss => pwrCoolantActs h hloss hlen, fun hloss e he haction => by
      simp only [List.mem_cons, List.not_mem_nil, or_false] at he
      rcases he with rfl | rfl | rfl
      · exact pwrCoolantRefused (act := id) h rfl haction (by omega) hloss
      · exact pwrCoolantRefused (act := coolantOver) h rfl haction (by omega) hloss
      · exact pwrCoolantRefused (act := coolantStop) h rfl haction (by omega) hloss⟩⟩

end Sys2Proof
end

section
/-! PROOF. Commands that are turned away: the answer's write may meet a retained range (R184, R376). -/

-- One proof after another: elaborated in parallel, the text as a whole needs more memory than the check allows.
set_option Elab.async false

namespace Sys2Proof

open Machine

/-- A finished step whose retained range covers mailbox 0. -/
def retainedStep : StepRun :=
  { index := 0, run := 0, desc := [], op := 0, issueSbc := 0, issueAt := 0, firstIssue := 0, nominalEnd := 0, release := [], done := true
    outcome := some 1, ret := { ranges := [(0x7E00000000, 0x7E000000FF)], live := true } }

/-- A BOOT.INFO command whose reference could not be read. -/
def unreadCommand : CmdRun :=
  { mb := 0, group := 1, verb := 1, seq := 0, payload := [], refLen := 0, refOk := false, refErr := true, pendingRefs := 0
    inProgress := false, destPending := 0, deferred := false, final := none }

/-- Site 0 is fenced and still holds the step; mailbox 0 holds the command. -/
def retainedState : State :=
  { State.reset with dev := { State.reset.dev with
      cores := [{ steps := [retainedStep] }]
      noc := { State.reset.dev.noc with fenced := [0], sites := [{}] }
      host := { State.reset.dev.host with cmds := [unreadCommand] } } }

/-- The drops that the routers have counted after a command. -/
def dropsAfter (i : Instr) (s : State) : Option (List Nat) :=
  match exec i s with
  | .next t => some (t.dev.noc.sites.map fun n => n.fenceDrops)
  | _ => none

/-- The answer's write meets the retained range: the record of the step goes out and is dropped at the fenced router. -/
theorem dropsAfter_bootInfo : dropsAfter (.bootInfo 0) retainedState = some [1] := by decide +kernel

/-- Refutes O41: the answer of a command that is turned away may touch `noc`. Its write of the mailbox meets the retained range of a finished
step of a fenced core, so the record of the step is delivered and its drop counted (R184, R318); no premise excludes such a range. -/
theorem not_commandsTurnedAway : ¬ Obligations.CommandsTurnedAway := by
  intro h
  obtain ⟨t, ht, -, -, -, -, -, -, hnoc, -⟩ := h retainedState 0 (.bootInfo 0, 1, 1, 0) unreadCommand List.mem_cons_self rfl rfl rfl rfl rfl
    ⟨rfl, rfl, rfl⟩ (.inr (.inl rfl))
  have hdrops := dropsAfter_bootInfo
  rw [dropsAfter, ht] at hdrops
  dsimp only at hdrops
  rw [hnoc] at hdrops
  exact absurd hdrops (by decide)

end Sys2Proof
end

section
/-! PROOF. The BOOT, FAULT and SPAN commands (R383, R390, R392, R393, R412, R414). -/

-- One proof after another: elaborated in parallel, the text as a whole needs more memory than the check allows.
set_option Elab.async false

namespace Sys2Proof.Machine

variable {y z : Sys} {m dest status : Nat} {data result : List Byte}

/- Answers that go to a host address (R367, R382). -/

theorem hostPieces_ne_nil {fuel off addr len : Nat} (h : len ≠ 0) : hostPieces (fuel + 1) off addr len ≠ [] := by
  rw [hostPieces, if_neg h]
  exact List.cons_ne_nil _ _

theorem finishDest_of_data (h : data ≠ []) : finishDest y m dest data status result =
    dwrRange (onOpen y m fun r => { r with
      final := some (status, result), destPending := (hostPieces (data.length / 128 + 2) 0 dest data.length).length }) dest data (.cmdDest m) := by
  unfold finishDest
  refine if_neg fun hn => ?_
  exact hostPieces_ne_nil (fun hl => h (List.length_eq_zero_iff.mp hl)) (List.length_eq_zero_iff.mp hn)

theorem finishDest_nil : finishDest y m dest [] status result = finish y m status result := by
  unfold finishDest
  exact if_pos rfl

/-- Every write of a range stands among the accesses to host memory. -/
theorem dwrRange_mem {use : HostUse} (h : data ≠ []) (y : Sys) : ∃ x ∈ (dwrRange y dest data use).dev.host.accs, x.write = true ∧ x.use = use := by
  have hkeep : ∀ (l : List (Nat × Nat × Nat)) (f : Sys → Nat × Nat × Nat → Sys) (z : Sys),
      (∀ z p, ∃ a, (f z p).dev.host.accs = z.dev.host.accs ++ [a]) → (∃ x ∈ z.dev.host.accs, x.write = true ∧ x.use = use) →
      ∃ x ∈ (l.foldl f z).dev.host.accs, x.write = true ∧ x.use = use := by
    intro l f
    induction l with
    | nil => exact fun z _ h => h
    | cons p l ih =>
      intro z hf ⟨x, hx, hw⟩
      obtain ⟨a, ha⟩ := hf z p
      exact ih (f z p) hf ⟨x, by rw [ha]; exact List.mem_append_left _ hx, hw⟩
  unfold dwrRange
  rw [show data.length / 128 + 2 = data.length / 128 + 1 + 1 by omega, hostPieces, if_neg fun hl => h (List.length_eq_zero_iff.mp hl)]
  rw [Sys.each, List.foldl_cons]
  refine hkeep _ _ _ (fun z p => ⟨_, rfl⟩) ?_
  refine ⟨_, List.mem_append_right _ (List.mem_singleton_self _), ?_, ?_⟩ <;> rfl

theorem dwrRange_log (y : Sys) (use : HostUse) : (dwrRange y dest data use).log = y.log :=
  dwrRange_keeps (fun z => z.log) y (fun _ _ => rfl) _ _ _

theorem dwrRange_besideHost (y : Sys) (use : HostUse) : besideHost (dwrRange y dest data use) = besideHost y :=
  dwrRange_keeps besideHost y (fun _ _ => rfl) _ _ _

/- Parts of the commands of group SPAN. -/

theorem leNat_lt (l : List Byte) : leNat l < 256 ^ l.length := by
  induction l with
  | nil => exact Nat.one_pos
  | cons b l ih =>
    rw [leNat, List.length_cons, Nat.pow_succ]
    have hb := b.isLt
    omega

theorem field_lt (r : CmdRun) (off : Nat) {n : Nat} : r.field off n < 256 ^ n := by
  refine Nat.lt_of_lt_of_le (leNat_lt _) (Nat.pow_le_pow_right (by omega) ?_)
  rw [slice, List.length_take]
  omega

theorem enterPower_answerBase (y : Sys) (p : PowerState) : answerBase (enterPower y p) = answerBase y :=
  OffReports.enterPower (v := answerBase) (fun y z hz _ => by rw [hz]; rfl) y p

theorem settleLinks_answerBase (y : Sys) : answerBase (settleLinks y) = answerBase y := by
  unfold settleLinks
  dsimp only
  split
  · exact enterPower_answerBase _ _
  · rfl

theorem setPort_answerBase (y : Sys) (p : Nat) (new : PortState) : answerBase (setPort y p new) = answerBase y := by
  unfold setPort
  dsimp only
  split
  · rfl
  · exact (settleLinks_answerBase _).trans (event_answerBase _ _ _)

theorem floodRec_answerBase (y : Sys) (e : Option Nat) (r : CtrlRec) : answerBase (floodRec y e r) = answerBase y :=
  floodRec_keeps answerBase y (fun _ _ => rfl) e r

/-- The expected partner of a port that stays unused or stays down (R340). -/
theorem placeWrite_down {p : Nat} {v : W32} (hp : p < y.dev.span.ports.length) (hdown : (y.port p).state = .down)
    (htrain : bitAt v.toNat 18 = false) : ((placeWrite p v y).port p).expId = bits v.toNat 0 11 ∧
      ((placeWrite p v y).port p).expPort = bits v.toNat 12 4 ∧ ((placeWrite p v y).port p).state = .down := by
  have hself := port_onPort_self y (fun x => { x with expId := bits v.toNat 0 11, expPort := bits v.toNat 12 4, use := bitAt v.toNat 16
                                                      fast := bitAt v.toNat 17 }) hp
  have hlen := onPort_length y p fun x => { x with expId := bits v.toNat 0 11, expPort := bits v.toNat 12 4, use := bitAt v.toNat 16
                                                   fast := bitAt v.toNat 17 }
  unfold placeWrite
  dsimp only
  rw [htrain]
  generalize y.onPort p _ = z at hself hlen
  split
  · have hp' : p < (z.onPort p fun x => { x with idleElectric := true, switch := none, holdIdle := false, lossStop := false }).dev.span.ports.length := by
      rw [onPort_length, hlen]; exact hp
    obtain ⟨t, ht⟩ := setPort_port_self (new := .down) hp'
    rw [settleLinks_port, ht, port_onPort_self _ _ (by rw [hlen]; exact hp), hself]
    exact ⟨rfl, rfl, rfl⟩
  · rw [Bool.false_and, Bool.false_and, if_neg Bool.false_ne_true, hself]
    exact ⟨rfl, rfl, hdown⟩

theorem placeWrite_port_of_ne {p q : Nat} (v : W32) (h : p ≠ q) (htrain : bitAt v.toNat 18 = false) :
    (placeWrite p v y).port q = y.port q := by
  unfold placeWrite
  dsimp only
  rw [htrain, Bool.false_and, Bool.false_and, if_neg (c := false = true) Bool.false_ne_true]
  split
  · rw [settleLinks_port, setPort_port_of_ne h, port_onPort_of_ne _ _ h, port_onPort_of_ne _ _ h]
  · exact port_onPort_of_ne _ _ h

theorem placeWrite_length {p : Nat} {v : W32} (htrain : bitAt v.toNat 18 = false) :
    (placeWrite p v y).dev.span.ports.length = y.dev.span.ports.length := by
  unfold placeWrite
  dsimp only
  rw [htrain, Bool.false_and, Bool.false_and, if_neg (c := false = true) Bool.false_ne_true]
  split
  · rw [settleLinks_span, setPort_length, onPort_length, onPort_length]
  · exact onPort_length _ _ _

theorem placeWrite_deviceId {p : Nat} {v : W32} (htrain : bitAt v.toNat 18 = false) :
    (placeWrite p v y).dev.span.deviceId = y.dev.span.deviceId := by
  unfold placeWrite
  dsimp only
  rw [htrain, Bool.false_and, Bool.false_and, if_neg (c := false = true) Bool.false_ne_true]
  split
  · rw [settleLinks_span]; exact (congrArg Span.deviceId (setPort_besidePorts _ _ _) :)
  · rfl

theorem placeWrite_answerBase {p : Nat} {v : W32} (htrain : bitAt v.toNat 18 = false) : answerBase (placeWrite p v y) = answerBase y := by
  unfold placeWrite
  dsimp only
  rw [htrain, Bool.false_and, Bool.false_and, if_neg (c := false = true) Bool.false_ne_true]
  split
  · rw [settleLinks_answerBase, setPort_answerBase]; rfl
  · rfl

/-- The reserved bits of SPAN.PLACE (R392). -/
theorem placeReserved_parts {r : CmdRun} (h : placeReserved r = false) : r.field 0 2 < 2048 ∧
    ∀ p, p < 12 → bitAt (BitVec.ofNat 32 (r.field (4 + 4 * p) 4)).toNat 18 = false := by
  unfold placeReserved at h
  simp only [Bool.or_eq_false_iff, decide_eq_false_iff_not, Nat.not_le] at h
  obtain ⟨⟨⟨⟨hid, -⟩, -⟩, -⟩, hports⟩ := h
  refine ⟨hid, fun p hp => ?_⟩
  have hbits := (Bool.or_eq_false_iff.mp (Bool.eq_false_iff.mpr (List.any_eq_false.mp hports p (List.mem_range.mpr hp)))).2
  have hzero : bits (r.field (4 + 4 * p) 4) 18 14 = 0 := by simpa using hbits
  have hlt : r.field (4 + 4 * p) 4 < 2 ^ 32 := field_lt r (4 + 4 * p) (n := 4)
  rw [BitVec.toNat_ofNat, Nat.mod_eq_of_lt hlt]
  unfold bits at hzero
  unfold bitAt
  simp only [beq_eq_false_iff_ne]
  omega

/-- The partners of the first ports have been written. -/
theorem placeWrites_parts (v : Nat → W32) (y : Sys) (hlen : y.dev.span.ports.length = 12) (hdown : ∀ p, p < 12 → (y.port p).state = .down)
    (htrain : ∀ p, p < 12 → bitAt (v p).toNat 18 = false) (n : Nat) (hn : n ≤ 12) :
    let z := y.each (List.range n) fun y p => placeWrite p (v p) y
    answerBase z = answerBase y ∧ z.dev.span.deviceId = y.dev.span.deviceId ∧ z.dev.span.ports.length = 12 ∧
      ∀ p, p < 12 → (z.port p).state = .down ∧
        (p < n → (z.port p).expId = bits (v p).toNat 0 11 ∧ (z.port p).expPort = bits (v p).toNat 12 4) := by
  induction n with
  | zero => exact ⟨rfl, rfl, hlen, fun p hp => ⟨hdown p hp, fun h => absurd h (Nat.not_lt_zero _)⟩⟩
  | succ n ih =>
    obtain ⟨hbase, hid, hports, hall⟩ := ih (by omega)
    have htrain := htrain n (by omega)
    dsimp only
    rw [List.range_succ, Sys.each, List.foldl_append, List.foldl_cons, List.foldl_nil, ← Sys.each]
    generalize y.each (List.range n) _ = z at hbase hid hports hall
    obtain ⟨hexp, hport, hstate⟩ := placeWrite_down (y := z) (p := n) (by omega) (hall n (by omega)).1 htrain
    refine ⟨(placeWrite_answerBase htrain).trans hbase, (placeWrite_deviceId htrain).trans hid, (placeWrite_length htrain).trans hports,
      fun p hp => ?_⟩
    by_cases hpn : n = p
    · subst hpn; exact ⟨hstate, fun _ => ⟨hexp, hport⟩⟩
    · rw [placeWrite_port_of_ne _ hpn htrain]
      exact ⟨(hall p hp).1, fun h => (hall p hp).2 (by omega)⟩

theorem bits_ofNat (v : Nat) {lo w : Nat} (h : lo + w ≤ 32) : bits (BitVec.ofNat 32 v).toNat lo w = bits v lo w := by
  unfold bits
  rw [BitVec.toNat_ofNat]
  apply Nat.eq_of_testBit_eq
  intro i
  simp only [Nat.testBit_mod_two_pow, Nat.testBit_div_two_pow]
  by_cases hi : i < w
  · simp [hi, show i + lo < 32 by omega]
  · simp [hi]

theorem spanSelfWrite_down {v : W32} (h : ∀ x ∈ y.dev.span.ports, x.state = .down) :
    spanSelfWrite v y = y.onSpan fun s => { s with deviceId := bits v.toNat 0 11 } := by
  refine if_neg fun hany => ?_
  obtain ⟨x, hx, hne⟩ := List.any_eq_true.mp hany
  rw [h x hx] at hne
  exact Bool.false_ne_true hne

theorem port_mem {p : Nat} (h : p < y.dev.span.ports.length) : y.port p ∈ y.dev.span.ports := by
  rw [Sys.port, nth, List.getElem?_eq_getElem h]
  exact List.getElem_mem h

/-- The point that an index names in the ledger is the one that is released (R67). -/
theorem releasedPoint_eq {b : Beat} {p : HoldPoint} {i : Nat} (hp : p ∈ b.points) (hclosed : p.closed = true) (hlen : p.len = 0)
    (hrel : p.release = none) (hindex : p.index = some i) (hone : ∀ q ∈ b.points, q.index = p.index → q = p) : releasedPoint b i = some p := by
  have hmem : p ∈ b.points.filter fun p => p.closed && p.len == 0 && p.release.isNone := by
    refine List.mem_filter.mpr ⟨hp, ?_⟩
    rw [hclosed, hlen, hrel]
    rfl
  unfold releasedPoint
  dsimp only
  cases hfind : (b.points.filter fun p => p.closed && p.len == 0 && p.release.isNone).find? fun p => p.index == some i with
  | none => exact absurd (List.find?_eq_none.mp hfind p hmem) (by simp [hindex])
  | some q =>
    have hq := List.find?_some hfind
    rw [hone q (List.mem_filter.mp (List.mem_of_find?_eq_some hfind)).1 (by rw [hindex]; simpa using hq)]

end Sys2Proof.Machine

namespace Sys2Proof

open Machine

variable {s : State} {m : Mbx} {r : CmdRun} {i : Instr} {P : State → Prop}

/-- A command whose answer goes to the host writes it there, and nothing else changes. -/
theorem completes_finishDest {f : Sys → Sys} {dest status : Nat} {data result : List Byte} (h : exec i s = onSys f s)
    (hf : f s.work = finishDest s.work m dest data status result) (hdata : data ≠ [])
    (hp : ∀ t : State, StackOnly s t → t.dev = { s.dev with host := t.dev.host } → (∃ x ∈ t.dev.host.accs, x.write = true ∧ x.use = .cmdDest m) →
      P t) : Completes i s P := by
  have heq := hf.trans (finishDest_of_data hdata)
  generalize hz : (onOpen s.work m _) = z at heq
  have hlog : z.log = s.work.log := by rw [← hz]; rfl
  have hbeside : besideHost z = besideHost s.work := by rw [← hz]; rfl
  refine completes_stackOnly h (by rw [heq, dwrRange_log, hlog]; rfl) fun t ht hdev => hp t ht ?_ ?_
  · rw [hdev, heq]
    exact congrArg Sys.dev (eq_of_besideHost ((dwrRange_besideHost z _).trans hbeside))
  · rw [hdev, heq]
    exact dwrRange_mem hdata z

theorem beat_of_reply {d e : Dev} (h : besideReply d = besideReply e) : d.beat = e.beat := (congrArg Dev.beat h :)

theorem span_of_reply {d e : Dev} (h : besideReply d = besideReply e) : d.span = e.span := (congrArg Dev.span h :)

theorem fences_of_reply {d e : Dev} (h : besideReply d = besideReply e) : d.noc.fences = e.noc.fences :=
  (congrArg (fun d : Dev => d.noc.fences) h :)

theorem admits_of_reply {d e : Dev} (h : besideReply d = besideReply e) : d.noc.admits = e.noc.admits :=
  (congrArg (fun d : Dev => d.noc.admits) h :)

theorem host_of_reply {d e : Dev} (h : besideReply d = besideReply e) :
    { d.host with stsOut := [], faultOut := [] } = { e.host with stsOut := [], faultOut := [] } := congrArg Dev.host h

/- The BOOT group (R383). -/

theorem bootInfoAnswers (h : Ready s m 1 1 0 r) : Completes (.bootInfo m) s fun t => Replies s t m 0 3 ∧ t.dev.boot = s.dev.boot ∧
    t.mem.get (mbxKey (256 * m + 32)) = BitVec.ofNat 8 s.dev.boot.power.code ∧
    t.mem.get (mbxKey (256 * m + 33)) = BitVec.ofNat 8 s.dev.map.n := by
  have hruns : bootInfo m s.work = _ := ready_runs h
  refine completes_finish_result (f := bootInfo m) rfl hruns (answerBase_work h.quiet) h.quiet.2.2 fun t hrep hres hdev =>
    ⟨hrep, (boot_of_reply hdev).trans rfl, ?_, ?_⟩
  · exact (hres 0 (by omega) (by simp [leBytes_length])).trans rfl
  · exact (hres 1 (by omega) (by simp [leBytes_length])).trans rfl

theorem bootDefectsTaken (h : Ready s m 1 3 16 r) : Completes (.bootDefects m) s fun t => match parseDefects r.payload 4096 with
    | some l => Replies s t m 0 3 ∧ t.dev.boot = { s.dev.boot with storedDefects := some l }
    | none => Replies s t m 0x41 3 ∧ t.dev.boot = s.dev.boot := by
  have hruns : bootDefects m s.work = _ := ready_runs h
  cases hparse : parseDefects r.payload 4096 with
  | none =>
    rw [hparse] at hruns
    exact completes_finish (f := bootDefects m) rfl hruns (answerBase_work h.quiet) h.quiet.2.2 fun t hrep hdev => ⟨hrep, (boot_of_reply hdev).trans rfl⟩
  | some l =>
    rw [hparse] at hruns
    exact completes_finish (f := bootDefects m) rfl hruns (answerBase_work h.quiet) h.quiet.2.2 fun t hrep hdev => ⟨hrep, (boot_of_reply hdev).trans rfl⟩

theorem bootCoresBegins (h : Ready s m 1 4 0 r) (hpower : s.dev.boot.power = .linksQualified) :
    Completes (.bootCores m) s fun t => Replies s t m 0 2 ∧ t.dev.boot.wavesBusy = true ∧ t.dev.boot.wave = 0 ∧ t.dev.boot.ramped = false ∧
      t.dev.boot.wavesAt = s.dev.beat.wbc + 1 := by
  have hruns : bootCores m s.work = _ := ready_runs h
  rw [work_dev, if_neg (fun hne => hne hpower)] at hruns
  refine completes_progress (f := bootCores m) rfl hruns (answerBase_work h.quiet) h.quiet.2.2 fun t hrep hdev => ⟨hrep, ?_⟩
  rw [boot_of_reply hdev]
  exact ⟨rfl, rfl, rfl, rfl⟩

theorem bootCoresRefused (h : Ready s m 1 4 0 r) (hpower : s.dev.boot.power ≠ .linksQualified) :
    Completes (.bootCores m) s fun t => Replies s t m 0x42 3 ∧ t.dev.boot = s.dev.boot := by
  have hruns : bootCores m s.work = _ := ready_runs h
  rw [work_dev, if_pos hpower] at hruns
  exact completes_finish (f := bootCores m) rfl hruns (answerBase_work h.quiet) h.quiet.2.2 fun t hrep hdev => ⟨hrep, (boot_of_reply hdev).trans rfl⟩

theorem take_ne_nil {l : List Byte} {n : Nat} (hl : l ≠ []) (hn : 0 < n) : l.take n ≠ [] := by
  intro h
  rcases List.take_eq_nil_iff.mp h with h | h
  · omega
  · exact hl h

theorem reportsGoOut : ∀ e ∈ [(Instr.bootResourceMap m, 1, 2, 0xC), (.fwStatus m, 8, 2, 0xC)], Ready s m e.2.1 e.2.2.1 e.2.2.2 r →
    destOk (r.field 0 8) = true → 4 ≤ r.field 8 4 →
    Completes e.1 s fun t => StackOnly s t ∧ t.dev = { s.dev with host := t.dev.host } ∧
      ∃ x ∈ t.dev.host.accs, x.write = true ∧ x.use = .cmdDest m := by
  intro e he h hdest hlen
  simp only [List.mem_cons, List.not_mem_nil, or_false] at he
  rcases he with rfl | rfl
  · have hruns : bootResourceMap m s.work = _ := ready_runs h
    rw [hdest] at hruns
    refine completes_finishDest (f := bootResourceMap m) rfl hruns (take_ne_nil ?_ (by omega)) fun t ht hdev hacc => ⟨ht, hdev, hacc⟩
    exact List.cons_ne_nil _ _
  · have hruns : fwStatus m s.work = _ := ready_runs h
    rw [hdest] at hruns
    refine completes_finishDest (f := fwStatus m) rfl hruns (take_ne_nil ?_ (by omega)) fun t ht hdev hacc => ⟨ht, hdev, hacc⟩
    exact List.cons_ne_nil _ _

/- The FAULT group (R390). -/

theorem faultRingSet (h : Ready s m 7 1 0xC r) (haddr : r.field 0 8 < 2 ^ 52) (halign : r.field 0 8 % 4096 = 0) (hsize : ringSizeOk (r.field 8 4) = true)
    (hqueue : s.dev.host.queue = []) : Completes (.faultRing m) s fun t => Replies s t m 0 3 ∧ t.dev.host.ringSet = true ∧
      t.dev.host.ringAddr = r.field 0 8 ∧ t.dev.host.ringSize = r.field 8 4 ∧ t.dev.host.produced = 0 := by
  have hruns : faultRing m s.work = _ := (ready_runs h).trans (if_neg (by rw [hsize]; simp [halign]; omega))
  dsimp only at hruns
  rw [Sys.onHost_host, work_dev, hqueue] at hruns
  refine completes_finish (f := faultRing m) rfl hruns (answerBase_work h.quiet) h.quiet.2.2 fun t hrep hdev => ⟨hrep, ?_⟩
  have hhost := host_of_reply hdev
  exact ⟨congrArg HostLink.ringSet hhost, congrArg HostLink.ringAddr hhost, congrArg HostLink.ringSize hhost, congrArg HostLink.produced hhost⟩

theorem faultFenceSent (h : Ready s m 7 2 1 r) (hcol : r.field 0 1 < s.dev.map.n) : Completes (.faultFence m) s fun t => Replies s t m 0 3 ∧
    t.dev.noc.fences = s.dev.noc.fences ++ [⟨siteOf s.dev (r.field 0 1), 0xA, 0⟩] := by
  have hruns : faultFence m s.work = _ := (ready_runs h).trans (if_neg (Nat.not_le.mpr hcol))
  exact completes_finish (f := faultFence m) rfl hruns (answerBase_work h.quiet) h.quiet.2.2 fun t hrep hdev =>
    ⟨hrep, (fences_of_reply hdev).trans rfl⟩

theorem faultAdmitBegins (h : Ready s m 7 3 1 r) (hcol : r.field 0 1 < s.dev.map.n)
    (hclean : s.dev.boot.cleanSites.contains (siteOf s.dev (r.field 0 1)) = true) : Completes (.faultAdmit m) s fun t => Replies s t m 0 2 ∧
      t.dev.noc.admits = s.dev.noc.admits ++ [⟨[r.field 0 1], false, true, false⟩] := by
  have hruns : faultAdmit m s.work = _ := (ready_runs h).trans ((if_neg (Nat.not_le.mpr hcol)).trans (if_neg (by rw [work_dev, hclean]; simp)))
  exact completes_progress (f := faultAdmit m) rfl hruns (answerBase_work h.quiet) h.quiet.2.2 fun t hrep hdev =>
    ⟨hrep, (admits_of_reply hdev).trans rfl⟩

/- The SPAN group (R392, R393). -/

theorem spanRoleTaken (role : Role) (h : Ready s m 9 2 1 r) (hlive : anyLive s.dev = false)
    (hrole : nth [some Role.lone, some .member, some .master, some .standby] (r.field 0 1) none = some role) :
    Completes (.spanRole m) s fun t => Replies s t m 0 3 ∧ t.dev.beat.role = role ∧ t.dev.beat.wbc = s.dev.beat.wbc := by
  have hruns : spanRole m s.work = _ := ready_runs h
  rw [hrole] at hruns
  dsimp only at hruns
  rw [work_dev, hlive] at hruns
  refine completes_finish (f := spanRole m) rfl hruns (answerBase_work h.quiet) h.quiet.2.2 fun t hrep hdev => ⟨hrep, ?_⟩
  have htake : ∀ b : Beat, ∀ id up, (takeRole role id up b).role = role ∧ (takeRole role id up b).wbc = b.wbc := by
    intro b id up
    unfold takeRole
    dsimp only
    cases role <;> (dsimp only; split <;> exact ⟨rfl, rfl⟩)
  rw [beat_of_reply hdev]
  exact htake _ _ _

theorem spanBeatLoadTaken (h : Ready s m 9 3 8 r) (hbeat : r.field 0 8 < 2 ^ 56) (hlive : anyLive s.dev = false) (hload : loadAllowed s.dev = true) :
    Completes (.spanBeatLoad m) s fun t => Replies s t m 0 3 ∧
      t.dev.beat = { s.dev.beat with loadPending := some (r.field 0 8), loadAt := s.dev.beat.wbc } := by
  have hruns : spanBeatLoad m s.work = _ := (ready_runs h).trans (if_neg (Nat.not_le.mpr hbeat))
  rw [work_dev, hlive, hload] at hruns
  exact completes_finish (f := spanBeatLoad m) rfl hruns (answerBase_work h.quiet) h.quiet.2.2 fun t hrep hdev => ⟨hrep, (beat_of_reply hdev).trans rfl⟩

theorem up64_mod (n : Nat) : up64 n % 64 = 0 := Nat.mul_mod_left _ _

theorem le_up64 (n : Nat) : n ≤ up64 n := by
  unfold up64 ceilDiv
  omega

theorem floodRec_admits (y : Sys) (e : Option Nat) (c : CtrlRec) : (floodRec y e c).dev.span.admits = y.dev.span.admits := by
  have hports := floodRec_besidePorts y e c
  generalize floodRec y e c = z at hports
  exact (congrArg Span.admits hports :)

theorem sendAdmit_parts (y : Sys) (kind target inc : Nat) : answerBase (sendAdmit y kind target inc) = answerBase y ∧
    ∃ a, (sendAdmit y kind target inc).dev.span.admits = y.dev.span.admits ++ [a] ∧ a.kind = kind ∧ a.target = target ∧ a.term = y.dev.beat.term ∧
      a.newInc = inc ∧ a.effectWbc = holdPointFor y := by
  unfold sendAdmit takeAdmit
  dsimp only
  rw [floodRec_answerBase]
  refine ⟨rfl, admitNow y kind target inc, ?_, rfl, rfl, rfl, rfl, rfl⟩
  rw [floodRec_admits]
  rfl

theorem spanAdmitSends : ∀ e ∈ [(Instr.spanAdmit m, 4, 3, 1), (.spanDismiss m, 5, 2, 2)], Ready s m 9 e.2.1 e.2.2.1 r → s.dev.beat.role = .master →
    r.field 0 2 < 2048 → (e.2.2.2 = 1 → r.field 2 1 ≠ 0) →
    Completes e.1 s fun t => Replies s t m 0 3 ∧ ∃ a, t.dev.span.admits = s.dev.span.admits ++ [a] ∧
      a.kind = e.2.2.2 ∧ a.target = r.field 0 2 ∧ a.term = s.dev.beat.term ∧ a.effectWbc % 64 = 0 ∧
      s.dev.beat.wbc + propBeats s.work + 64 ≤ a.effectWbc ∧ (e.2.2.2 = 1 → a.newInc = r.field 2 1) := by
  intro e he h hrole htarget hinc
  simp only [List.mem_cons, List.not_mem_nil, or_false] at he
  have hpoint : holdPointFor s.work % 64 = 0 ∧ s.dev.beat.wbc + propBeats s.work + 64 ≤ holdPointFor s.work := ⟨up64_mod _, le_up64 _⟩
  rcases he with rfl | rfl
  · have hruns : spanAdmit m s.work = _ := (ready_runs h).trans ((if_neg fun hne => hne hrole).trans
      (if_neg (by have := hinc rfl; omega)))
    obtain ⟨hbase, a, ha, hkind, htgt, hterm, hnew, heff⟩ := sendAdmit_parts s.work 1 (r.field 0 2) (r.field 2 1)
    generalize sendAdmit s.work 1 (r.field 0 2) (r.field 2 1) = z at hruns hbase ha
    exact completes_finish (f := spanAdmit m) rfl hruns (hbase.trans (answerBase_work h.quiet)) h.quiet.2.2 fun t hrep hdev =>
      ⟨hrep, a, (congrArg Span.admits (span_of_reply hdev)).trans ha, hkind, htgt, hterm, (congrArg (· % 64) heff).trans hpoint.1, Nat.le_trans hpoint.2 (Nat.le_of_eq heff.symm), fun _ => hnew⟩
  · have hruns : spanDismiss m s.work = _ := (ready_runs h).trans ((if_neg fun hne => hne hrole).trans (if_neg (Nat.not_le.mpr htarget)))
    obtain ⟨hbase, a, ha, hkind, htgt, hterm, hnew, heff⟩ := sendAdmit_parts s.work 2 (r.field 0 2) 0
    generalize sendAdmit s.work 2 (r.field 0 2) 0 = z at hruns hbase ha
    exact completes_finish (f := spanDismiss m) rfl hruns (hbase.trans (answerBase_work h.quiet)) h.quiet.2.2 fun t hrep hdev =>
      ⟨hrep, a, (congrArg Span.admits (span_of_reply hdev)).trans ha, hkind, htgt, hterm, (congrArg (· % 64) heff).trans hpoint.1, Nat.le_trans hpoint.2 (Nat.le_of_eq heff.symm), fun h => by cases h⟩

theorem requestHold_new {y : Sys} {cause len : Nat} (hlen : len ≤ 65535) (hnew : ∀ p ∈ y.dev.beat.points, p.w ≠ holdPointFor y) :
    ∃ p ∈ (requestHold y cause len).dev.beat.points, p.w = holdPointFor y ∧ ∃ q ∈ p.reqs, q.len = len ∧ q.cause = cause := by
  have hnone : (y.dev.beat.points.any fun p => p.w == holdPointFor y && p.reqs.any fun r => r.id == y.dev.span.deviceId &&
      r.inc == y.dev.span.selfInc && decide (lenKey (min len 65535) ≤ lenKey r.len)) = false := by
    refine List.any_eq_false.mpr fun p hp => ?_
    rw [beq_eq_false_iff_ne.mpr (hnew p hp)]
    exact Bool.false_ne_true
  unfold requestHold
  dsimp only
  rw [hnone, if_neg Bool.false_ne_true, floodRec_beat, Nat.min_eq_left hlen]
  obtain ⟨p, hp, hw, hr, -⟩ := reclose_addRequest_mem y.dev.beat (holdPointFor y)
    ⟨y.dev.span.deviceId, y.dev.span.selfInc, y.dev.beat.reqSeq % 65536, len, cause⟩
  exact ⟨p, hp, hw, _, hr, rfl, rfl⟩

theorem spanHoldRequests (h : Ready s m 9 6 2 r) (hnew : ∀ p ∈ s.dev.beat.points, p.w ≠ holdPointFor s.work) :
    Completes (.spanHold m) s fun t => Replies s t m 0 3 ∧
      ∃ p ∈ t.dev.beat.points, p.w = holdPointFor s.work ∧ ∃ q ∈ p.reqs, q.len = r.field 0 2 ∧ q.cause = 0xA := by
  have hruns : spanHold m s.work = _ := ready_runs h
  have hlen : r.field 0 2 ≤ 65535 := Nat.le_of_lt_succ (field_lt r 0)
  refine completes_finish (f := spanHold m) rfl hruns ((requestHold_answerBase _ _ _).trans (answerBase_work h.quiet)) h.quiet.2.2
    fun t hrep hdev => ⟨hrep, ?_⟩
  have hpoints : t.dev.beat.points = (requestHold s.work 0xA (r.field 0 2)).dev.beat.points := (congrArg Beat.points (beat_of_reply hdev)).trans rfl
  rw [hpoints]
  exact requestHold_new hlen hnew

theorem spanRoutesSet (h : Ready s m 9 9 4 r) (hin : bits (r.field 0 4) 5 11 = 0) (hout : bits (r.field 0 4) 28 3 = 0) :
    Completes (.spanRoutes m) s fun t => Replies s t m 0 3 ∧ t.dev.span = { s.dev.span with
      bootIn := bits (r.field 0 4) 0 4, bootLocal := bitAt (r.field 0 4) 4, bootOut := bits (r.field 0 4) 16 12,
      bootValid := bitAt (r.field 0 4) 31 } := by
  have hruns : spanRoutes m s.work = _ := (ready_runs h).trans (if_neg (by simp [hin, hout]))
  exact completes_finish (f := spanRoutes m) rfl hruns (answerBase_work h.quiet) h.quiet.2.2 fun t hrep hdev => ⟨hrep, (span_of_reply hdev).trans rfl⟩

theorem spanLedgerAnswers (h : Ready s m 9 8 0x10 r) (hrole : s.dev.beat.role = .master) (hdest : destOk (r.field 8 8) = true) :
    Completes (.spanLedger m) s fun t => KeepsPins s t ∧ t.dev.beat = s.dev.beat ∧
      ((∃ e ∈ s.dev.beat.ledger, r.field 0 4 ≤ e.index ∧ e.index < r.field 0 4 + r.field 4 4) →
        ∃ x ∈ t.dev.host.accs, x.write = true ∧ x.use = .cmdDest m) ∧
      ((∀ e ∈ s.dev.beat.ledger, ¬ (r.field 0 4 ≤ e.index ∧ e.index < r.field 0 4 + r.field 4 4)) → Replies s t m 0 3) := by
  have hruns : spanLedger m s.work = _ := (ready_runs h).trans ((if_neg fun hne => hne hrole).trans (if_neg (by rw [hdest]; simp)))
  have hmem (e : LedgerEntry) : e ∈ (s.dev.beat.ledger.filter fun e => decide (r.field 0 4 ≤ e.index) && decide (e.index < r.field 0 4 + r.field 4 4)) ↔
      e ∈ s.dev.beat.ledger ∧ r.field 0 4 ≤ e.index ∧ e.index < r.field 0 4 + r.field 4 4 := by
    rw [List.mem_filter, Bool.and_eq_true, decide_eq_true_eq, decide_eq_true_eq]
  dsimp only at hruns
  rw [work_dev] at hruns
  generalize (s.dev.beat.ledger.filter fun e => decide (r.field 0 4 ≤ e.index) && decide (e.index < r.field 0 4 + r.field 4 4)) = l at hruns hmem
  cases l with
  | nil =>
    refine completes_finish (f := spanLedger m) rfl (hruns.trans finishDest_nil) (answerBase_work h.quiet) h.quiet.2.2 fun t hrep hdev =>
      ⟨hrep.1, (beat_of_reply hdev).trans rfl, fun ⟨e, he, hin⟩ => absurd ((hmem e).mpr ⟨he, hin⟩) List.not_mem_nil, fun _ => hrep⟩
  | cons e l =>
    obtain ⟨he, hin⟩ := (hmem e).mp List.mem_cons_self
    refine completes_finishDest (f := spanLedger m) rfl hruns (List.cons_ne_nil _ _) fun t ht hdev hacc =>
      ⟨⟨ht.1, ht.2.2⟩, ?_, fun _ => hacc, fun hno => absurd hin (hno e he)⟩
    rw [hdev]

theorem spanPlaceTaken (h : Ready s m 9 1 0x48 r) (hres : placeReserved r = false) (htable : r.field 0x40 8 = 0) (hlive : anyLive s.dev = false)
    (hdown : ∀ x ∈ s.dev.span.ports, x.state = .down) (hlen : s.dev.span.ports.length = 12) :
    Completes (.spanPlace m) s fun t => Replies s t m 0 3 ∧ t.dev.span.deviceId = r.field 0 2 ∧
      ∀ p : Port, (t.work.port p).expId = bits (r.field (4 + 4 * p) 4) 0 11 ∧
        (t.work.port p).expPort = bits (r.field (4 + 4 * p) 4) 12 4 ∧ (t.work.port p).state = .down := by
  have hruns : spanPlace m s.work = _ := ready_runs h
  dsimp only at hruns
  rw [hres, htable, work_dev, hlive, if_neg (by decide), if_neg Bool.false_ne_true, if_pos rfl] at hruns
  obtain ⟨hid, htrain⟩ := placeReserved_parts hres
  have hself := spanSelfWrite_down (y := s.work) (v := BitVec.ofNat 32 (r.field 0 2)) hdown
  obtain ⟨hbase, hdev, -, hports⟩ := placeWrites_parts (fun p => BitVec.ofNat 32 (r.field (4 + 4 * p) 4))
    (spanSelfWrite (BitVec.ofNat 32 (r.field 0 2)) s.work) (by rw [hself]; exact hlen)
    (fun p hp => by rw [hself]; exact hdown _ (port_mem (y := s.work) (by rw [work_dev, hlen]; exact hp))) htrain 12 (Nat.le_refl _)
  have hplace : applyPlace s.work r = (spanSelfWrite (BitVec.ofNat 32 (r.field 0 2)) s.work).each (List.range 12) fun y p =>
    placeWrite p (BitVec.ofNat 32 (r.field (4 + 4 * p) 4)) y := rfl
  rw [← hplace] at hbase hdev hports
  generalize applyPlace s.work r = z at hruns hbase hdev hports
  rw [hself] at hbase hdev
  refine completes_finish (f := spanPlace m) rfl hruns (hbase.trans (answerBase_work h.quiet)) h.quiet.2.2 fun t hrep hreply => ⟨hrep, ?_, fun p => ?_⟩
  · refine (congrArg Span.deviceId (span_of_reply hreply)).trans (hdev.trans ?_)
    refine (bits_ofNat (lo := 0) (w := 11) _ (by omega)).trans ?_
    rw [bits_zero]
    exact Nat.mod_eq_of_lt hid
  · obtain ⟨hstate, hexp⟩ := hports p p.isLt
    obtain ⟨hid', hport'⟩ := hexp p.isLt
    have hsame : t.work.port p = z.port p := by
      rw [Sys.port, Sys.port, work_dev, span_of_reply hreply]
      rfl
    rw [hsame, hid', hport', hstate]
    exact ⟨bits_ofNat _ (by omega), bits_ofNat _ (by omega), rfl⟩

theorem spanReleaseSent (p : HoldPoint) (h : Ready s m 9 7 4 r) (hrole : s.dev.beat.role = .master) (hp : p ∈ s.dev.beat.points)
    (hclosed : p.closed = true) (hlen : p.len = 0) (hrel : p.release = none) (hindex : p.index = some (r.field 0 4))
    (hone : ∀ q ∈ s.dev.beat.points, q.index = p.index → q = p) :
    Completes (.spanRelease m) s fun t => Replies s t m 0 3 ∧ ∀ q ∈ t.dev.beat.points, q.w = p.w → q.release = some (holdPointFor s.work) := by
  have hany : (s.dev.beat.points.any fun p => p.closed && p.len == 0 && p.release.isNone && p.index == some (r.field 0 4)) = true :=
    List.any_eq_true.mpr ⟨p, hp, by rw [hclosed, hlen, hrel, hindex]; simp⟩
  have hruns : spanRelease m s.work = _ := (ready_runs h).trans ((if_neg fun hne => hne hrole).trans (if_neg (by rw [work_dev, hany]; simp)))
  dsimp only at hruns
  generalize hz : floodRec _ _ _ = z at hruns
  have hbeat : z.dev.beat.points = s.dev.beat.points := by rw [← hz, floodRec_beat]; rfl
  have hbase : answerBase z = answerBase s.work := by rw [← hz, floodRec_answerBase]; rfl
  have hpoint : releasedPoint z.dev.beat (r.field 0 4) = some p :=
    releasedPoint_eq (hbeat ▸ hp) hclosed hlen hrel hindex (hbeat ▸ hone)
  rw [applyRelease_of_open hpoint] at hruns
  refine completes_finish (f := spanRelease m) rfl hruns (hbase.trans (answerBase_work h.quiet)) h.quiet.2.2 fun t hrep hdev => ⟨hrep, fun q hq hw => ?_⟩
  rw [beat_of_reply hdev] at hq
  exact releasePoint_points hq hw

/-- Settles O42: each command runs its body and is answered. -/
theorem bootFaultSpanCommands : Obligations.BootFaultSpanCommands := fun _ _ _ =>
  ⟨bootInfoAnswers, bootDefectsTaken, bootCoresBegins, bootCoresRefused, reportsGoOut, faultRingSet, faultFenceSent, faultAdmitBegins,
    spanPlaceTaken, spanRoleTaken, spanBeatLoadTaken, spanAdmitSends, spanHoldRequests, spanReleaseSent, spanLedgerAnswers, spanRoutesSet⟩

end Sys2Proof
end

section
/-! PROOF. Resets that begin: the answer's bytes may stand among those of the active set (R85, R417). -/

-- One proof after another: elaborated in parallel, the text as a whole needs more memory than the check allows.
set_option Elab.async false

namespace Sys2Proof

open Machine

/-- A BOOT.RESET command of level 4 in mailbox 0. -/
def fabricCommand : CmdRun :=
  { mb := 0, group := 1, verb := 5, seq := 0, payload := [4, 0], refLen := 0, refOk := false, refErr := false, pendingRefs := 0
    inProgress := false, destPending := 0, deferred := false, final := none }

/-- The number of the active bank is 3072, so the bytes of its set are those of the mailboxes. The set's section 1 begins at byte 9, the
STATE of mailbox 0: the one column is of partition 0, which runs. -/
def overlaidState : State :=
  { State.reset with
    mem := [(mbxKey 16, 9)]
    dev := { State.reset.dev with
      map := { State.reset.dev.map with n := 1 }
      boot := { State.reset.dev.boot with power := .memReady, parts := [.running, .idle, .idle, .idle] }
      sched := { State.reset.dev.sched with bank := 3072, haveActive := true }
      host := { State.reset.dev.host with cmds := [fabricCommand] } } }

/-- The state of a partition after a command. -/
def partAfter (i : Instr) (q : Nat) (s : State) : Option PartState :=
  match exec i s with
  | .next t => some (partState t.dev q)
  | _ => none

/-- The answer moves the column to partition 2, so partition 0 is not among those that the reset stops. -/
theorem partAfter_bootResetFabric : partAfter (.bootResetFabric 0) 0 overlaidState = some .running := by decide +kernel

/-- Refutes O43: a fabric reset need not stop every live partition. No premise bounds the number of the active bank, and with 3072 the answer in
the mailbox writes the set that says which partitions there are, before they are stopped. -/
theorem not_resetsBegin : ¬ Obligations.ResetsBegin := by
  intro h
  obtain ⟨-, -, hfabric, -⟩ := h overlaidState 0 fabricCommand ⟨rfl, rfl, rfl, rfl, rfl, rfl, rfl, rfl, rfl, rfl, by decide +kernel⟩
  obtain ⟨t, ht, -, -, -, -, -, -, -, hstop, -⟩ := hfabric (by decide +kernel) rfl (by decide +kernel) rfl
  have hrun := partAfter_bootResetFabric
  rw [partAfter, ht] at hrun
  dsimp only at hrun
  rw [hstop 0 (by decide +kernel) (by decide +kernel)] at hrun
  exact absurd hrun (by decide)

end Sys2Proof
end

section
/-! PROOF. Resets that end: the buffers of their sites become zero (R285, R415). -/

-- One proof after another: elaborated in parallel, the text as a whole needs more memory than the check allows.
set_option Elab.async false

namespace Sys2Proof

open Machine

/-- A column reset of site 0 whose fence order has arrived; the buffer of the site holds a byte that is not zero. -/
def filledBufferState : State :=
  { State.reset with
    mem := [(bufKey 0 0, 1)]
    dev := { State.reset.dev with boot := { State.reset.dev.boot with rstBusy := true, rstLevel := 1, rstSites := [0] } } }

/-- Refutes O44: the clause of the column reset asks both that the buffers of its sites are zero and, by `StackOnly`, that no memory has
changed, which a buffer that holds anything contradicts. -/
theorem not_resetsEnd : ¬ Obligations.ResetsEnd := by
  intro h
  obtain ⟨hends, -⟩ := h filledBufferState
  obtain ⟨t, -, ⟨-, hmem, -⟩, hzero, -⟩ := hends (true, 1) List.mem_cons_self rfl rfl
  have hbyte := hzero 0 List.mem_cons_self 0 (by decide)
  rw [hmem] at hbyte
  exact absurd hbyte (by decide +kernel)

end Sys2Proof
end
